-- ==== Sys2Proof/Word.lean ====
section
/-! DEFINITION. Word.lean: the plain number types of the part. Indices are bounded numbers, as "Numbering of
sources, destinations, panels and keys" of spec/00_scope.md gives their ranges. -/

namespace Sys2Proof

/-- One byte of a frame, a cell or a value area. -/
abbrev Byte := BitVec 8

/-- A 32-bit wrapping count: the period counter and the sample counter (00_scope.md, "Periods and counters"). -/
abbrev Count := BitVec 32

/-- Link port 0..3. -/
abbrev PortId := Fin 4
/-- Source 0..255. -/
abbrev SourceId := Fin 256
/-- Destination 0..255. -/
abbrev DestId := Fin 256
/-- Station 0..191. -/
abbrev StationId := Fin 192
/-- Panel 0..47. -/
abbrev PanelId := Fin 48
/-- Index of a key in the KEY table, 0..1535 (panel × 32 + key). -/
abbrev KeyId := Fin 1536
/-- Party 0..15. -/
abbrev PartyId := Fin 16
/-- Field circuit 0..15. -/
abbrev CircuitId := Fin 16
/-- Tap 0..7. -/
abbrev TapId := Fin 8
/-- Cadence entry 0..7. -/
abbrev CadenceId := Fin 8
/-- A level code 0..159 (R82). -/
abbrev Level := Fin 160

end Sys2Proof
end

