-- ==== Sys2Proof/Syntax.lean ====
section
/-! DEFINITION. Syntax.lean: the commands of the part, one constructor per row of spec/opcode_table.json.

A command is an event the part can meet: a pin moving, a frame arriving, a clock tick, a timer expiring, or one unit of
the order unit. The rows that are orders carry the fields of the ORDER cell that R42 gives them (with the tag of R41's
header), so that a command names the very order its unit executes. -/

namespace Sys2Proof

/-- The strap pins as they stand when the part starts (00_scope.md "Pins"; R199): NODE[5:0], MGMT[1:0], PORT_OFF[3:0]. -/
structure Straps where
  node : BitVec 6
  mgmt : PortId
  portOff : BitVec 4
  deriving DecidableEq, Repr, Inhabited

/-- One route of a ROUTE_ADD body: four bytes (R42). -/
structure RouteArg where
  source : Byte
  dest : Byte
  level : Byte
  cls : Byte
  deriving DecidableEq, Repr, Inhabited

/-- One route of a ROUTE_REMOVE or ROUTE_NUDGE body: two bytes (R42). -/
structure PairArg where
  source : Byte
  dest : Byte
  deriving DecidableEq, Repr, Inhabited

/-- The commands. -/
inductive Instr where
  /-- POWER_ON (R199): the end of power-on, with the straps as they stand. -/
  | powerOn (straps : Straps)
  /-- RESET_N_ASSERT (R199). -/
  | resetNAssert
  /-- RESET_N_RELEASE (R199), with the straps as they stand at the release. -/
  | resetNRelease (straps : Straps)
  /-- RESTART_START (R39, R199), with the straps as they stand at that instant. -/
  | restartStart (straps : Straps)
  /-- FRAME_ARRIVAL (R1): the bytes of one frame, byte 0 first (R40), arriving at a port. -/
  | frameArrival (port : PortId) (bytes : List Byte)
  /-- PERIOD_BOUNDARY (R15). -/
  | periodBoundary
  /-- REFCLK_ABSENT (R17): 2 ms have passed without a REFCLK edge. -/
  | refclkAbsent
  /-- REFCLK_PRESENT (R17): 48 REFCLK edges have come without a gap of 2 ms. -/
  | refclkPresent
  /-- LATCH_WINDOW_EXPIRY (R113) of one key. -/
  | latchWindowExpiry (key : KeyId)
  /-- WINK_TIMER_EXPIRY (R114) of one key. -/
  | winkTimerExpiry (key : KeyId)
  /-- SILENCE_TIMER_EXPIRY (R104) of one panel. -/
  | silenceTimerExpiry (panel : PanelId)
  /-- REPLY_EXPIRY (R138) of one station's entry in one panel's reply list. -/
  | replyExpiry (panel : PanelId) (station : StationId)
  /-- INTERVAL_TIMER_EXPIRY (R161) of one circuit. -/
  | intervalTimerExpiry (circuit : CircuitId)
  /-- PROBE_TIMEOUT (R164) of one outstanding probe, named by its tag. -/
  | probeTimeout (circuit : CircuitId) (tag : BitVec 15)
  /-- RECORD_READ (R30). -/
  | recordRead (tag table : Byte) (index : BitVec 16) (mask : BitVec 32)
  /-- RECORD_WRITE (R31), to any table. -/
  | recordWrite (tag table : Byte) (index : BitVec 16) (mask : BitVec 32) (values : List Byte)
  /-- BLOCK_READ (R32). -/
  | blockRead (tag table : Byte) (start : BitVec 16) (mask : BitVec 32) (count : BitVec 16) (direction : Byte)
  /-- BLOCK_READ_STEP (R33). -/
  | blockReadStep
  /-- FILL (R32). -/
  | fill (tag table : Byte) (start : BitVec 16) (mask : BitVec 32) (count : BitVec 16) (direction : Byte)
      (values : List Byte)
  /-- FILL_STEP (R33). -/
  | fillStep
  /-- METER_READ (R32, R35). -/
  | meterRead (tag start count : Byte)
  /-- METER_READ_STEP (R35). -/
  | meterReadStep
  /-- ROUTE_LIST (R32, R34). -/
  | routeList (tag dest : Byte)
  /-- ROUTE_LIST_STEP (R34). -/
  | routeListStep
  /-- ROUTE_ADD (R37, R73). -/
  | routeAdd (tag count : Byte) (routes : List RouteArg)
  /-- ROUTE_REMOVE (R37, R74). -/
  | routeRemove (tag count : Byte) (routes : List PairArg)
  /-- ROUTE_NUDGE (R37, R75). -/
  | routeNudge (tag count direction stepCode : Byte) (routes : List PairArg)
  /-- SWAP (R76, R77). -/
  | swap (tag a b : Byte)
  /-- PARTY_JOIN (R129). -/
  | partyJoin (tag party station listen : Byte)
  /-- PARTY_LEAVE (R130). -/
  | partyLeave (tag party station : Byte)
  /-- PARTY_FLAGS (R131). -/
  | partyFlags (tag party station named values : Byte)
  /-- STATUS_READ (R198). -/
  | statusRead (tag : Byte) (kinds : BitVec 16)
  /-- STATUS_CLEAR (R198). -/
  | statusClear (tag : Byte) (kinds : BitVec 16)
  /-- CLEAR_DYNAMIC (R38). -/
  | clearDynamic (tag : Byte)
  /-- RESTART (R39). -/
  | restart (tag : Byte)
  /-- PORT_ENABLE (R13): RECORD_WRITE to PORT 0..3 naming enabled = yes. -/
  | portEnable (tag : Byte) (index : BitVec 16) (mask : BitVec 32) (values : List Byte)
  /-- PORT_DISABLE (R13): RECORD_WRITE to PORT 0..3 naming enabled = no. -/
  | portDisable (tag : Byte) (index : BitVec 16) (mask : BitVec 32) (values : List Byte)
  /-- OUTGOING_WIDTH_WRITE (R13): RECORD_WRITE to PORT 0..3 naming outgoing width. -/
  | outgoingWidthWrite (tag : Byte) (index : BitVec 16) (mask : BitVec 32) (values : List Byte)
  /-- REFERENCE_SELECT (R19): RECORD_WRITE to PORT 4. -/
  | referenceSelect (tag : Byte) (index : BitVec 16) (mask : BitVec 32) (values : List Byte)
  /-- SOURCE_WRITE (R46). -/
  | sourceWrite (tag : Byte) (index : BitVec 16) (mask : BitVec 32) (values : List Byte)
  /-- DESTINATION_KIND_WRITE (R56): naming kind. -/
  | destinationKindWrite (tag : Byte) (index : BitVec 16) (mask : BitVec 32) (values : List Byte)
  /-- DESTINATION_ENABLE_WRITE (R52): naming enabled. -/
  | destinationEnableWrite (tag : Byte) (index : BitVec 16) (mask : BitVec 32) (values : List Byte)
  /-- OUTPUT_LEVEL_WRITE (R53): naming output level. -/
  | outputLevelWrite (tag : Byte) (index : BitVec 16) (mask : BitVec 32) (values : List Byte)
  /-- DIM_CODE_WRITE (R54): naming dim code. -/
  | dimCodeWrite (tag : Byte) (index : BitVec 16) (mask : BitVec 32) (values : List Byte)
  /-- CLIP_COUNTER_WRITE (R55): naming clip counter. -/
  | clipCounterWrite (tag : Byte) (index : BitVec 16) (mask : BitVec 32) (values : List Byte)
  /-- STATION_WRITE (R58). -/
  | stationWrite (tag : Byte) (index : BitVec 16) (mask : BitVec 32) (values : List Byte)
  /-- PANEL_CONFIGURE (R100): naming configured = yes. -/
  | panelConfigure (tag : Byte) (index : BitVec 16) (mask : BitVec 32) (values : List Byte)
  /-- PANEL_UNCONFIGURE (R100): naming configured = no. -/
  | panelUnconfigure (tag : Byte) (index : BitVec 16) (mask : BitVec 32) (values : List Byte)
  /-- PANEL_SETTINGS_WRITE (R101): naming any field but configured. -/
  | panelSettingsWrite (tag : Byte) (index : BitVec 16) (mask : BitVec 32) (values : List Byte)
  /-- KEY_WRITE (R109). -/
  | keyWrite (tag : Byte) (index : BitVec 16) (mask : BitVec 32) (values : List Byte)
  /-- PARTY_ENABLE (R132): naming enabled = yes. -/
  | partyEnable (tag : Byte) (index : BitVec 16) (mask : BitVec 32) (values : List Byte)
  /-- PARTY_DISABLE (R132): naming enabled = no. -/
  | partyDisable (tag : Byte) (index : BitVec 16) (mask : BitVec 32) (values : List Byte)
  /-- PARTY_LEVEL_WRITE (R132): naming level. -/
  | partyLevelWrite (tag : Byte) (index : BitVec 16) (mask : BitVec 32) (values : List Byte)
  /-- CIRCUIT_ENABLE (R159): naming enabled = yes. -/
  | circuitEnable (tag : Byte) (index : BitVec 16) (mask : BitVec 32) (values : List Byte)
  /-- CIRCUIT_DISABLE (R160): naming enabled = no. -/
  | circuitDisable (tag : Byte) (index : BitVec 16) (mask : BitVec 32) (values : List Byte)
  /-- CIRCUIT_SETTINGS_WRITE (R158): naming any field but enabled. -/
  | circuitSettingsWrite (tag : Byte) (index : BitVec 16) (mask : BitVec 32) (values : List Byte)
  /-- TAP_ENABLE (R178): naming enabled = yes. -/
  | tapEnable (tag : Byte) (index : BitVec 16) (mask : BitVec 32) (values : List Byte)
  /-- TAP_DISABLE (R183): naming enabled = no. -/
  | tapDisable (tag : Byte) (index : BitVec 16) (mask : BitVec 32) (values : List Byte)
  /-- TAP_LEVEL_WRITE (R182): naming level. -/
  | tapLevelWrite (tag : Byte) (index : BitVec 16) (mask : BitVec 32) (values : List Byte)
  /-- TAP_SETTINGS_WRITE (R177): naming side, base, mask, monitor destination or forward. -/
  | tapSettingsWrite (tag : Byte) (index : BitVec 16) (mask : BitVec 32) (values : List Byte)
  /-- CADENCE_WRITE (R190). -/
  | cadenceWrite (tag : Byte) (index : BitVec 16) (mask : BitVec 32) (values : List Byte)
  /-- EVENT_WRITE (R198). -/
  | eventWrite (tag : Byte) (index : BitVec 16) (mask : BitVec 32) (values : List Byte)
  /-- SAMPLE_INSTANT (R15). -/
  | sampleInstant
  /-- UNLISTED_ORDER_CODE (R28): an ORDER whose code R42 does not list. -/
  | unlistedOrderCode (tag code : Byte)
  deriving DecidableEq, Repr

end Sys2Proof
end

