-- ==== Sys2Proof/Decode.lean ====
section
/-! DEFINITION. Decode.lean: the commands of this block come from its pins, its links and its clock; no row of
spec/opcode_table.json gives a command bits, so no word spells one (notes/assumptions/10.md). -/

namespace Sys2Proof

/-- The command a word spells by the opcode table's bits: none, since the table gives no bits to any row. -/
def decodeTableWord (_nbits _w : Nat) : Option Instr := none

end Sys2Proof
end

