-- ==== Sys2Proof/Config.lean ====
section
/-! DEFINITION. Config.lean: the fixed limits the spec states, and the free values: bytes the part sends whose value
the spec does not state. A free value has no body, so nothing can be proved of it. -/

namespace Sys2Proof.Config

/-- A byte of a cell body built by the part that the layouts of R43 and R44 do not list, or whose value they do not
state (DESIGN CHOICE, notes/assumptions/6.md): byte `pos` of the `draw`-th cell built. -/
opaque freeCellByte (draw pos : Nat) : Byte

/-- Whether a notice built while a period boundary is being taken carries the period that ends or the one that begins
(DESIGN CHOICE, notes/assumptions/7.md): 0 or 1 is added to the number of the period that ends. -/
opaque freeBoundaryBit (draw : Nat) : BitVec 1

/-- Order queue capacity (R24). -/
abbrev orderCap : Nat := 16
/-- Reply queue capacity (R24). -/
abbrev replyCap : Nat := 16
/-- Notice queue capacity (R24). -/
abbrev noticeCap : Nat := 8
/-- Contributions of one destination (R71). -/
abbrev contributionCap : Nat := 32
/-- Entries of the store (R71). -/
abbrev storeCap : Nat := 2048
/-- Grant holders of one entry (R63). -/
abbrev grantCap : Nat := 32
/-- Destinations of IFB kind (R51). -/
abbrev ifbCap : Nat := 64
/-- Waiting keys of one arbiter (R142). -/
abbrev waitingCap : Nat := 4
/-- Members of one party (R125). -/
abbrev memberCap : Nat := 24
/-- Parties one station may be in (R125). -/
abbrev partiesPerStation : Nat := 4
/-- Entries of one reply list (R136). -/
abbrev replyListCap : Nat := 4
/-- Outstanding probes of one circuit (R163). -/
abbrev probeCap : Nat := 4
/-- Sample instants in one period, and samples of one slot in one frame (R15). -/
abbrev perPeriod : Nat := 48
/-- Cells in one frame (R26). -/
abbrev cellsPerFrame : Nat := 8

end Sys2Proof.Config
end

