-- ==== Sys2Proof/Machine/State.lean ====
section
/-! DEFINITION. Machine/State.lean: every piece of state the spec gives the part, as plain data, and the state right
after reset. Each field's docstring names the rule that gives it. -/

namespace Sys2Proof.Machine

/-! ## Enumerations -/

/-- State of a link port (R2). -/
inductive PortState where
  | disabled | down | locking | up | holdover
  deriving DecidableEq, Repr, Inhabited

/-- Sample width of a frame (R2, R6). -/
inductive Width where
  | w16 | w24
  deriving DecidableEq, Repr, Inhabited

/-- A source of the period timing (R14). -/
inductive RefSource where
  | internal | refclk | port (p : PortId)
  deriving DecidableEq, Repr, Inhabited

/-- What sets the rate of the sample clock (R16, R18): the nominal rate, the active source, or the rate last steered. -/
inductive ClockRate where
  | nominal | steered | held
  deriving DecidableEq, Repr, Inhabited

/-- Kind of a destination (R50). -/
inductive DestKind where
  | plain | ifb | monitor
  deriving DecidableEq, Repr, Inhabited

/-- Kind of a station (R57). -/
inductive StationKind where
  | unused | panel | beltpack | reporter | fixed
  deriving DecidableEq, Repr, Inhabited

/-- Class of a crosspoint entry (R61). -/
inductive EntryClass where
  | programme | talk
  deriving DecidableEq, Repr, Inhabited

/-- State of a crosspoint entry (R61). -/
inductive EntryState where
  | active | releasing
  deriving DecidableEq, Repr, Inhabited

/-- Loss policy of a panel (R99). -/
inductive LossPolicy where
  | keepLatched | dropAll | keepAll
  deriving DecidableEq, Repr, Inhabited

/-- Online state of a panel (R99). -/
inductive OnlineState where
  | unconfigured | offline | online
  deriving DecidableEq, Repr, Inhabited

/-- Mode of an encoder (R99). -/
inductive EncoderMode where
  | x1 | x2 | x4
  deriving DecidableEq, Repr, Inhabited

/-- Function of a key (R108). -/
inductive KeyFunction where
  | unassigned | talkStation | listenStation | talkParty | ifb | callStation | reply
  deriving DecidableEq, Repr, Inhabited

/-- Mode of a key (R108). -/
inductive KeyMode where
  | momentary | latching | auto
  deriving DecidableEq, Repr, Inhabited

/-- Priority of an IFB key (R108). -/
inductive Priority where
  | low | high
  deriving DecidableEq, Repr, Inhabited

/-- State of a key (R108). -/
inductive KeyState where
  | idle | pressed | momentaryOn | latched | unlatching | refusedHeld
  deriving DecidableEq, Repr, Inhabited

/-- IFB standing of a key (R108, R143). -/
inductive Standing where
  | outside | waiting | current
  deriving DecidableEq, Repr, Inhabited

/-- Lamp state of a key (R186), numbered 0 to 5 as R44 gives them. -/
inductive LampState where
  | off | on | dim | flashCall | flashBusy | wink
  deriving DecidableEq, Repr, Inhabited

/-- State of a field circuit (R157). -/
inductive CircuitState where
  | disabled | starting | normal | degraded | linkLost
  deriving DecidableEq, Repr, Inhabited

/-- Side of a tap (R175). -/
inductive TapSide where
  | source | destination
  deriving DecidableEq, Repr, Inhabited

/-- Route of an event kind (R194). -/
inductive EventRoute where
  | notice | alarm | both
  deriving DecidableEq, Repr, Inhabited

/-- The fifteen event kinds, in the order R44 numbers them. -/
inductive EventKind where
  | started | portDown | portUp | frameError | slip | cellOverflow | referenceLost | clip | grantRefused
  | panelOffline | panelOnline | fieldDegraded | fieldNormal | probeLost | returnSilent
  deriving DecidableEq, Repr, Inhabited

/-- Whether the part runs, or is held by RESET_N low (R199). -/
inductive Phase where
  | running | inReset
  deriving DecidableEq, Repr, Inhabited

/-- Where a RESTART stands (R39): none asked for; marked, with its period running on; or its period ended, so that the
start is due. -/
inductive RestartMark where
  | absent | marked | due
  deriving DecidableEq, Repr, Inhabited

/-- Which kind of work the order unit did last (R27). -/
inductive UnitKind where
  | order | step
  deriving DecidableEq, Repr, Inhabited

/-! ## Records -/

/-- One position of a port's input buffer (R2, R6): stamp, width, slot count, and the samples of the slots the frame
carried, placed as 24-bit values. Slots at or above the slot count read as zeros (`BufferPosition.slot`). -/
structure BufferPosition where
  stamp : Option Count
  width : Width
  slotCount : Nat
  slots : List (List Int)
  deriving DecidableEq, Repr, Inhabited

/-- An empty buffer position (R2): its stamp is absent. -/
def BufferPosition.empty : BufferPosition := { stamp := none, width := .w24, slotCount := 0, slots := [] }

/-- A port record 0..3 (R2), its input buffer, and the settling mark of R4. -/
structure Port where
  state : PortState
  enabled : Bool
  width : Width
  lockCount : Nat
  lastSeq : Option (BitVec 16)
  missCount : Nat
  outSeq : BitVec 16
  frameErrors : Nat
  slips : Nat
  buffer : Vector BufferPosition 3
  /-- The running period is the port's settling period (R4). -/
  settling : Bool
  deriving DecidableEq, Repr, Inhabited

/-- The reference timing record (R14) and what reference timing holds beside it. -/
structure Timing where
  selected : RefSource
  active : RefSource
  refclkPresent : Bool
  period : Count
  sample : Count
  /-- Sample instants since the boundary that began the running period (R15); 48 when the boundary is due. -/
  place : Nat
  /-- Buffer position of the running period (R6). -/
  position : Fin 3
  /-- A change of active source that takes effect at the next boundary (R16). -/
  pending : Option RefSource
  /-- The active source changed since the last boundary (R18), so the next period re-aligns (R16). -/
  changed : Bool
  /-- The running period is a re-aligning period (R16). -/
  realigning : Bool
  rate : ClockRate
  /-- The period boundary event is being taken (the model's own mark; false between commands). -/
  atBoundary : Bool
  deriving DecidableEq, Repr, Inhabited

/-- An ORDER cell in the order queue (R24): its tag and its 28-byte body, bytes at or beyond the header's length read
as zero (R23). -/
structure OrderCell where
  tag : Byte
  body : List Byte
  deriving DecidableEq, Repr, Inhabited

/-- A REPLY cell in the reply queue (R24): its tag and its 28-byte body. -/
structure ReplyCell where
  tag : Byte
  body : List Byte
  deriving DecidableEq, Repr, Inhabited

/-- A notice in the notice queue (R24): kind, instance and period of the raise that produced it. Its count byte is
written when it is placed in a frame. -/
structure Notice where
  kind : EventKind
  inst : Option Nat
  period : Count
  deriving DecidableEq, Repr, Inhabited

/-- The tables of the order unit (R28, R42). -/
inductive TableName where
  | port | source | destination | station | panel | key | party | circuit | tap | cadence | event
  deriving DecidableEq, Repr, Inhabited

/-- What a block order in flight works on (R32). -/
inductive BlockWork where
  | blockRead (table : TableName) (mask : BitVec 32) (descending : Bool)
  | fill (table : TableName) (mask : BitVec 32) (descending : Bool) (values : List Byte)
  | meterRead
  | routeList (dest : DestId) (place : Option Nat)
  deriving DecidableEq, Repr, Inhabited

/-- The block order in flight (R32). `next` is the next index to handle, `remaining` the count still to handle,
`handled` the count handled so far. For ROUTE_LIST the place is the serial number of the last entry reported. -/
structure Block where
  tag : Byte
  work : BlockWork
  next : Nat
  remaining : Nat
  handled : Nat
  deriving DecidableEq, Repr, Inhabited

/-- A source record (R45). -/
structure Source where
  enabled : Bool
  trim : Level
  isolation : Nat
  peakHold : Nat
  gapped : Bool
  gapCounter : Nat
  deriving DecidableEq, Repr, Inhabited

/-- A destination record (R50) and its previous output of 48 samples. -/
structure Dest where
  enabled : Bool
  kind : DestKind
  outputLevel : Level
  appliedOutput : Nat
  dimCode : Level
  circuit : Option CircuitId
  clipCounter : Nat
  previousOutput : List Int
  deriving DecidableEq, Repr, Inhabited

/-- A station record (R57). -/
structure Station where
  kind : StationKind
  source : Option SourceId
  dest : Option DestId
  deriving DecidableEq, Repr, Inhabited

/-- A crosspoint entry (R61). `serial` numbers the entries in creation order (the model's own field; R62, R34). -/
structure Entry where
  source : SourceId
  dest : DestId
  level : Level
  cls : EntryClass
  state : EntryState
  static : Bool
  grants : List KeyId
  parties : List PartyId
  taps : List TapId
  applied : Nat
  serial : Nat
  deriving DecidableEq, Repr, Inhabited

/-- A waiting key of an arbiter, with its priority (R142). -/
structure Waiter where
  key : KeyId
  high : Bool
  deriving DecidableEq, Repr, Inhabited

/-- An arbiter (R142), kept under the number of the IFB destination it serves. -/
structure Arbiter where
  current : Option KeyId
  waiting : List Waiter
  deriving DecidableEq, Repr, Inhabited

/-- One encoder of a panel (R99). A target of `none` is OWN_OUTPUT. -/
structure Encoder where
  mode : EncoderMode
  target : Option (Fin 32)
  minimum : Level
  maximum : Level
  residue : Int
  deriving DecidableEq, Repr, Inhabited

/-- One entry of a reply list (R136), with the sample instant at which its timer expires. -/
structure ReplyEntry where
  station : StationId
  expiresAt : Count
  deriving DecidableEq, Repr, Inhabited

/-- A panel record (R99) and its silence timer (R98). Timers hold the instant at which they expire; `none` is stopped. -/
structure Panel where
  configured : Bool
  port : PortId
  node : BitVec 6
  ownStation : StationId
  lossPolicy : LossPolicy
  latchWindow : Nat
  replyExpiry : Nat
  online : OnlineState
  encoders : Vector Encoder 4
  replyList : List ReplyEntry
  lampPending : BitVec 32
  cadencePending : Bool
  silenceTimer : Option Count
  deriving DecidableEq, Repr, Inhabited

/-- A key record (R108), its latch window and wink timer (R98), and its last-sent lamp (R188). -/
structure Key where
  function : KeyFunction
  target : Option (Fin 256)
  mode : KeyMode
  priority : Priority
  talkLevel : Level
  state : KeyState
  down : Bool
  standing : Standing
  resolved : Option StationId
  winkTimer : Option Count
  latchTimer : Option Count
  lastLamp : LampState
  deriving DecidableEq, Repr, Inhabited

/-- A member of a party (R125). -/
structure Member where
  station : StationId
  talk : Bool
  listen : Bool
  deriving DecidableEq, Repr, Inhabited

/-- A party record (R124); the members stand in join order. -/
structure Party where
  enabled : Bool
  level : Level
  members : List Member
  deriving DecidableEq, Repr, Inhabited

/-- An outstanding probe (R157, R163), with the instant at which its timeout expires. -/
structure Probe where
  tag : BitVec 15
  sent : Count
  expiresAt : Count
  deriving DecidableEq, Repr, Inhabited

/-- A circuit record (R157) and its interval timer. -/
structure Circuit where
  enabled : Bool
  state : CircuitState
  reporter : StationId
  gateway : BitVec 6
  probeInterval : Nat
  probeTimeout : Nat
  upperLimit : Nat
  lowerLimit : Nat
  degradeCode : Level
  silenceThreshold : Nat
  silenceTime : Nat
  estimate : Option Nat
  last : Option Nat
  previous : Option Nat
  lostInARow : Nat
  strayEchoes : Nat
  silent : Bool
  silentMs : Nat
  tagGenerator : BitVec 15
  outstanding : List Probe
  intervalTimer : Option Count
  deriving DecidableEq, Repr, Inhabited

/-- A tap rule (R175). -/
structure Tap where
  enabled : Bool
  side : TapSide
  base : BitVec 8
  mask : BitVec 8
  monitor : DestId
  level : Level
  forward : Bool
  applied : Nat
  deriving DecidableEq, Repr, Inhabited

/-- A cadence entry (R190); times in ms. -/
structure Cadence where
  period : Nat
  bright : Nat
  dim : Nat
  brightLevel : Nat
  dimLevel : Nat
  deriving DecidableEq, Repr, Inhabited

/-- An event record (R194). -/
structure Event where
  isSet : Bool
  count : Nat
  inst : Option Nat
  enable : Bool
  route : EventRoute
  deriving DecidableEq, Repr, Inhabited

/-- The state of the part. -/
structure State where
  /-- RESET_N held low, or running (R199). -/
  phase : Phase
  /-- The straps as sampled at the last start (R199, R23). -/
  straps : Straps
  /-- RESTART's mark (R39). -/
  restart : RestartMark
  /-- Reference timing (R14 to R19). -/
  timing : Timing
  /-- Port records 0..3 (R2). -/
  ports : Vector Port 4
  /-- Order queue, oldest first (R24). -/
  orders : List OrderCell
  /-- Reply queue, oldest first (R24). -/
  replies : List ReplyCell
  /-- Notice queue, oldest first (R24). -/
  notices : List Notice
  /-- Probe queue of each port, oldest request first (R24, R25). -/
  probeQueues : Vector (List CircuitId) 4
  /-- Lamp service position of each port (R25). -/
  lampPositions : Vector (Option PanelId) 4
  /-- Block order in flight (R32). -/
  block : Option Block
  /-- Kind of work the order unit did last (R27). -/
  lastUnit : UnitKind
  /-- A unit has been taken at the running sample instant (R27). -/
  unitTaken : Bool
  /-- SOURCE table (R45). -/
  sources : Vector Source 256
  /-- DESTINATION table (R50). -/
  dests : Vector Dest 256
  /-- STATION table (R57). -/
  stations : Vector Station 192
  /-- Crosspoint entries, one list in creation order per destination (R61, R62). -/
  entries : Vector (List Entry) 256
  /-- Serial number of the next entry created (the model's own counter). -/
  nextSerial : Nat
  /-- Arbiters (R142), by the destination served. -/
  arbiters : Vector Arbiter 256
  /-- PANEL table (R99). -/
  panels : Vector Panel 48
  /-- KEY table (R108). -/
  keys : Vector Key 1536
  /-- PARTY table (R124). -/
  parties : Vector Party 16
  /-- CIRCUIT table (R157). -/
  circuits : Vector Circuit 16
  /-- TAP table (R175). -/
  taps : Vector Tap 8
  /-- CADENCE table (R190). -/
  cadences : Vector Cadence 8
  /-- EVENT table (R194), by kind number. -/
  events : Vector Event 15
  /-- The bytes of the frame each port sent at its last assembly (the transmit pairs; R21), none before the first. -/
  sent : Vector (Option (List Byte)) 4
  /-- Keys handed to the lamp unit while the running event is handled (R189; the model's own list, empty between
  commands). -/
  lampDirty : List KeyId
  /-- Number of free values drawn (the model's own counter). -/
  draws : Nat
  /-- Commands waiting to be taken, first in first out. -/
  pending : List Instr
  deriving DecidableEq, Repr

/-- Reasons to stop with a fault. None: the spec names no condition in which the part stops, and every command has an
effect or, where the spec gives it none in the state it meets, changes nothing (notes/assumptions/1.md). Safe. -/
inductive Fault where
  deriving DecidableEq, Repr

/-- Reasons to refuse a command. -/
inductive Refusal where
  /-- Raised by an arm of `exec` whose command has no meaning yet; no arm does. Safe: nothing is claimed of it. -/
  | notModelled (mnemonic : String)
  deriving DecidableEq, Repr

/-! ## Reset values -/

/-- R2: the port record after a start, by its PORT_OFF strap. -/
def Port.reset (off : Bool) : Port :=
  { state := if off then .disabled else .down, enabled := !off, width := .w24, lockCount := 0, lastSeq := none,
    missCount := 0, outSeq := 0, frameErrors := 0, slips := 0, buffer := Vector.replicate 3 BufferPosition.empty,
    settling := false }

/-- R14. -/
def Timing.reset : Timing :=
  { selected := .internal, active := .internal, refclkPresent := false, period := 0, sample := 0, place := 0,
    position := 0, pending := none, changed := false, realigning := false, rate := .nominal, atBoundary := false }

/-- R45. -/
def Source.reset : Source :=
  { enabled := true, trim := 128, isolation := 0, peakHold := 0, gapped := true, gapCounter := 0 }

/-- 48 samples of value 0. -/
def silence : List Int := List.replicate 48 0

/-- R50. -/
def Dest.reset : Dest :=
  { enabled := true, kind := .plain, outputLevel := 128, appliedOutput := 4096, dimCode := 96, circuit := none,
    clipCounter := 0, previousOutput := silence }

/-- R57. -/
def Station.reset : Station := { kind := .unused, source := none, dest := none }

/-- An arbiter with no current key and an empty waiting list (R51, R142). -/
def Arbiter.empty : Arbiter := { current := none, waiting := [] }

/-- R99. -/
def Encoder.reset : Encoder := { mode := .x1, target := none, minimum := 0, maximum := 128, residue := 0 }

/-- R99. -/
def Panel.reset : Panel :=
  { configured := false, port := 0, node := 0, ownStation := 0, lossPolicy := .keepLatched, latchWindow := 300,
    replyExpiry := 10, online := .unconfigured, encoders := Vector.replicate 4 Encoder.reset, replyList := [],
    lampPending := 0, cadencePending := false, silenceTimer := none }

/-- R108, R188. -/
def Key.reset : Key :=
  { function := .unassigned, target := none, mode := .momentary, priority := .low, talkLevel := 128, state := .idle,
    down := false, standing := .outside, resolved := none, winkTimer := none, latchTimer := none, lastLamp := .off }

/-- R124. -/
def Party.reset : Party := { enabled := false, level := 128, members := [] }

/-- R157: the tag generator's seed is the circuit number + 1. -/
def Circuit.reset (c : Nat) : Circuit :=
  { enabled := false, state := .disabled, reporter := 0, gateway := 0, probeInterval := 500, probeTimeout := 1000,
    upperLimit := 24000, lowerLimit := 19200, degradeCode := 0, silenceThreshold := 8389, silenceTime := 5000,
    estimate := none, last := none, previous := none, lostInARow := 0, strayEchoes := 0, silent := false,
    silentMs := 0, tagGenerator := BitVec.ofNat 15 (c + 1), outstanding := [], intervalTimer := none }

/-- R175. -/
def Tap.reset : Tap :=
  { enabled := false, side := .source, base := 0, mask := 0, monitor := 0, level := 128, forward := true, applied := 0 }

/-- R190: the table of cadence entries after a start. -/
def cadenceReset : Vector Cadence 8 :=
  #v[⟨1000, 0, 0, 15, 5⟩, ⟨1000, 1000, 0, 15, 5⟩, ⟨1000, 0, 1000, 15, 5⟩, ⟨500, 250, 0, 15, 5⟩, ⟨250, 120, 0, 15, 5⟩,
    ⟨200, 60, 60, 15, 5⟩, ⟨1000, 0, 0, 15, 5⟩, ⟨1000, 0, 0, 15, 5⟩]

/-- R194: an event record with set no, count 0 and last instance none. -/
def Event.reset (enable : Bool) (route : EventRoute) : Event :=
  { isSet := false, count := 0, inst := none, enable := enable, route := route }

/-- R194: the event table after a start, before STARTED is raised: PORT_DOWN and REFERENCE_LOST routed BOTH, CLIP
disabled. -/
def eventReset : Vector Event 15 :=
  #v[.reset true .notice, .reset true .both, .reset true .notice, .reset true .notice, .reset true .notice,
    .reset true .notice, .reset true .both, .reset false .notice, .reset true .notice, .reset true .notice,
    .reset true .notice, .reset true .notice, .reset true .notice, .reset true .notice, .reset true .notice]

/-- Every table, queue, timer and counter at the value its chapter gives after power-on, RESET_N and RESTART (R199 step
2), with the straps given, in the phase given. -/
def State.blank (phase : Phase) (straps : Straps) (draws : Nat) (pending : List Instr) : State :=
  { phase := phase
    straps := straps
    restart := .absent
    timing := Timing.reset
    ports := #v[Port.reset straps.portOff[0], Port.reset straps.portOff[1], Port.reset straps.portOff[2],
      Port.reset straps.portOff[3]]
    orders := []
    replies := []
    notices := []
    probeQueues := Vector.replicate 4 []
    lampPositions := Vector.replicate 4 none
    block := none
    lastUnit := .order
    unitTaken := false
    sources := Vector.replicate 256 Source.reset
    dests := Vector.replicate 256 Dest.reset
    stations := Vector.replicate 192 Station.reset
    entries := Vector.replicate 256 []
    nextSerial := 0
    arbiters := Vector.replicate 256 Arbiter.empty
    panels := Vector.replicate 48 Panel.reset
    keys := Vector.replicate 1536 Key.reset
    parties := Vector.replicate 16 Party.reset
    circuits := Vector.ofFn fun c : Fin 16 => Circuit.reset c.val
    taps := Vector.replicate 8 Tap.reset
    cadences := cadenceReset
    events := eventReset
    sent := Vector.replicate 4 none
    lampDirty := []
    draws := draws
    pending := pending }

/-- The straps of the reset state: PORT_OFF open, as 00_scope.md gives it; node 0 and management port 0 (DESIGN CHOICE:
the board decides them; notes/assumptions/2.md). -/
def Straps.reset : Straps := { node := 0, mgmt := 0, portOff := 0 }

/-- The part right after a start (R199): every table at its reset value, STARTED set with count 1, its notice in the
otherwise empty notice queue, and no command waiting. -/
def State.reset : State :=
  { State.blank .running Straps.reset 0 [] with
    events := eventReset.set 0 { isSet := true, count := 1, inst := none, enable := true, route := .notice }
    notices := [{ kind := .started, inst := none, period := 0 }] }

end Sys2Proof.Machine
end

