-- ==== Sys2Proof/Machine/Ops.lean ====
section
/-! DEFINITION. Machine/Ops.lean: the named operations over the tables, the queues and the timers, and the byte helpers.
Every other file reads and writes State through these. -/

namespace Sys2Proof.Machine

/-! ## Tables -/

/-- Read one record of a table. -/
def tget {α : Type} {n : Nat} (t : Vector α n) (i : Fin n) : α := t[i.val]

/-- Write one record of a table. -/
def tset {α : Type} {n : Nat} (t : Vector α n) (i : Fin n) (x : α) : Vector α n := t.set i.val x

/-- Every index of a table of n records, ascending. -/
def allOf (n : Nat) : List (Fin n) := List.finRange n

/-- The index of number i in a table of n records, if there is such a record. -/
def indexIn (n i : Nat) : Option (Fin n) := if h : i < n then some ⟨i, h⟩ else none

namespace State

/-- Record of port p (R2). -/
def port (s : State) (p : PortId) : Port := tget s.ports p
/-- Replace the record of port p. -/
def setPort (s : State) (p : PortId) (r : Port) : State := { s with ports := tset s.ports p r }
/-- Record of source n (R45). -/
def source (s : State) (n : SourceId) : Source := tget s.sources n
/-- Replace the record of source n. -/
def setSource (s : State) (n : SourceId) (r : Source) : State := { s with sources := tset s.sources n r }
/-- Record of destination d (R50). -/
def dest (s : State) (d : DestId) : Dest := tget s.dests d
/-- Replace the record of destination d. -/
def setDest (s : State) (d : DestId) (r : Dest) : State := { s with dests := tset s.dests d r }
/-- Record of station t (R57). -/
def station (s : State) (t : StationId) : Station := tget s.stations t
/-- Replace the record of station t. -/
def setStation (s : State) (t : StationId) (r : Station) : State := { s with stations := tset s.stations t r }
/-- Entry list of destination d, in creation order (R62). -/
def entriesOf (s : State) (d : DestId) : List Entry := tget s.entries d
/-- Replace the entry list of destination d. -/
def setEntries (s : State) (d : DestId) (l : List Entry) : State := { s with entries := tset s.entries d l }
/-- Arbiter of destination d (R142). -/
def arbiter (s : State) (d : DestId) : Arbiter := tget s.arbiters d
/-- Replace the arbiter of destination d. -/
def setArbiter (s : State) (d : DestId) (a : Arbiter) : State := { s with arbiters := tset s.arbiters d a }
/-- Record of panel p (R99). -/
def panel (s : State) (p : PanelId) : Panel := tget s.panels p
/-- Replace the record of panel p. -/
def setPanel (s : State) (p : PanelId) (r : Panel) : State := { s with panels := tset s.panels p r }
/-- Record of key k (R108). -/
def key (s : State) (k : KeyId) : Key := tget s.keys k
/-- Replace the record of key k. -/
def setKey (s : State) (k : KeyId) (r : Key) : State := { s with keys := tset s.keys k r }
/-- Record of party p (R124). -/
def party (s : State) (p : PartyId) : Party := tget s.parties p
/-- Replace the record of party p. -/
def setParty (s : State) (p : PartyId) (r : Party) : State := { s with parties := tset s.parties p r }
/-- Record of circuit c (R157). -/
def circuit (s : State) (c : CircuitId) : Circuit := tget s.circuits c
/-- Replace the record of circuit c. -/
def setCircuit (s : State) (c : CircuitId) (r : Circuit) : State := { s with circuits := tset s.circuits c r }
/-- Record of tap t (R175). -/
def tap (s : State) (t : TapId) : Tap := tget s.taps t
/-- Replace the record of tap t. -/
def setTap (s : State) (t : TapId) (r : Tap) : State := { s with taps := tset s.taps t r }
/-- Cadence entry c (R190). -/
def cadence (s : State) (c : CadenceId) : Cadence := tget s.cadences c
/-- Replace cadence entry c. -/
def setCadence (s : State) (c : CadenceId) (r : Cadence) : State := { s with cadences := tset s.cadences c r }
/-- Probe queue of port p (R25). -/
def probeQueue (s : State) (p : PortId) : List CircuitId := tget s.probeQueues p
/-- Replace the probe queue of port p. -/
def setProbeQueue (s : State) (p : PortId) (q : List CircuitId) : State :=
  { s with probeQueues := tset s.probeQueues p q }
/-- Lamp service position of port p (R25). -/
def lampPosition (s : State) (p : PortId) : Option PanelId := tget s.lampPositions p
/-- Replace the lamp service position of port p. -/
def setLampPosition (s : State) (p : PortId) (q : Option PanelId) : State :=
  { s with lampPositions := tset s.lampPositions p q }

end State

/-! ## Numbers of objects (00_scope.md, "Numbering") -/

/-- Source or destination (port × 64 + slot). -/
def slotNumber (p : PortId) (slot : Fin 64) : Fin 256 := ⟨p.val * 64 + slot.val, by omega⟩

/-- The port of source or destination n: n div 64. -/
def portOf (n : Fin 256) : PortId := ⟨n.val / 64, by omega⟩

/-- The slot of source or destination n: n mod 64. -/
def slotOf (n : Fin 256) : Fin 64 := ⟨n.val % 64, by omega⟩

/-- The panel of key k. -/
def keyPanel (k : KeyId) : PanelId := ⟨k.val / 32, by omega⟩

/-- The number of key k on its panel. -/
def keyNumber (k : KeyId) : Fin 32 := ⟨k.val % 32, by omega⟩

/-- Key n of panel p in the KEY table: p × 32 + n. -/
def keyIndex (p : PanelId) (n : Fin 32) : KeyId := ⟨p.val * 32 + n.val, by omega⟩

/-- The 32 keys of panel p, ascending. -/
def panelKeys (p : PanelId) : List KeyId := (allOf 32).map (keyIndex p)

/-- A key's target read as a station (R108). -/
def asStation (t : Fin 256) : Option StationId := indexIn 192 t.val

/-- A key's target read as a party (R108). -/
def asParty (t : Fin 256) : Option PartyId := indexIn 16 t.val

/-! ## Counters and level codes -/

/-- A saturating count (00_scope.md, "Numbers and units"): one more, stopping at the top. -/
def satInc (top n : Nat) : Nat := if n < top then n + 1 else n

/-- A saturating count raised by k. -/
def satAdd (top n k : Nat) : Nat := min top (n + k)

/-- R31, R82: a level code above 159 is stored as 159. -/
def clampLevel (v : Nat) : Level := ⟨min v 159, by omega⟩

/-- R61: a level handed to the store is kept in 1..159. -/
def storeLevel (l : Level) : Level := if l.val = 0 then 1 else l

/-! ## Timers (R98): a running timer holds the sample instant of its expiry -/

/-- The instant `n` sample instants after the running one. -/
def State.after (s : State) (n : Nat) : Count := s.timing.sample + BitVec.ofNat 32 n

/-- Sample instants in t ms (R98). -/
def ofMs (t : Nat) : Nat := 48 * t

/-- R98: whether a timer that expires at the instant t expires at the running one. -/
def State.due (s : State) (t : Count) : Bool := s.timing.sample == t

/-- Whether a timer is running and due. -/
def State.timerDue (s : State) (t : Option Count) : Bool :=
  match t with
  | some e => s.due e
  | none => false

/-! ## Bytes (2.10: multi-byte numbers high byte first) -/

/-- Byte i of a list, 0 beyond its end (R23: body bytes beyond the length are read as zero). -/
def byteAt (l : List Byte) (i : Nat) : Byte := l.getD i 0

/-- The two bytes at i, high byte first. -/
def u16At (l : List Byte) (i : Nat) : BitVec 16 := byteAt l i ++ byteAt l (i + 1)

/-- The four bytes at i, high byte first. -/
def u32At (l : List Byte) (i : Nat) : BitVec 32 := u16At l i ++ u16At l (i + 2)

/-- A number from its bytes, high byte first. -/
def natOfBytes (l : List Byte) : Nat := l.foldl (fun n b => n * 256 + b.toNat) 0

/-- The low w bytes of a number, high byte first. -/
def bytesOfNat (w v : Nat) : List Byte := (List.range w).map fun i => BitVec.ofNat 8 (v / 256 ^ (w - 1 - i))

/-- A signed number in two's complement, w bytes, high byte first. -/
def bytesOfInt (w : Nat) (v : Int) : List Byte := bytesOfNat w (v % (256 ^ w : Nat)).toNat

/-- The n bytes of a list from i on, zeros where it is too short. -/
def slice (l : List Byte) (i n : Nat) : List Byte := (List.range n).map fun j => byteAt l (i + j)

/-! ## Cell bodies: a byte the layout gives, or none where it gives none -/

/-- Bytes whose value the layout states. -/
def stated (l : List Byte) : List (Option Byte) := l.map some

/-- n bytes the layout does not state. -/
def unstated (n : Nat) : List (Option Byte) := List.replicate n none

/-- A 28-byte cell body: the stated bytes, and a free value for each byte that is not stated (notes/assumptions/6.md). -/
def sealBody (draw : Nat) (b : List (Option Byte)) : List Byte :=
  (List.range 28).map fun i =>
    match b.getD i none with
    | some x => x
    | none => Config.freeCellByte draw i

/-- One more free value has been drawn. -/
def State.drawn (s : State) : State := { s with draws := s.draws + 1 }

end Sys2Proof.Machine
end

