-- ==== Sys2Proof/Machine/Flags.lean ====
section
/-! DEFINITION. Machine/Flags.lean: the event unit (spec/12): raising a kind, its notice, and the alarm line. -/

namespace Sys2Proof.Machine

/-- The number of an event kind (R44). -/
def EventKind.number : EventKind → Fin 15
  | .started => 0 | .portDown => 1 | .portUp => 2 | .frameError => 3 | .slip => 4 | .cellOverflow => 5
  | .referenceLost => 6 | .clip => 7 | .grantRefused => 8 | .panelOffline => 9 | .panelOnline => 10
  | .fieldDegraded => 11 | .fieldNormal => 12 | .probeLost => 13 | .returnSilent => 14

/-- The fifteen kinds in the order of their numbers. -/
def allKinds : List EventKind :=
  [.started, .portDown, .portUp, .frameError, .slip, .cellOverflow, .referenceLost, .clip, .grantRefused,
    .panelOffline, .panelOnline, .fieldDegraded, .fieldNormal, .probeLost, .returnSilent]

/-- Record of event kind k (R194). -/
def State.event (s : State) (k : EventKind) : Event := tget s.events k.number

/-- Replace the record of event kind k. -/
def State.setEvent (s : State) (k : EventKind) (r : Event) : State := { s with events := tset s.events k.number r }

/-- R195: what a raise does to its kind's record. -/
def Event.raised (r : Event) (inst : Option Nat) : Event :=
  { r with isSet := true, count := satInc 255 r.count, inst := inst }

/-- R196: whether the record's route includes NOTICE. -/
def EventRoute.notices : EventRoute → Bool
  | .notice => true | .alarm => false | .both => true

/-- R197: whether the record's route includes the alarm line. -/
def EventRoute.alarms : EventRoute → Bool
  | .notice => false | .alarm => true | .both => true

/-- The period number a notice built now carries (R24): the period counter; during a period boundary the period that
ends or the one that begins, which the spec leaves open (notes/assumptions/7.md). -/
def State.noticePeriod (s : State) : Count :=
  if s.timing.atBoundary then s.timing.period + (Config.freeBoundaryBit s.draws).setWidth 32 else s.timing.period

/-- R196, R24: offer a notice to the notice queue; at a full queue it is discarded. -/
def State.offerNotice (s : State) (n : Notice) : State :=
  if s.notices.length < Config.noticeCap then { s with notices := s.notices ++ [n] } else s

/-- R195, R196: a block raises kind k with an instance (none for STARTED and REFERENCE_LOST). -/
def raise (k : EventKind) (inst : Option Nat) (s : State) : State :=
  let r := s.event k
  let s' := s.setEvent k (r.raised inst)
  if !r.isSet && r.enable && r.route.notices then
    let s2 := s'.offerNotice { kind := k, inst := inst, period := s.noticePeriod }
    if s.timing.atBoundary then s2.drawn else s2
  else s'

/-- R197: whether one record holds the alarm line active. -/
def Event.alarming (r : Event) : Bool := r.isSet && r.enable && r.route.alarms

/-- R197, R199: ALARM_N is active (pulled low) exactly while some record is set, enabled and routed to the alarm; it is
released while RESET_N is held low. -/
def State.alarmActive (s : State) : Bool :=
  s.phase == .running && allKinds.any fun k => (s.event k).alarming

/-- R198: STATUS_CLEAR of one kind; enable and route are kept. -/
def Event.cleared (r : Event) : Event := { r with isSet := false, count := 0, inst := none }

end Sys2Proof.Machine
end

