-- ==== Sys2Proof/Machine/Field.lean ====
section
/-! DEFINITION. Machine/Field.lean: the field supervisor (spec/09): probes, echoes, the estimate, silence, link loss. -/

namespace Sys2Proof.Machine

/-- R157: a circuit's port, that of its reporter station's destination. -/
def State.circuitPort (s : State) (c : CircuitId) : Option PortId :=
  (s.station (s.circuit c).reporter).dest.map portOf

/-- UP or HOLDOVER. -/
def PortState.carries : PortState → Bool
  | .up => true | .holdover => true | .disabled => false | .down => false | .locking => false

/-- Whether a circuit's port is in UP or HOLDOVER. -/
def State.circuitPortUp (s : State) (c : CircuitId) : Bool :=
  match s.circuitPort c with
  | some p => (s.port p).state.carries
  | none => false

/-- R161: the states in which a circuit probes. -/
def CircuitState.probes : CircuitState → Bool
  | .starting => true | .normal => true | .degraded => true | .disabled => false | .linkLost => false

/-- R25: a circuit's waiting probe request is withdrawn. -/
def withdrawProbe (c : CircuitId) (s : State) : State :=
  { s with probeQueues := s.probeQueues.map fun q => q.filter fun x => x != c }

/-- R161: the interval timer of circuit c is started or restarted for the probe interval as it stands. -/
def startInterval (c : CircuitId) (s : State) : State :=
  s.setCircuit c { s.circuit c with intervalTimer := some (s.after (ofMs (s.circuit c).probeInterval)) }

/-- R161: a probe request is placed unless one of the circuit already waits. -/
def requestProbe (c : CircuitId) (s : State) : State :=
  match s.circuitPort c with
  | none => s
  | some p =>
    if (s.probeQueue p).contains c then s else s.setProbeQueue p (s.probeQueue p ++ [c])

/-- R162: the tag after a tag. -/
def nextTag (t : BitVec 15) : BitVec 15 :=
  (t <<< 1) ||| (BitVec.ofBool (t.getLsbD 14 ^^ t.getLsbD 13)).setWidth 15

/-- R167: one probe of circuit c is declared lost. -/
def declareLost (c : CircuitId) (s : State) : State :=
  let r := s.circuit c
  let s' := s.setCircuit c { r with lostInARow := satInc 255 r.lostInARow }
  if r.lostInARow = 2 then raise .probeLost (some c.val) s' else s'

/-- R163, steps 1 to 4: a probe of circuit c departs with sent count `sent`. -/
def departProbe (c : CircuitId) (sent : Count) (s : State) : State :=
  let full := decide (Config.probeCap ≤ (s.circuit c).outstanding.length)
  let s1 := if full then declareLost c s else s
  let r := s1.circuit c
  let left := if full then r.outstanding.drop 1 else r.outstanding
  let tag := nextTag r.tagGenerator
  let p : Probe := { tag := tag, sent := sent, expiresAt := sent + BitVec.ofNat 32 (ofMs r.probeTimeout) }
  s1.setCircuit c { r with tagGenerator := tag, outstanding := left ++ [p] }

/-- R164: an outstanding probe's timeout expires. -/
def timeoutProbe (c : CircuitId) (tag : BitVec 15) (s : State) : State :=
  let s1 := declareLost c s
  let r := s1.circuit c
  s1.setCircuit c { r with outstanding := r.outstanding.filter fun p => p.tag != tag }

/-- R168: the estimate after a measurement. -/
def nextEstimate (e : Option Nat) (m : Nat) : Nat :=
  match e with
  | none => m
  | some e => ((e : Int) + Int.tdiv ((m : Int) - (e : Int)) 8).toNat

/-- R169: the state after an estimate, and the event raised. -/
def reevaluate (st : CircuitState) (e upper lower : Nat) : CircuitState × Option EventKind :=
  match st with
  | .starting => if upper < e then (.degraded, some .fieldDegraded) else (.normal, none)
  | .normal => if upper < e then (.degraded, some .fieldDegraded) else (.normal, none)
  | .degraded => if e < lower then (.normal, some .fieldNormal) else (.degraded, none)
  | .disabled => (.disabled, none)
  | .linkLost => (.linkLost, none)

/-- R166, steps 2 to 6, R168, R169: circuit c is measured at m, and the matched entry, now the oldest, is removed. -/
def measure (c : CircuitId) (m : Nat) (s : State) : State :=
  let r := s.circuit c
  let e := nextEstimate r.estimate m
  let (st, ev) := reevaluate r.state e r.upperLimit r.lowerLimit
  let s1 :=
    s.setCircuit c
      { r with previous := r.last, last := some m, estimate := some e, state := st, lostInARow := 0,
               outstanding := r.outstanding.drop 1 }
  match ev with
  | some k => raise k (some c.val) s1
  | none => s1

/-- R166, step 1: the n oldest outstanding probes are declared lost and removed, oldest first. -/
def loseOldest (c : CircuitId) : Nat → State → State
  | 0, s => s
  | n + 1, s =>
    let s1 := declareLost c s
    let r := s1.circuit c
    loseOldest c n (s1.setCircuit c { r with outstanding := r.outstanding.drop 1 })

/-- R166: an accepted echo with its tag, arriving at sample count `arrival`. -/
def acceptEcho (c : CircuitId) (tag : BitVec 15) (arrival : Count) (s : State) : State :=
  let r := s.circuit c
  match r.outstanding.findIdx? fun p => p.tag == tag with
  | none => s.setCircuit c { r with strayEchoes := satInc 65535 r.strayEchoes }
  | some k =>
    match r.outstanding[k]? with
    | none => s
    | some p => measure c (arrival - p.sent).toNat (loseOldest c k s)

/-- R165: an ECHO cell, by its port, header node, circuit number and tag. A tag above 32767 is no probe's tag, so it
matches no entry. -/
def handleEcho (p : PortId) (node : Byte) (circuit : Byte) (tag : BitVec 16) (arrival : Count) (s : State) : State :=
  match indexIn 16 circuit.toNat with
  | none => s
  | some c =>
    let r := s.circuit c
    if r.state = .disabled ∨ s.circuitPort c ≠ some p ∨ node.toNat ≠ r.gateway.toNat then s
    else if tag.toNat < 32768 then acceptEcho c (tag.setWidth 15) arrival s
    else s.setCircuit c { r with strayEchoes := satInc 65535 r.strayEchoes }

/-- R171: one accepted return frame of circuit c with the peak of its source's slot. -/
def returnFrame (c : CircuitId) (peak : Nat) (s : State) : State :=
  let r := s.circuit c
  if peak < r.silenceThreshold then
    let ms := satInc 65535 r.silentMs
    if !r.silent && decide (r.silenceTime ≤ ms) then
      raise .returnSilent (some c.val) (s.setCircuit c { r with silentMs := ms, silent := true })
    else s.setCircuit c { r with silentMs := ms }
  else s.setCircuit c { r with silentMs := 0, silent := false }

/-- R172: circuit c loses its link. -/
def linkLost (c : CircuitId) (s : State) : State :=
  withdrawProbe c (s.setCircuit c { s.circuit c with state := .linkLost, intervalTimer := none, outstanding := [] })

/-- R172: port p is lost to the supervisor. -/
def fieldPortLost (p : PortId) (s : State) : State :=
  (allOf 16).foldl
    (fun t c => if (t.circuit c).state.probes && t.circuitPort c == some p then linkLost c t else t) s

/-- R173: port p has entered UP: its LINK_LOST circuits enter STARTING. -/
def fieldPortUp (p : PortId) (s : State) : State :=
  (allOf 16).foldl
    (fun t c =>
      if (t.circuit c).state == .linkLost && t.circuitPort c == some p then
        startInterval c
          (t.setCircuit c
            { t.circuit c with state := .starting, estimate := none, last := none, previous := none, lostInARow := 0 })
      else t) s

/-- R174: CLEAR_DYNAMIC at circuit c. -/
def clearCircuit (c : CircuitId) (s : State) : State :=
  let r := s.circuit c
  if r.state = .disabled then s
  else
    let r' := { r with outstanding := [], estimate := none, last := none, previous := none, lostInARow := 0 }
    if s.circuitPortUp c then startInterval c (s.setCircuit c { r' with state := .starting })
    else s.setCircuit c { r' with state := .linkLost, intervalTimer := none }

/-- R174, R24: CLEAR_DYNAMIC at every circuit and every probe queue. -/
def clearField (s : State) : State :=
  (allOf 16).foldl (fun t c => clearCircuit c t) { s with probeQueues := Vector.replicate 4 [] }

/-- R159: the circuit is enabled at its reporter's destination. -/
def enableCircuit (c : CircuitId) (d : DestId) (s : State) : State :=
  let s1 := s.setDest d { s.dest d with circuit := some c }
  let r :=
    { s1.circuit c with
        tagGenerator := BitVec.ofNat 15 (c.val + 1), estimate := none, last := none, previous := none,
        outstanding := [], lostInARow := 0, strayEchoes := 0, silentMs := 0, silent := false }
  if s1.circuitPortUp c then startInterval c (s1.setCircuit c { r with state := .starting })
  else s1.setCircuit c { r with state := .linkLost, intervalTimer := none }

/-- R160: the circuit is disabled. -/
def disableCircuit (c : CircuitId) (s : State) : State :=
  let r := s.circuit c
  let s1 :=
    match (s.station r.reporter).dest with
    | some d => s.setDest d { s.dest d with circuit := none }
    | none => s
  withdrawProbe c
    (s1.setCircuit c
      { r with state := .disabled, intervalTimer := none, outstanding := [], estimate := none, last := none,
               previous := none, lostInARow := 0, strayEchoes := 0, silentMs := 0, silent := false,
               tagGenerator := BitVec.ofNat 15 (c.val + 1) })

end Sys2Proof.Machine
end

