-- ==== Sys2Proof/Machine/Lamps.lean ====
section
/-! DEFINITION. Machine/Lamps.lean: the lamp unit (spec/11): deriving a lamp, the hand-offs that re-derive keys, and the
pending sets.

R189 has each key's pending membership reflect its state after the last hand-off of one event. A hand-off therefore puts
the keys concerned on `lampDirty`, and `flushLamps` derives them when the event's handling ends (notes/assumptions/8.md). -/

namespace Sys2Proof.Machine

/-- The on states of a key (R108). -/
def KeyState.isOn : KeyState → Bool
  | .pressed => true | .momentaryOn => true | .latched => true
  | .idle => false | .unlatching => false | .refusedHeld => false

/-- The entry of the pair src → d, if it exists (R62). -/
def State.findEntry (s : State) (src : SourceId) (d : DestId) : Option Entry :=
  (s.entriesOf d).find? fun e => e.source == src

/-- The own station of key k: that of its panel. -/
def State.ownStation (s : State) (k : KeyId) : StationId := (s.panel (keyPanel k)).ownStation

/-- The source of key k's own station. -/
def State.ownSource (s : State) (k : KeyId) : Option SourceId := (s.station (s.ownStation k)).source

/-- The destination of key k's own station. -/
def State.ownDest (s : State) (k : KeyId) : Option DestId := (s.station (s.ownStation k)).dest

/-- Whether a function's target names a station (R108). -/
def KeyFunction.targetsStation : KeyFunction → Bool
  | .talkStation => true | .listenStation => true | .callStation => true
  | .unassigned => false | .talkParty => false | .ifb => false | .reply => false

/-- Whether a function's lamp depends on a grant-held entry (R186, condition 5). -/
def KeyFunction.talksOrListens : KeyFunction → Bool
  | .talkStation => true | .listenStation => true
  | .unassigned => false | .talkParty => false | .ifb => false | .callStation => false | .reply => false

/-- The target station of a key whose function names a station. -/
def Key.targetStation (r : Key) : Option StationId :=
  if r.function.targetsStation then r.target.bind asStation else none

/-- The target party of a TALK_PARTY key. -/
def Key.targetParty (r : Key) : Option PartyId :=
  if r.function = .talkParty then r.target.bind asParty else none

/-- The member of a party that station t is, if it is one. -/
def Party.find (r : Party) (t : StationId) : Option Member := r.members.find? fun m => m.station == t

/-- R187: whether the action of key k, in an on state, is active. -/
def State.actionActive (s : State) (k : KeyId) : Bool :=
  let r := s.key k
  match r.function with
  | .talkStation | .listenStation | .reply | .callStation => true
  | .ifb => r.standing == .current
  | .talkParty =>
    match r.targetParty with
    | some p => ((s.party p).find (s.ownStation k)).any fun m => m.talk
    | none => false
  | .unassigned => false

/-- R186, condition 4. -/
def State.calledLamp (s : State) (k : KeyId) : Bool :=
  let r := s.key k
  let l := (s.panel (keyPanel k)).replyList
  match r.function with
  | .reply => !l.isEmpty
  | .talkStation | .callStation => r.targetStation.any fun t => l.any fun e => e.station == t
  | .unassigned | .listenStation | .talkParty | .ifb => false

/-- R186, condition 5: the target station's source is granted into the own station's destination. -/
def State.talkedToLamp (s : State) (k : KeyId) : Bool :=
  let r := s.key k
  r.function.talksOrListens &&
    match r.targetStation, s.ownDest k with
    | some t, some d =>
      match (s.station t).source with
      | some src => (s.findEntry src d).any fun e => e.state == .active && !e.grants.isEmpty
      | none => false
    | _, _ => false

/-- R186: the lamp of key k; the first condition that holds. A key whose function is NONE meets none
(notes/assumptions/9.md). -/
def State.deriveLamp (s : State) (k : KeyId) : LampState :=
  let r := s.key k
  if r.function = .unassigned then .off
  else if r.winkTimer.isSome then .wink
  else if r.standing = .waiting then .flashBusy
  else if r.state.isOn && s.actionActive k then .on
  else if s.calledLamp k then .flashCall
  else if s.talkedToLamp k then .dim
  else .off

/-! ## Pending sets (R188) -/

/-- The pending set with key n of the panel in it. -/
def withLamp (pending : BitVec 32) (n : Fin 32) : BitVec 32 := pending ||| (1#32 <<< n.val)

/-- The pending set without key n of the panel. -/
def withoutLamp (pending : BitVec 32) (n : Fin 32) : BitVec 32 := pending &&& ~~~(1#32 <<< n.val)

/-- R188: derive key k and place it in its panel's pending set if it differs from its last-sent lamp. -/
def markLamp (k : KeyId) (s : State) : State :=
  if s.deriveLamp k = (s.key k).lastLamp then s
  else
    let p := keyPanel k
    s.setPanel p { s.panel p with lampPending := withLamp (s.panel p).lampPending (keyNumber k) }

/-- The handling of one event ends: every key handed to the lamp unit is derived. -/
def flushLamps (s : State) : State :=
  { s.lampDirty.foldl (fun t k => markLamp k t) s with lampDirty := [] }

/-! ## Hand-offs (R189) -/

/-- Hand keys to the lamp unit. -/
def handKeys (l : List KeyId) (s : State) : State := { s with lampDirty := s.lampDirty ++ l }

/-- A key's own state, standing, wink timer, resolved station, function or target changed. -/
def handKey (k : KeyId) (s : State) : State := handKeys [k] s

/-- A panel's own station was written. -/
def handPanel (p : PanelId) (s : State) : State := handKeys (panelKeys p) s

/-- The configured panels. -/
def State.configuredPanels (s : State) : List PanelId := (allOf 48).filter fun p => (s.panel p).configured

/-- Entry src → d was created, removed, changed state, or gained or lost a grant holder. -/
def handEntry (src : SourceId) (d : DestId) (s : State) : State :=
  handKeys
    ((s.configuredPanels.filter fun p => (s.station (s.panel p).ownStation).dest == some d).flatMap fun p =>
      (panelKeys p).filter fun k =>
        (s.key k).function.talksOrListens &&
          (s.key k).targetStation.any fun t => (s.station t).source == some src)
    s

/-- Station t's talk flag in party p changed. -/
def handTalk (p : PartyId) (t : StationId) (s : State) : State :=
  handKeys
    ((s.configuredPanels.filter fun q => (s.panel q).ownStation == t).flatMap fun q =>
      (panelKeys q).filter fun k => (s.key k).targetParty == some p)
    s

/-- Panel q's reply list changed. -/
def handReply (q : PanelId) (s : State) : State :=
  handKeys
    ((panelKeys q).filter fun k =>
      match (s.key k).function with
      | .reply | .talkStation | .callStation => true
      | .unassigned | .listenStation | .talkParty | .ifb => false)
    s

/-- Station t was written. -/
def handStation (t : StationId) (s : State) : State :=
  handKeys
    (((allOf 1536).filter fun k => (s.key k).targetStation == some t) ++
      ((allOf 48).filter fun p => (s.panel p).ownStation == t).flatMap panelKeys)
    s

/-- CLEAR_DYNAMIC: every key of every configured panel. -/
def handAll (s : State) : State := handKeys (s.configuredPanels.flatMap panelKeys) s

end Sys2Proof.Machine
end

