-- ==== Sys2Proof/Machine/Store.lean ====
section
/-! DEFINITION. Machine/Store.lean: the crosspoint store (spec/04, 4.1 to 4.4): holders arriving and departing, limits. -/

namespace Sys2Proof.Machine

/-- A holder of a crosspoint entry (R63). -/
inductive Holder where
  | static | grant (k : KeyId) | party (p : PartyId) | tap (t : TapId)
  deriving DecidableEq, Repr

/-- Whether the entry records the holder (R63). -/
def Entry.holds (e : Entry) : Holder → Bool
  | .static => e.static
  | .grant k => e.grants.contains k
  | .party p => e.parties.contains p
  | .tap t => e.taps.contains t

/-- The entry with the holder recorded; a grant is appended to the grant holder list (R63). -/
def Entry.withHolder (e : Entry) : Holder → Entry
  | .static => { e with static := true }
  | .grant k => { e with grants := e.grants ++ [k] }
  | .party p => { e with parties := e.parties ++ [p] }
  | .tap t => { e with taps := e.taps ++ [t] }

/-- The entry with the holder taken out (R63, R66). -/
def Entry.withoutHolder (e : Entry) : Holder → Entry
  | .static => { e with static := false }
  | .grant k => { e with grants := e.grants.filter fun j => j != k }
  | .party p => { e with parties := e.parties.filter fun j => j != p }
  | .tap t => { e with taps := e.taps.filter fun j => j != t }

/-- Whether the entry has any holder (R64). -/
def Entry.held (e : Entry) : Bool := e.static || !e.grants.isEmpty || !e.parties.isEmpty || !e.taps.isEmpty

/-- Whether the holder is a grant, whose arrivals and departures are handed to the lamp unit (R80). -/
def Holder.isGrant : Holder → Bool
  | .grant _ => true | .static => false | .party _ => false | .tap _ => false

/-- Write the entry of the pair src → d, which keeps its place in the list (R62). -/
def State.mapEntry (s : State) (src : SourceId) (d : DestId) (f : Entry → Entry) : State :=
  s.setEntries d ((s.entriesOf d).map fun e => if e.source == src then f e else e)

/-! ## Limits -/

/-- R176: whether number n matches a base and a mask: equal in every bit clear in the mask. -/
def tapMatches (base mask : BitVec 8) (n : Fin 256) : Bool :=
  (BitVec.ofNat 8 n.val ^^^ base) &&& ~~~mask == 0

/-- R176: the matched set of a tap, ascending. -/
def Tap.matched (r : Tap) : List (Fin 256) := (allOf 256).filter fun n => tapMatches r.base r.mask n

/-- The enabled DESTINATION-side taps whose monitor destination is d, ascending (R71, R89). -/
def State.feedingTaps (s : State) (d : DestId) : List TapId :=
  (allOf 8).filter fun t => (s.tap t).enabled && (s.tap t).side == .destination && (s.tap t).monitor == d

/-- R71: the contribution count of destination d. -/
def State.contributionCount (s : State) (d : DestId) : Nat :=
  (s.entriesOf d).length + ((s.feedingTaps d).map fun t => (s.tap t).matched.length).sum

/-- R71: the number of entries in the store. -/
def State.storeCount (s : State) : Nat := (s.entries.toList.map List.length).sum

/-- R72: whether n more entries on destination d would keep both limits. -/
def State.hasRoom (s : State) (d : DestId) (n : Nat) : Bool :=
  decide (s.contributionCount d + n ≤ Config.contributionCap) && decide (s.storeCount + n ≤ Config.storeCap)

/-! ## Arrival and departure -/

/-- A new entry of the pair, ACTIVE, with one holder and applied factor 0 (R61, R65). -/
def newEntry (h : Holder) (level : Level) (cls : EntryClass) (src : SourceId) (d : DestId) (serial : Nat) : Entry :=
  Entry.withHolder
    { source := src, dest := d, level := storeLevel level, cls := cls, state := .active, static := false, grants := [],
      parties := [], taps := [], applied := 0, serial := serial } h

/-- The store appends a new entry at the tail of its destination's list (R62). -/
def createEntry (h : Holder) (level : Level) (cls : EntryClass) (src : SourceId) (d : DestId) (s : State) : State :=
  handEntry src d
    { s.setEntries d (s.entriesOf d ++ [newEntry h level cls src d s.nextSerial]) with nextSerial := s.nextSerial + 1 }

/-- What an arrival makes of an existing entry (R65): the holder is recorded, a RELEASING entry becomes ACTIVE, and a
static holder overwrites level and class. -/
def Entry.joined (e : Entry) (h : Holder) (level : Level) (cls : EntryClass) : Entry :=
  let e' := { e.withHolder h with state := .active }
  match h with
  | .static => { e' with level := storeLevel level, cls := cls }
  | .grant _ | .party _ | .tap _ => e'

/-- R65, R67: a holder arrives on the pair src → d, with the creator's level and class. The answer is true for OK and
false for FULL. -/
def arrive (h : Holder) (level : Level) (cls : EntryClass) (src : SourceId) (d : DestId) (s : State) : State × Bool :=
  match s.findEntry src d with
  | none => if s.hasRoom d 1 then (createEntry h level cls src d s, true) else (s, false)
  | some e =>
    if e.holds h then (s, true)
    else if h.isGrant && decide (Config.grantCap ≤ e.grants.length) then (s, false)
    else
      let s' := s.mapEntry src d fun e => e.joined h level cls
      (if h.isGrant || e.state == .releasing then handEntry src d s' else s', true)

/-- What a departure makes of an entry (R66). -/
def Entry.left (e : Entry) (h : Holder) : Entry :=
  let e' := e.withoutHolder h
  if e'.held then e' else { e' with state := .releasing }

/-- R66: a holder departs from the pair src → d. -/
def depart (h : Holder) (src : SourceId) (d : DestId) (s : State) : State :=
  match s.findEntry src d with
  | none => s
  | some e =>
    if e.holds h then
      let s' := s.mapEntry src d fun e => e.left h
      if h.isGrant || (e.left h).state == .releasing then handEntry src d s' else s'
    else s

/-- R67, R182: write a level into the entry of the pair, in R61's range. -/
def writeEntryLevel (level : Level) (src : SourceId) (d : DestId) (s : State) : State :=
  s.mapEntry src d fun e => { e with level := storeLevel level }

/-- R67: the grant of key k on a pair, at the key's talk level, class TALK. -/
def requestGrant (k : KeyId) (src : SourceId) (d : DestId) (s : State) : State × Bool :=
  arrive (.grant k) (s.key k).talkLevel .talk src d s

/-- R78: what CLEAR_DYNAMIC leaves of an entry. -/
def Entry.cleared (e : Entry) : Entry :=
  let e' := { e with grants := [], parties := [] }
  if e'.held then e' else { e' with state := .releasing }

/-- R78: CLEAR_DYNAMIC removes every grant holder and party holder. -/
def clearStore (s : State) : State := { s with entries := s.entries.map fun l => l.map Entry.cleared }

end Sys2Proof.Machine
end

