-- ==== Sys2Proof/Machine/Arbiters.lean ====
section
/-! DEFINITION. Machine/Arbiters.lean: interrupted foldback (spec/08): requests, pre-emption, the waiting list, handover. -/

namespace Sys2Proof.Machine

/-- The wink time in ms (R98, R114). -/
def winkMs : Nat := 2000

/-- The wink timer of key k is started, or restarted (R114). -/
def startWink (k : KeyId) (s : State) : State :=
  handKey k (s.setKey k { s.key k with winkTimer := some (s.after (ofMs winkMs)) })

/-- R143: the standing of key k is written and handed to the lamp unit. -/
def setStanding (k : KeyId) (st : Standing) (s : State) : State :=
  handKey k (s.setKey k { s.key k with standing := st })

/-- R148, R114: a key dropped from outside its press: standing NONE, wink started, latch window stopped, REFUSED_HELD if
it is physically down and IDLE if not. -/
def dropKey (k : KeyId) (s : State) : State :=
  let s1 := startWink k (setStanding k .outside s)
  let r := s1.key k
  handKey k (s1.setKey k { r with latchTimer := none, state := if r.down then .refusedHeld else .idle })

/-- R142, R146: a key's place in the waiting list by rank: a HIGH key after every HIGH key and before every LOW key, a
LOW key at the tail. -/
def insertByRank (w : Waiter) (l : List Waiter) : List Waiter :=
  if w.high then l.takeWhile (fun x => x.high) ++ w :: l.dropWhile (fun x => x.high) else l ++ [w]

/-- R147, step 4: a pre-empted LOW key stands after every HIGH key and before every LOW key. -/
def insertPreempted (k : KeyId) (l : List Waiter) : List Waiter :=
  l.takeWhile (fun x => x.high) ++ { key := k, high := false } :: l.dropWhile (fun x => x.high)

/-- R146, R148: the arbiter of d takes a waiting list that may hold five keys, `k` being the key placed in it. With five,
the last is dropped. The answer is false when the key dropped is `requester`: its press is refused. -/
def takeWaiting (d : DestId) (l : List Waiter) (k : KeyId) (requester : Option KeyId) (s : State) : State × Bool :=
  if l.length ≤ Config.waitingCap then
    (setStanding k .waiting (s.setArbiter d { s.arbiter d with waiting := l }), true)
  else
    let kept := l.take Config.waitingCap
    let s1 := s.setArbiter d { s.arbiter d with waiting := kept }
    match l.getLast? with
    | none => (s1, true)
    | some w =>
      if requester = some w.key then (s1, false)
      else
        let s2 := if w.key = k then s1 else setStanding k .waiting s1
        (dropKey w.key s2, true)

/-- R146: a request is placed in the waiting list by rank. -/
def placeWaiting (k : KeyId) (d : DestId) (high : Bool) (s : State) : State × Bool :=
  takeWaiting d (insertByRank { key := k, high := high } (s.arbiter d).waiting) k (some k) s

/-- The key becomes current with standing CURRENT (R143, R145). -/
def makeCurrent (k : KeyId) (d : DestId) (s : State) : State :=
  setStanding k .current (s.setArbiter d { s.arbiter d with current := some k })

/-- R147, steps 3 to 5: the pre-empted key's grant departs and the key waits. -/
def preempt (old : KeyId) (d : DestId) (s : State) : State :=
  let s1 :=
    match s.ownSource old with
    | some src => depart (.grant old) src d s
    | none => s
  (takeWaiting d (insertPreempted old (s1.arbiter d).waiting) old none s1).1

/-- R145 to R147: a request of key k, from source src, reaches the arbiter of destination d. The answer is true for
granted (current or waiting) and false for refused. -/
def requestArbiter (k : KeyId) (src : SourceId) (d : DestId) (s : State) : State × Bool :=
  let high := (s.key k).priority == .high
  match (s.arbiter d).current with
  | none =>
    let (s1, ok) := requestGrant k src d s
    if ok then (makeCurrent k d s1, true) else (raise .grantRefused (some d.val) s1, false)
  | some c =>
    if high && (s.key c).priority == .low then
      let (s1, ok) := requestGrant k src d s
      if ok then (preempt c d (makeCurrent k d s1), true)
      else placeWaiting k d high (raise .grantRefused (some d.val) s1)
    else placeWaiting k d high s

/-- R149, steps 2 and 3: with no current key left, the head of the waiting list is promoted; a head refused for room is
dropped and the next one tried. (A waiting key's own station has a source, since R144 checked it and R59 fixes it; a
head without one is dropped.) -/
def promote (d : DestId) : List Waiter → State → State
  | [], s => s.setArbiter d { current := none, waiting := [] }
  | w :: ws, s =>
    match s.ownSource w.key with
    | none => promote d ws (dropKey w.key s)
    | some src =>
      let (s1, ok) := requestGrant w.key src d s
      if ok then
        setStanding w.key .current (s1.setArbiter d { current := some w.key, waiting := ws })
      else promote d ws (dropKey w.key (raise .grantRefused (some d.val) s1))

/-- R149: the current key leaves: its grant departs, its standing becomes NONE, and the ear is handed over. -/
def currentLeaves (k : KeyId) (d : DestId) (s : State) : State :=
  let s1 :=
    match s.ownSource k with
    | some src => depart (.grant k) src d s
    | none => s
  let s2 := setStanding k .outside s1
  promote d (s2.arbiter d).waiting s2

/-- R150: a waiting key leaves the list; the keys behind it close up. -/
def waitingLeaves (k : KeyId) (d : DestId) (s : State) : State :=
  setStanding k .outside
    (s.setArbiter d { s.arbiter d with waiting := (s.arbiter d).waiting.filter fun w => w.key != k })

/-- R115: an IFB key's standing is withdrawn from its arbiter. -/
def leaveArbiter (k : KeyId) (s : State) : State :=
  match (s.key k).target with
  | none => s
  | some d =>
    if (s.arbiter d).current = some k then currentLeaves k d s
    else if (s.arbiter d).waiting.any fun w => w.key == k then waitingLeaves k d s
    else s

/-- R154: every arbiter is emptied by CLEAR_DYNAMIC. -/
def clearArbiters (s : State) : State := { s with arbiters := s.arbiters.map fun _ => Arbiter.empty }

end Sys2Proof.Machine
end

