-- ==== Sys2Proof/Machine/Parties.lean ====
section
/-! DEFINITION. Machine/Parties.lean: parties (spec/07, 7.1 to 7.4), the reply lists (7.5), and the conditions under which
a station is in use (R59). -/

namespace Sys2Proof.Machine

/-- A member pair that satisfies R126, and the pair of source and destination it gives. -/
structure MemberPair where
  talker : StationId
  listener : StationId
  source : SourceId
  dest : DestId
  deriving DecidableEq, Repr

/-- R126: the member pairs of a party record that satisfy the rule, in member order: by the position of the talking
member first, then by that of the listening member. -/
def State.satisfied (s : State) (r : Party) : List MemberPair :=
  if r.enabled then
    r.members.flatMap fun a =>
      match (s.station a.station).source with
      | some src =>
        if a.talk then
          r.members.filterMap fun b =>
            match (s.station b.station).dest with
            | some d =>
              if b.listen && a.station != b.station then
                some { talker := a.station, listener := b.station, source := src, dest := d }
              else none
            | none => none
        else []
      | none => []
  else []

/-- R127: party p's holder is withdrawn from each pair of the list. -/
def withdrawPairs (p : PartyId) (l : List MemberPair) (s : State) : State :=
  l.foldl (fun t x => depart (.party p) x.source x.dest t) s

/-- R128: one request of party p; a pair refused FULL is skipped and GRANT_REFUSED raised. -/
def requestPair (p : PartyId) (level : Level) (s : State) (x : MemberPair) : State :=
  let (s1, ok) := arrive (.party p) level .talk x.source x.dest s
  if ok then s1 else raise .grantRefused (some x.dest.val) s1

/-- R126 to R128: party p's record becomes r. Pairs no longer wanted are withdrawn first, in member order; then each
member pair newly satisfied is requested, in member order. -/
def changeParty (p : PartyId) (r : Party) (s : State) : State :=
  let before := s.satisfied (s.party p)
  let now := s.satisfied r
  let gone := before.filter fun x => !now.any fun y => y.source == x.source && y.dest == x.dest
  let fresh := now.filter fun x => !before.any fun y => y.talker == x.talker && y.listener == x.listener
  fresh.foldl (requestPair p r.level) (withdrawPairs p gone (s.setParty p r))

/-- The party's record with a member rewritten; the member keeps its place (R125). -/
def Party.mapMember (r : Party) (t : StationId) (f : Member → Member) : Party :=
  { r with members := r.members.map fun m => if m.station == t then f m else m }

/-- R133 to R135: the talk flag of station t in party p takes a value. -/
def setTalk (p : PartyId) (t : StationId) (on : Bool) (s : State) : State :=
  match (s.party p).find t with
  | none => s
  | some m =>
    if m.talk = on then s
    else handTalk p t (changeParty p ((s.party p).mapMember t fun m => { m with talk := on }) s)

/-- R125: the number of parties station t is a member of. -/
def State.membershipCount (s : State) (t : StationId) : Nat :=
  ((allOf 16).filter fun p => ((s.party p).find t).isSome).length

/-- R133: a TALK_PARTY press of key k. -/
def acquireTalk (k : KeyId) (s : State) : State × Bool :=
  match (s.key k).targetParty with
  | none => (s, false)
  | some p =>
    if ((s.party p).find (s.ownStation k)).isSome && (s.ownSource k).isSome then
      (setTalk p (s.ownStation k) true s, true)
    else (s, false)

/-- R134: another TALK_PARTY key in an on state holds the same member's talk. -/
def State.talkHeldElsewhere (s : State) (k : KeyId) (p : PartyId) : Bool :=
  (allOf 48).any fun q =>
    (s.panel q).ownStation == s.ownStation k &&
      (panelKeys q).any fun j => j != k && (s.key j).state.isOn && (s.key j).targetParty == some p

/-- R134: a TALK_PARTY key gives up its action. -/
def surrenderTalk (k : KeyId) (s : State) : State :=
  match (s.key k).targetParty with
  | none => s
  | some p => if s.talkHeldElsewhere k p then s else setTalk p (s.ownStation k) false s

/-- R140: CLEAR_DYNAMIC clears every member's talk flag; the party holders are removed by the store itself (R78). -/
def clearTalk (s : State) : State :=
  { s with parties := s.parties.map fun r => { r with members := r.members.map fun m => { m with talk := false } } }

/-! ## Reply lists -/

/-- R136: the list with station t's entry taken out. -/
def withoutCaller (l : List ReplyEntry) (t : StationId) : List ReplyEntry := l.filter fun e => e.station != t

/-- R137: caller c is placed at the head of panel q's reply list with a fresh timer; if c was not in a full list, the
entry at the tail is dropped. -/
def placeCall (c : StationId) (q : PanelId) (s : State) : State :=
  let r := s.panel q
  let e : ReplyEntry := { station := c, expiresAt := s.after (ofMs (1000 * r.replyExpiry)) }
  handReply q (s.setPanel q { r with replyList := (e :: withoutCaller r.replyList c).take Config.replyListCap })

/-- R137: the receiving panels of a call: every configured panel other than q whose own station is t, ascending. -/
def State.receivers (s : State) (q : PanelId) (t : StationId) : List PanelId :=
  s.configuredPanels.filter fun x => x != q && (s.panel x).ownStation == t

/-- R137: a CALL_STATION press of key k. -/
def acquireCall (k : KeyId) (s : State) : State × Bool :=
  match (s.key k).targetStation with
  | none => (s, false)
  | some t =>
    let c := s.ownStation k
    let l := s.receivers (keyPanel k) t
    if t = c ∨ l = [] then (s, false) else (l.foldl (fun s q => placeCall c q s) s, true)

/-- R139, R138: station t's entry leaves panel q's reply list, and its timer stops. -/
def removeCaller (q : PanelId) (t : StationId) (s : State) : State :=
  handReply q (s.setPanel q { s.panel q with replyList := withoutCaller (s.panel q).replyList t })

/-- R140: a panel's reply list is emptied with its timers. -/
def emptyReplyList (q : PanelId) (s : State) : State := handReply q (s.setPanel q { s.panel q with replyList := [] })

/-- R140: CLEAR_DYNAMIC empties every reply list. -/
def clearReplyLists (s : State) : State := { s with panels := s.panels.map fun r => { r with replyList := [] } }

/-! ## Stations in use -/

/-- The station that a key in an on state keeps in use as its target (R59). -/
def Key.stationUsed (r : Key) : Option StationId :=
  match r.function with
  | .reply => r.resolved
  | .talkStation | .listenStation | .callStation => r.targetStation
  | .unassigned | .talkParty | .ifb => none

/-- R59: whether station t is in use. -/
def State.stationInUse (s : State) (t : StationId) : Bool :=
  (allOf 16).any (fun p => ((s.party p).find t).isSome) ||
    (allOf 1536).any (fun k =>
      (s.key k).state.isOn && (s.ownStation k == t || (s.key k).stationUsed == some t)) ||
    (allOf 16).any fun c => (s.circuit c).state != .disabled && (s.circuit c).reporter == t

end Sys2Proof.Machine
end

