-- ==== Sys2Proof/Machine/KeyUnit.lean ====
section
/-! DEFINITION. Machine/KeyUnit.lean: the key unit (spec/06): what a press acquires and a key gives up, the key state
machine, panel presence and loss, and the encoders. -/

namespace Sys2Proof.Machine

/-! ## Acquiring and giving up (R115 to R119) -/

/-- R117: a grant on the pair src → d; a FULL answer raises GRANT_REFUSED for d. A missing side refuses the press. -/
def acquireGrant (k : KeyId) (src : Option SourceId) (d : Option DestId) (s : State) : State × Bool :=
  match src, d with
  | some a, some b =>
    let (s1, ok) := requestGrant k a b s
    if ok then (s1, true) else (raise .grantRefused (some b.val) s1, false)
  | _, _ => (s, false)

/-- The pair of a TALK_STATION key towards station t: own station's source → t's destination. -/
def State.talkPair (s : State) (k : KeyId) (t : StationId) : Option SourceId × Option DestId :=
  (s.ownSource k, (s.station t).dest)

/-- The pair of a LISTEN_STATION key: station t's source → own station's destination. -/
def State.listenPair (s : State) (k : KeyId) (t : StationId) : Option SourceId × Option DestId :=
  ((s.station t).source, s.ownDest k)

/-- R118: a REPLY press takes the head of its panel's reply list, which leaves the list, and talks to that station. -/
def acquireReply (k : KeyId) (s : State) : State × Bool :=
  match (s.panel (keyPanel k)).replyList with
  | [] => (s, false)
  | e :: _ =>
    let s1 := removeCaller (keyPanel k) e.station s
    let pair := s1.talkPair k e.station
    let (s2, ok) := acquireGrant k pair.1 pair.2 s1
    if ok then (handKey k (s2.setKey k { s2.key k with resolved := some e.station }), true) else (s2, false)

/-- R144: an IFB press is checked and handed to its target's arbiter. -/
def acquireIfb (k : KeyId) (s : State) : State × Bool :=
  match (s.key k).target, s.ownSource k with
  | some d, some src => if (s.dest d).kind = .ifb then requestArbiter k src d s else (s, false)
  | _, _ => (s, false)

/-- R116: a press from IDLE acquires the action of the key's function; true is granted. -/
def acquire (k : KeyId) (s : State) : State × Bool :=
  match (s.key k).function with
  | .unassigned => (s, false)
  | .talkStation =>
    match (s.key k).targetStation with
    | some t => acquireGrant k (s.talkPair k t).1 (s.talkPair k t).2 s
    | none => (s, false)
  | .listenStation =>
    match (s.key k).targetStation with
    | some t => acquireGrant k (s.listenPair k t).1 (s.listenPair k t).2 s
    | none => (s, false)
  | .talkParty => acquireTalk k s
  | .ifb => acquireIfb k s
  | .callStation => acquireCall k s
  | .reply => acquireReply k s

/-- The pair on which a TALK_STATION, LISTEN_STATION or REPLY key in an on state, or a CURRENT IFB key, holds its grant
(R115, R122, R151). -/
def State.grantPair (s : State) (k : KeyId) : Option (SourceId × DestId) :=
  let r := s.key k
  let pair : Option SourceId × Option DestId :=
    match r.function with
    | .talkStation =>
      match r.targetStation with
      | some t => if r.state.isOn then s.talkPair k t else (none, none)
      | none => (none, none)
    | .listenStation =>
      match r.targetStation with
      | some t => if r.state.isOn then s.listenPair k t else (none, none)
      | none => (none, none)
    | .reply =>
      match r.resolved with
      | some t => if r.state.isOn then s.talkPair k t else (none, none)
      | none => (none, none)
    | .ifb => if r.standing = .current then (s.ownSource k, r.target) else (none, none)
    | .unassigned | .talkParty | .callStation => (none, none)
  match pair.1, pair.2 with
  | some a, some b => some (a, b)
  | _, _ => none

/-- The key's grant departs from its pair (R66). -/
def surrenderGrant (k : KeyId) (s : State) : State :=
  match s.grantPair k with
  | some (a, b) => depart (.grant k) a b s
  | none => s

/-- R115: key k, in an on state, gives up its action. -/
def giveUp (k : KeyId) (s : State) : State :=
  match (s.key k).function with
  | .unassigned => s
  | .talkStation => surrenderGrant k s
  | .listenStation => surrenderGrant k s
  | .reply =>
    let s1 := surrenderGrant k s
    handKey k (s1.setKey k { s1.key k with resolved := none })
  | .talkParty => surrenderTalk k s
  | .ifb => leaveArbiter k s
  | .callStation => s

/-! ## The key state machine (R110 to R114) -/

/-- Key k enters a state; leaving PRESSED stops its latch window (R113). -/
def enterState (k : KeyId) (st : KeyState) (s : State) : State :=
  handKey k (s.setKey k { s.key k with state := st, latchTimer := none })

/-- R112: key k enters PRESSED and its latch window is started at the panel's length. -/
def enterPressed (k : KeyId) (s : State) : State :=
  handKey k
    (s.setKey k
      { s.key k with
          state := .pressed, latchTimer := some (s.after (ofMs (s.panel (keyPanel k)).latchWindow)) })

/-- R110: a granted press from IDLE enters a state by mode. -/
def enterByMode (k : KeyId) (s : State) : State :=
  match (s.key k).mode with
  | .momentary => enterState k .momentaryOn s
  | .latching => enterState k .latched s
  | .auto => enterPressed k s

/-- R110, R114: a press of key k. -/
def press (k : KeyId) (s : State) : State :=
  if (s.key k).function = .unassigned then s
  else
    match (s.key k).state with
    | .idle =>
      let (s1, ok) := acquire k s
      if ok then enterByMode k s1 else startWink k (enterState k .refusedHeld s1)
    | .latched => enterState k .unlatching (giveUp k s)
    | .pressed => s
    | .momentaryOn => s
    | .unlatching => s
    | .refusedHeld => s

/-- R110: a release of key k. -/
def release (k : KeyId) (s : State) : State :=
  match (s.key k).state with
  | .pressed => enterState k .latched s
  | .momentaryOn => enterState k .idle (giveUp k s)
  | .unlatching => enterState k .idle s
  | .refusedHeld => enterState k .idle s
  | .idle => s
  | .latched => s

/-- R106: a position of key k, down or up, is compared with its physical-down flag. The flag moves first. -/
def keyPosition (k : KeyId) (down : Bool) (s : State) : State :=
  if (s.key k).down = down then s
  else
    let s1 := s.setKey k { s.key k with down := down }
    flushLamps (if down then press k s1 else release k s1)

/-- R107: a map is reconciled in ascending key order. -/
def reconcile (p : PanelId) (map : BitVec 32) (s : State) : State :=
  (allOf 32).foldl (fun t n => keyPosition (keyIndex p n) (map.getLsbD n.val) t) s

/-! ## Panel presence (R102 to R105) -/

/-- R105: key k is released to IDLE by a loss policy or by unconfiguring. The physical-down flag and the wink timer are
left. -/
def lossRelease (k : KeyId) (s : State) : State :=
  if (s.key k).state.isOn then enterState k .idle (giveUp k s) else enterState k .idle s

/-- R105: whether a policy releases a key in a state. -/
def LossPolicy.releases : LossPolicy → KeyState → Bool
  | .dropAll, st => st != .idle
  | .keepLatched, st => st != .idle && st != .latched
  | .keepAll, _ => false

/-- R105: a policy is applied to a panel's keys in ascending key order. It looks at each key's state as its turn comes,
after the hand-offs of the keys before it (DEDUCED, notes/assumptions/31.md). -/
def applyPolicy (pol : LossPolicy) (p : PanelId) (s : State) : State :=
  (panelKeys p).foldl (fun t k => if pol.releases (t.key k).state then flushLamps (lossRelease k t) else t) s

/-- R104: an ONLINE panel enters OFFLINE. -/
def panelOffline (p : PanelId) (s : State) : State :=
  let r := s.panel p
  raise .panelOffline (some p.val)
    (applyPolicy r.lossPolicy p (s.setPanel p { r with online := .offline, silenceTimer := none }))

/-- R11, R104: the ONLINE panels of a lost port go OFFLINE, in ascending panel number (DESIGN CHOICE: the spec orders the
keys of one panel, not the panels; notes/assumptions/29.md). -/
def keyPortLost (x : PortId) (s : State) : State :=
  (allOf 48).foldl
    (fun t p =>
      if (t.panel p).configured && (t.panel p).port == x && (t.panel p).online == .online then panelOffline p t
      else t) s

/-- The silence time in ms (R98). -/
def silenceMs : Nat := 1000

/-- R102: panel p's silence timer is started or restarted. -/
def startSilence (p : PanelId) (s : State) : State :=
  s.setPanel p { s.panel p with silenceTimer := some (s.after (ofMs silenceMs)) }

/-- R103: a KEY_MAP brings an OFFLINE panel ONLINE. -/
def panelOnline (p : PanelId) (map : BitVec 32) (s : State) : State :=
  let r := s.panel p
  let s1 :=
    startSilence p
      (s.setPanel p
        { r with online := .online, encoders := r.encoders.map fun e => { e with residue := 0 } })
  let s2 := reconcile p map s1
  raise .panelOnline (some p.val)
    (s2.setPanel p { s2.panel p with lampPending := BitVec.allOnes 32, cadencePending := true })

/-- R102: the configured panel a cell from port x and header node n is matched to. -/
def State.panelAt (s : State) (x : PortId) (node : Byte) : Option PanelId :=
  (allOf 48).find? fun p => (s.panel p).configured && (s.panel p).port == x && (s.panel p).node.toNat == node.toNat

/-! ## Encoders (R121, R122) -/

/-- R121: counts per step of a mode. -/
def EncoderMode.counts : EncoderMode → Nat
  | .x1 => 4 | .x2 => 2 | .x4 => 1

/-- R121: a level moved by steps and clamped to the encoder's minimum and maximum. -/
def stepLevel (l : Level) (steps : Int) (lo hi : Level) : Level :=
  clampLevel (max (lo.val : Int) (min (hi.val : Int) ((l.val : Int) + steps))).toNat

/-- R122: an encoder of panel p moves its target level by steps. -/
def moveTarget (p : PanelId) (e : Encoder) (steps : Int) (s : State) : State :=
  match e.target with
  | none =>
    match (s.station (s.panel p).ownStation).dest with
    | some d =>
      let r := s.dest d
      s.setDest d { r with outputLevel := stepLevel r.outputLevel steps e.minimum e.maximum }
    | none => s
  | some n =>
    let k := keyIndex p n
    let l := stepLevel (s.key k).talkLevel steps e.minimum e.maximum
    let s1 := s.setKey k { s.key k with talkLevel := l }
    match s1.grantPair k with
    | some (a, b) => writeEntryLevel l a b s1
    | none => s1

/-- R121: an ENCODER cell of encoder i with delta d at ONLINE panel p. -/
def turnEncoder (p : PanelId) (i : Fin 4) (delta : Int) (s : State) : State :=
  let r := s.panel p
  let e := tget r.encoders i
  let c : Int := e.mode.counts
  let sum := e.residue + delta
  let steps := Int.tdiv sum c
  let s1 := s.setPanel p { r with encoders := tset r.encoders i { e with residue := sum - steps * c } }
  if steps = 0 then s1 else moveTarget p e steps s1

/-! ## Cells at the key unit -/

/-- The key cells, by the bytes of their body (R44). -/
inductive KeyCell where
  | event (key position : Byte)
  | map (positions : BitVec 32)
  | encoder (index : Byte) (delta : Byte)
  deriving DecidableEq, Repr

/-- KEY_MAP carries key 0 in the lowest bit of a 4-byte number (R44). -/
def keyCellAtOnline (p : PanelId) (c : KeyCell) (s : State) : State :=
  match c with
  | .event key position =>
    match indexIn 32 key.toNat with
    | some n =>
      if position = 0 then keyPosition (keyIndex p n) false s
      else if position = 1 then keyPosition (keyIndex p n) true s
      else s
    | none => s
  | .map positions => reconcile p positions s
  | .encoder index delta =>
    match indexIn 4 index.toNat with
    | some i => turnEncoder p i delta.toInt s
    | none => s

/-- R102: a key cell from port x and header node n. -/
def handleKeyCell (x : PortId) (node : Byte) (c : KeyCell) (s : State) : State :=
  match s.panelAt x node with
  | none => s
  | some p =>
    match (s.panel p).online with
    | .online => keyCellAtOnline p c (startSilence p s)
    | .offline =>
      match c with
      | .map positions => panelOnline p positions s
      | .event _ _ => s
      | .encoder _ _ => s
    | .unconfigured => s

/-! ## Unconfiguring and CLEAR_DYNAMIC -/

/-- R100: the keys of a panel that is unconfigured after their release: physical-down no, timers stopped, last-sent lamp
OFF (R188). -/
def restKey (k : KeyId) (s : State) : State :=
  s.setKey k { s.key k with down := false, winkTimer := none, latchTimer := none, lastLamp := .off }

/-- R100: a panel is unconfigured from OFFLINE: its keys are released as under DROP_ALL, its reply list and lamp state
emptied, and it enters UNCONFIGURED. -/
def unconfigure (p : PanelId) (s : State) : State :=
  let s1 := applyPolicy .dropAll p s
  let s2 := flushLamps ((panelKeys p).foldl (fun t k => restKey k t) (emptyReplyList p s1))
  s2.setPanel p
    { s2.panel p with
        configured := false, online := .unconfigured, silenceTimer := none, lampPending := 0, cadencePending := false }

/-- R123: CLEAR_DYNAMIC at every key. -/
def clearKeys (s : State) : State :=
  { s with keys := s.keys.map fun r =>
      { r with state := .idle, standing := .outside, resolved := none, winkTimer := none, latchTimer := none } }

end Sys2Proof.Machine
end

