-- ==== Sys2Proof/Machine/Mix.lean ====
section
/-! DEFINITION. Machine/Mix.lean: the mix arithmetic (spec/05): codes and factors, targets, ramps, roundings, saturation,
and one destination's assembly. Samples are integers; every rounding is the one the rule names. -/

namespace Sys2Proof.Machine

/-! ## Codes and factors -/

/-- R82: the factor of a level code, in units of 1/4096. -/
def factor (l : Level) : Nat := if l.val = 0 then 0 else (16 + l.val % 16) * 2 ^ (l.val / 16)

/-- R83: the combination of two codes. -/
def combine (a b : Level) : Level :=
  if a.val = 0 ∨ b.val = 0 then 0 else clampLevel (a.val + b.val - 128)

/-! ## Targets -/

/-- R85: whether the attached circuit of destination d is DEGRADED, and its degrade code. -/
def State.degradeCode (s : State) (d : DestId) : Option Level :=
  match (s.dest d).circuit with
  | some c => if (s.circuit c).state = .degraded then some (s.circuit c).degradeCode else none
  | none => none

/-- R85: the code D of destination d's dim condition, none where no condition holds. -/
def State.dimCode (s : State) (d : DestId) : Option Level :=
  if (s.dest d).kind = .ifb then
    match (s.arbiter d).current, s.degradeCode d with
    | some _, none => some (s.dest d).dimCode
    | none, some g => some g
    | some _, some g => some (min (s.dest d).dimCode g)
    | none, none => none
  else none

/-- R84: the target factor of an entry at an assembly of its destination d. -/
def State.entryTarget (s : State) (d : DestId) (e : Entry) : Nat :=
  if e.state = .releasing then 0
  else if 0 < (s.source e.source).isolation ∧ (s.dest d).kind ≠ .monitor then 0
  else
    let lc := combine e.level (s.source e.source).trim
    match e.cls, s.dimCode d with
    | .programme, some c => factor (combine lc c)
    | .programme, none => factor lc
    | .talk, _ => factor lc

/-! ## Samples, ramps, roundings -/

/-- R6: the 48 kept samples of slot i of a buffer position; zeros at or above its slot count. -/
def BufferPosition.slot (b : BufferPosition) (i : Fin 64) : List Int :=
  if i.val < b.slotCount then b.slots.getD i.val silence else silence

/-- R20: the 48 samples source n gives to the assembly of the running period. -/
def State.sourceSamples (s : State) (n : SourceId) : List Int :=
  let b := tget (s.port (portOf n)).buffer s.timing.position
  if (s.source n).enabled ∧ b.stamp = some s.timing.period then b.slot (slotOf n) else silence

/-- R87: the factor at sample n of a ramp from a to t. -/
def ramp (a t : Nat) (n : Nat) : Int := (a : Int) + Int.tdiv (((t : Int) - (a : Int)) * ((n : Int) + 1)) 48

/-- One contribution of a destination (R89): its applied factor, its target and its 48 samples. -/
structure Contribution where
  applied : Nat
  target : Nat
  samples : List Int
  deriving DecidableEq, Repr

/-- R90: the sum at sample n. -/
def mixSum (l : List Contribution) (n : Nat) : Int :=
  (l.map fun c => c.samples.getD n 0 * ramp c.applied c.target n).sum

/-- R91, R92: division by 4096 rounded to the nearest integer, halves upward. -/
def roundShift (x : Int) : Int := (x + 2048) / 4096

/-- R92: z at sample n, from the contributions and the output factor's ramp. -/
def mixZ (l : List Contribution) (a t : Nat) (n : Nat) : Int :=
  roundShift (roundShift (mixSum l n) * ramp a t n)

/-- R93: saturation to the sample range. -/
def saturate (z : Int) : Int := max (-8388608) (min 8388607 z)

/-- R89: the contributions of destination d: its entries in list order, and one feed per destination matched by each
enabled DESTINATION-side tap, in ascending order. `before` gives the outputs of the period before (R20). -/
def State.contributions (s before : State) (d : DestId) : List Contribution :=
  ((s.entriesOf d).map fun e =>
      { applied := e.applied, target := s.entryTarget d e, samples := s.sourceSamples e.source }) ++
    (s.feedingTaps d).flatMap fun t =>
      (s.tap t).matched.map fun m =>
        { applied := (s.tap t).applied, target := factor (s.tap t).level, samples := (before.dest m).previousOutput }

/-- R95, stage 2: z of the 48 samples of destination d. -/
def State.destZ (s before : State) (d : DestId) : List Int :=
  let l := s.contributions before d
  let r := s.dest d
  (List.range 48).map (mixZ l r.appliedOutput (factor r.outputLevel))

/-- R94: the number of clipped samples. -/
def clippedCount (zs : List Int) : Nat := (zs.filter fun z => saturate z != z).length

/-! ## One destination's assembly (R95) -/

/-- R70, R88: the entries of destination d after its assembly: RELEASING entries removed, applied factors at their
targets. -/
def State.closeEntries (s : State) (d : DestId) : List Entry :=
  ((s.entriesOf d).filter fun e => e.state == .active).map fun e => { e with applied := s.entryTarget d e }

/-- R88: the DESTINATION-side taps of monitor d after its assembly. -/
def closeTaps (d : DestId) (s : State) : State :=
  { s with taps := s.taps.map fun r =>
      if r.side = .destination ∧ r.monitor = d then
        { r with applied := if r.enabled then factor r.level else 0 }
      else r }

/-- R95: the assembly of destination d for the running period. -/
def assembleDest (before : State) (d : DestId) (s : State) : State :=
  let r := s.dest d
  let zs := s.destZ before d
  let clips := if r.enabled then clippedCount zs else 0
  let gone := (s.entriesOf d).filter fun e => e.state == .releasing
  let r' :=
    { r with appliedOutput := factor r.outputLevel, clipCounter := satAdd 65535 r.clipCounter clips,
             previousOutput := if r.enabled then zs.map saturate else silence }
  let s1 := closeTaps d ((s.setEntries d (s.closeEntries d)).setDest d r')
  let s2 := gone.foldl (fun t e => handEntry e.source d t) s1
  if clips = 0 then s2 else raise .clip (some d.val) s2

end Sys2Proof.Machine
end

