-- ==== Sys2Proof/Machine/Lane.lean ====
section
/-! DEFINITION. Machine/Lane.lean: the layouts of frames and of the cells the part sends (2.10), the lane arbiter (R26),
the lamp unit's cells (R191, R192) and the assembly of one port (R20, R21). -/

namespace Sys2Proof.Machine

/-! ## Frames (R1, R40) -/

/-- R1: one bit of the CRC-16 with generator x^16 + x^12 + x^5 + 1, most significant bit first. -/
def crcBit (r : BitVec 16) : BitVec 16 := if r.getLsbD 15 then (r <<< 1) ^^^ 0x1021#16 else r <<< 1

/-- R1: one byte of the CRC-16. -/
def crcByte (r : BitVec 16) (b : Byte) : BitVec 16 :=
  crcBit (crcBit (crcBit (crcBit (crcBit (crcBit (crcBit (crcBit (r ^^^ (b.setWidth 16 <<< 8)))))))))

/-- R1: the check value of a frame's bytes; the register starts at all ones, with no final inversion. -/
def crc16 (l : List Byte) : BitVec 16 := l.foldl crcByte 0xFFFF#16

/-- Bytes of one sample at a width (R40). -/
def Width.bytes : Width → Nat
  | .w16 => 2 | .w24 => 3

/-- The width as a frame header carries it (R40). -/
def Width.number : Width → Nat
  | .w16 => 16 | .w24 => 24

/-- R21: a 24-bit sample as written at an outgoing width: as it stands, or its upper 16 bits. -/
def Width.narrow : Width → Int → Int
  | .w24, x => x
  | .w16, x => x / 256

/-- R6: a sample as kept: a 16-bit sample multiplied by 256. -/
def Width.place : Width → Int → Int
  | .w24, x => x
  | .w16, x => x * 256

/-- R40: the frame's bytes, the check value last. -/
def frameBytes (seq : BitVec 16) (node : BitVec 6) (w : Width) (slots : List (List Int)) (cells : List (List Byte)) :
    List Byte :=
  let head := bytesOfNat 2 seq.toNat ++
    [node.setWidth 8, BitVec.ofNat 8 slots.length, BitVec.ofNat 8 w.number, BitVec.ofNat 8 cells.length, 0, 0]
  let body := head ++ slots.flatMap (fun sl => sl.flatMap fun x => bytesOfInt w.bytes (w.narrow x)) ++ cells.flatten
  body ++ bytesOfNat 2 (crc16 body).toNat

/-! ## Cells the part sends (R41 to R44) -/

/-- Kind codes of the cells (R41). -/
inductive CellKind where
  | order | reply | notice | keyEvent | keyMap | encoder | lamp | cadence | probe | echo
  deriving DecidableEq, Repr

/-- R41. -/
def CellKind.code : CellKind → Byte
  | .order => 0x01 | .reply => 0x02 | .notice => 0x03 | .keyEvent => 0x10 | .keyMap => 0x11 | .encoder => 0x12
  | .lamp => 0x18 | .cadence => 0x19 | .probe => 0x20 | .echo => 0x21

/-- R41: a kind code's kind. -/
def cellKindOf (b : Byte) : Option CellKind :=
  [CellKind.order, .reply, .notice, .keyEvent, .keyMap, .encoder, .lamp, .cadence, .probe, .echo].find?
    fun k => k.code == b

/-- R41: a cell built by the part: its body length is 28. -/
def cellBytes (k : CellKind) (node tag : Byte) (body : List Byte) : List Byte := [k.code, node, tag, 28] ++ body

/-- The part's own node as a header byte. -/
def State.ownNode (s : State) : Byte := s.straps.node.setWidth 8

/-- R43: a REPLY cell. -/
def State.replyCell (s : State) (r : ReplyCell) : List Byte := cellBytes .reply s.ownNode r.tag r.body

/-- R44: the two bytes of an instance, 65535 for none. -/
def instanceBytes (i : Option Nat) : List Byte := bytesOfNat 2 (i.getD 65535)

/-- R44, R24: the body of a notice, its count byte written with the kind's count as the cell is placed. -/
def State.noticeBody (s : State) (n : Notice) : List Byte :=
  sealBody s.draws
    (stated
        ([BitVec.ofNat 8 n.kind.number.val, BitVec.ofNat 8 (s.event n.kind).count] ++ instanceBytes n.inst ++
          bytesOfNat 4 n.period.toNat) ++ unstated 20)

/-- R44: the body of a PROBE cell. -/
def probeBody (draw : Nat) (tag : BitVec 15) (c : CircuitId) : List Byte :=
  sealBody draw (stated (bytesOfNat 2 tag.toNat ++ [BitVec.ofNat 8 c.val]) ++ unstated 25)

/-- R44: the four bytes of a cadence entry. -/
def cadenceBytes (r : Cadence) : List Byte :=
  [BitVec.ofNat 8 (r.period / 10), BitVec.ofNat 8 (r.bright / 10), BitVec.ofNat 8 (r.dim / 10),
    BitVec.ofNat 8 (r.brightLevel * 16 + r.dimLevel)]

/-- R191, R44: the body of a CADENCE cell, entries 0 to 5. -/
def State.cadenceBody (s : State) : List Byte :=
  sealBody s.draws (stated (((allOf 8).take 6).flatMap fun c => cadenceBytes (s.cadence c)) ++ unstated 4)

/-- The number of a lamp state (R44, R186). -/
def LampState.number : LampState → Nat
  | .off => 0 | .on => 1 | .dim => 2 | .flashCall => 3 | .flashBusy => 4 | .wink => 5

/-- R192: up to eight keys of a panel's pending set, lowest first. -/
def lampKeys (pending : BitVec 32) : List (Fin 32) := ((allOf 32).filter fun n => pending.getLsbD n.val).take 8

/-- R44: the body of a LAMP cell. -/
def lampBody (draw : Nat) (l : List (Fin 32 × LampState)) : List Byte :=
  sealBody draw
    (stated (BitVec.ofNat 8 l.length :: l.flatMap fun x => [BitVec.ofNat 8 x.1.val, BitVec.ofNat 8 x.2.number]) ++
      unstated (27 - 2 * l.length))

/-! ## The lamp unit's cells -/

/-- R191: the panels of port x with something pending. -/
def State.lampCandidates (s : State) (x : PortId) : List PanelId :=
  (allOf 48).filter fun p =>
    let r := s.panel p
    r.configured && r.port == x && r.online == .online && (r.lampPending != 0 || r.cadencePending)

/-- R191: the candidate served next: the first above the port's lamp service position, else the lowest. -/
def State.nextLampPanel (s : State) (x : PortId) : Option PanelId :=
  let l := s.lampCandidates x
  let above := l.filter fun p =>
    match s.lampPosition x with
    | some q => decide (q.val < p.val)
    | none => true
  match above with
  | p :: _ => some p
  | [] => l.head?

/-- R192: key n of panel p is carried with its state: it leaves the pending set and the state becomes its last-sent
lamp. -/
def carryLamp (p : PanelId) (s : State) (x : Fin 32 × LampState) : State :=
  let s1 := s.setPanel p { s.panel p with lampPending := withoutLamp (s.panel p).lampPending x.1 }
  s1.setKey (keyIndex p x.1) { s1.key (keyIndex p x.1) with lastLamp := x.2 }

/-- R191, R192: the lamp unit is asked for a lamp cell of port x; it answers with none where nothing is pending. -/
def lampCell (x : PortId) (s : State) : Option (List Byte × State) :=
  match s.nextLampPanel x with
  | none => none
  | some p =>
    let r := s.panel p
    let node : Byte := r.node.setWidth 8
    let s1 := s.setLampPosition x (some p)
    if r.cadencePending then
      some (cellBytes .cadence node 0 s.cadenceBody, (s1.setPanel p { r with cadencePending := false }).drawn)
    else
      let l := (lampKeys r.lampPending).map fun n => (n, s.deriveLamp (keyIndex p n))
      some (cellBytes .lamp node 0 (lampBody s.draws l), (l.foldl (carryLamp p) s1).drawn)

/-! ## The lane arbiter (R26): each step fills at most `room` positions and answers with its cells -/

/-- R26, step 1, R163: probe requests of port x, oldest first; `sent` is the departure time of the frame. -/
def placeProbes (x : PortId) (sent : Count) : Nat → State → List (List Byte) × State
  | 0, s => ([], s)
  | room + 1, s =>
    match s.probeQueue x with
    | [] => ([], s)
    | c :: rest =>
      let s1 := departProbe c sent (s.setProbeQueue x rest)
      let r := s1.circuit c
      let cell := cellBytes .probe (r.gateway.setWidth 8) 0 (probeBody s1.draws r.tagGenerator c)
      let (more, s2) := placeProbes x sent room s1.drawn
      (cell :: more, s2)

/-- R26, steps 2 and 5: lamp cells of port x. -/
def placeLamps (x : PortId) : Nat → State → List (List Byte) × State
  | 0, s => ([], s)
  | room + 1, s =>
    match lampCell x s with
    | none => ([], s)
    | some (cell, s1) =>
      let (more, s2) := placeLamps x room s1
      (cell :: more, s2)

/-- R26, step 3: replies, oldest first. -/
def placeReplies (room : Nat) (s : State) : List (List Byte) × State :=
  ((s.replies.take room).map s.replyCell, { s with replies := s.replies.drop room })

/-- R26, step 4: notices, oldest first. -/
def placeNotices : Nat → State → List (List Byte) × State
  | 0, s => ([], s)
  | room + 1, s =>
    match s.notices with
    | [] => ([], s)
    | n :: rest =>
      let cell := cellBytes .notice s.ownNode 0 (s.noticeBody n)
      let (more, s1) := placeNotices room { s with notices := rest }.drawn
      (cell :: more, s1)

/-- R26: the lane arbiter fills the positions of port x's frame. Replies and notices leave on the management port alone,
and only while it is in UP or HOLDOVER. -/
def fillLane (x : PortId) (sent : Count) (s : State) : List (List Byte) × State :=
  let cap := Config.cellsPerFrame
  let host := s.straps.mgmt == x && (s.port x).state.carries
  let (c1, s1) := placeProbes x sent cap s
  let (c2, s2) := placeLamps x (min 2 (cap - c1.length)) s1
  let n2 := c1.length + c2.length
  let (c3, s3) := if host then placeReplies (cap - n2) s2 else ([], s2)
  let n3 := n2 + c3.length
  let (c4, s4) := if host then placeNotices (cap - n3) s3 else ([], s3)
  let (c5, s5) := placeLamps x (cap - (n3 + c4.length)) s4
  (c1 ++ c2 ++ c3 ++ c4 ++ c5, s5)

/-! ## The assembly of one port -/

/-- The 64 destinations of port x, ascending. -/
def portDests (x : PortId) : List DestId := (allOf 64).map (slotNumber x)

/-- R21: one more than the highest enabled destination of the port, 0 if none is enabled. -/
def State.slotCount (s : State) (x : PortId) : Nat :=
  (allOf 64).foldl (fun n i => if (s.dest (slotNumber x i)).enabled then i.val + 1 else n) 0

/-- R21, R22: port x builds and sends its frame after its mix; its sequence number rises by one. -/
def sendFrame (x : PortId) (s : State) : State :=
  let (cells, s1) := fillLane x s.timing.sample s
  let r := s1.port x
  let slots := ((portDests x).take (s1.slotCount x)).map fun d => (s1.dest d).previousOutput
  let bytes := frameBytes r.outSeq s1.straps.node r.width slots cells
  { s1.setPort x { r with outSeq := r.outSeq + 1 } with sent := tset s1.sent x (some bytes) }

/-- R20, R21: the assembly of port x for the ending period: its destinations are mixed, and, unless the port is
DISABLED, its frame is built and sent. `before` is the state before the boundary. -/
def assemblePort (before : State) (s : State) (x : PortId) : State :=
  let s1 := flushLamps ((portDests x).foldl (fun t d => assembleDest before d t) s)
  if (s1.port x).state = .disabled then { s1 with sent := tset s1.sent x none } else sendFrame x s1

end Sys2Proof.Machine
end

