-- ==== Sys2Proof/Machine/Timing.lean ====
section
/-! DEFINITION. Machine/Timing.lean: reference timing (spec/01, 1.7): the counters, the active source, its loss and
return. The physical instants of the boundaries are left out; each period has its 48 sample instants (R15). -/

namespace Sys2Proof.Machine

/-- Whether a source is present (R17): INTERNAL always; a port in UP or HOLDOVER. -/
def State.refPresent (s : State) : RefSource → Bool
  | .internal => true
  | .refclk => s.timing.refclkPresent
  | .port p =>
    match (s.port p).state with
    | .up => true | .holdover => true | .disabled => false | .down => false | .locking => false

/-- R18: a source has stopped being present. If it is the selected one, INTERNAL is active at the held rate from then on,
a return still due is called off, and REFERENCE_LOST is raised (notes/assumptions/13.md). A clock that nothing has steered
keeps its nominal rate (notes/assumptions/30.md). -/
def referenceGone (r : RefSource) (s : State) : State :=
  if s.timing.selected = r ∧ r ≠ .internal then
    let t := s.timing
    raise .referenceLost none
      { s with timing :=
          { t with active := .internal, pending := none,
                   changed := t.changed || t.active != .internal,
                   rate := if t.active = .internal then t.rate else .held } }
  else s

/-- R18: a source is present again; if it is the selected one, the active source returns to it at the next boundary, or
stays with it where a change away from it had not taken effect. -/
def referenceBack (r : RefSource) (s : State) : State :=
  let t := s.timing
  if t.selected = r then { s with timing := { t with pending := if t.active = r then none else some r } } else s

/-- R19: the selected reference is written. -/
def selectReference (r : RefSource) (s : State) : State :=
  let t := s.timing
  if s.refPresent r then
    { s with timing := { t with selected := r, pending := if t.active = r then none else some r } }
  else
    raise .referenceLost none
      { s with timing :=
          { t with selected := r, pending := if t.active = .internal then none else some .internal } }

/-- R16: the rate of the sample clock from a boundary on, by the active source of the period that begins. While INTERNAL
stands in for an absent selected source before anything has steered the clock, it stays nominal (DESIGN CHOICE,
notes/assumptions/30.md). -/
def Timing.rateFrom (t : Timing) (active : RefSource) : ClockRate :=
  match active with
  | .internal =>
    if t.selected = .internal then .nominal
    else
      match t.rate with
      | .steered => .held
      | .nominal => .nominal
      | .held => .held
  | .refclk => .steered
  | .port _ => .steered

/-- R16: a pending change of active source takes effect at a boundary; the period that follows a change re-aligns. -/
def applyReference (s : State) : State :=
  let t := s.timing
  let a := t.pending.getD t.active
  { s with timing :=
      { t with active := a, pending := none, changed := false, realigning := t.changed || a != t.active,
               rate := t.rateFrom a } }

/-- R15, R6: the period counter rises, a new period begins at its instant 0 and its own buffer position. -/
def beginPeriod (s : State) : State :=
  let t := s.timing
  { s with timing := { t with period := t.period + 1, place := 0, position := t.position + 1 } }

/-- R15: one sample instant: the sample counter rises, and the order unit may take a unit at the new instant (R27). -/
def sampleTick (s : State) : State :=
  let t := s.timing
  { s with timing := { t with sample := t.sample + 1, place := t.place + 1 }, unitTaken := false }

end Sys2Proof.Machine
end

