-- ==== Sys2Proof/Machine/Ports.lean ====
section
/-! DEFINITION. Machine/Ports.lean: the receive side of a link port (spec/01, 1.3 to 1.6): finding lock, stamping,
closing a period, losing the link, enabling and disabling; and the period boundary. -/

namespace Sys2Proof.Machine

/-! ## Loss of a port (R11, R12) -/

/-- R11: a port record emptied on entering DOWN or DISABLED: buffer, counts and last sequence number. -/
def Port.emptied (r : Port) (st : PortState) : Port :=
  { r with state := st, lockCount := 0, missCount := 0, lastSeq := none, settling := false,
           buffer := Vector.replicate 3 BufferPosition.empty }

/-- R12: loss of the management port empties the order, reply and notice queues and ends a block in flight silently. -/
def hostLost (s : State) : State := { s with orders := [], replies := [], notices := [], block := none }

/-- R11: port x leaves UP or HOLDOVER for a state: its record is emptied, PORT_DOWN raised, and the loss handed to the
key unit, the field supervisor, the cell lane and reference timing. The spec gives no order of these, which is that of
their notices; the model takes the key unit's and with it PANEL_OFFLINE before reference timing's REFERENCE_LOST (DESIGN
CHOICE, notes/assumptions/34.md). -/
def losePort (x : PortId) (st : PortState) (s : State) : State :=
  let s1 := s.setPort x ((s.port x).emptied st)
  let s2 := if s1.straps.mgmt = x then hostLost s1 else s1
  let s3 := raise .portDown (some x.val) s2
  referenceGone (.port x) (fieldPortLost x (keyPortLost x s3))

/-! ## Entering UP and accepting frames (R3 to R8) -/

/-- R3, R4, R173, R18: port x enters UP from LOCKING: miss count 0, the running period settling, PORT_UP raised. -/
def lockPort (x : PortId) (s : State) : State :=
  let s1 := s.setPort x { s.port x with state := .up, missCount := 0, settling := true }
  referenceBack (.port x) (fieldPortUp x (raise .portUp (some x.val) s1))

/-- A frame that has passed the check of R1, as its header and slots give it. -/
structure Frame where
  seq : BitVec 16
  width : Width
  slotCount : Nat
  slots : List (List Int)
  cells : List (List Byte)
  deriving DecidableEq, Repr

/-- R7: the peak of a slot: the largest magnitude among its samples. -/
def peakOf (l : List Int) : Nat := l.foldl (fun m x => max m x.natAbs) 0

/-- R48: a peak is folded into its source's peak hold. -/
def foldPeak (n : SourceId) (peak : Nat) (s : State) : State :=
  s.setSource n { s.source n with peakHold := max (s.source n).peakHold peak }

/-- R7, R171: the enabled circuits whose reporter station's source is n take one return frame, in ascending circuit
number (DESIGN CHOICE: the spec orders neither these nor the slots; notes/assumptions/27.md). -/
def returnFrames (n : SourceId) (peak : Nat) (s : State) : State :=
  (allOf 16).foldl
    (fun t c =>
      if (t.circuit c).state != .disabled && (t.station (t.circuit c).reporter).source == some n then
        returnFrame c peak t
      else t) s

/-- R7: the peaks of the 64 slots of a stamped frame are taken, in ascending slot (notes/assumptions/27.md). -/
def takePeaks (x : PortId) (b : BufferPosition) (s : State) : State :=
  (allOf 64).foldl
    (fun t i =>
      let peak := peakOf (b.slot i)
      returnFrames (slotNumber x i) peak (foldPeak (slotNumber x i) peak t)) s

/-- R5, R6: a frame is written into a buffer position of port x under a stamp, and its peaks are taken. -/
def stampFrame (x : PortId) (f : Frame) (pos : Fin 3) (stamp : Count) (s : State) : State :=
  let b : BufferPosition := { stamp := some stamp, width := f.width, slotCount := f.slotCount, slots := f.slots }
  let r := s.port x
  takePeaks x b (s.setPort x { r with buffer := tset r.buffer pos b })

/-- R5: an accepted frame is offered the stamps m+1 and m+2 in turn; with neither free it is a slip. -/
def acceptAudio (x : PortId) (f : Frame) (s : State) : State :=
  let m := s.timing.period
  let p := s.timing.position
  let r := s.port x
  if (tget r.buffer (p + 1)).stamp ≠ some (m + 1) then stampFrame x f (p + 1) (m + 1) s
  else if (tget r.buffer (p + 2)).stamp ≠ some (m + 2) then stampFrame x f (p + 2) (m + 2) s
  else raise .slip (some x.val) (s.setPort x { r with slips := satInc 65535 r.slips })

/-- R3: the lock count and the last sequence number after a good frame in DOWN or LOCKING. -/
def Port.counted (r : Port) (seq : BitVec 16) : Port :=
  let n := if r.state = .locking ∧ r.lastSeq = some (seq - 1) then r.lockCount + 1 else 1
  { r with state := .locking, lockCount := n, lastSeq := some seq }

/-! ## Closing a period (R9, R10) -/

/-- R47: a source takes its port's report. -/
def Source.reported (r : Source) (withFrame : Bool) : Source :=
  if withFrame then { r with gapped := false }
  else { r with gapped := true, gapCounter := satInc 65535 r.gapCounter }

/-- R9: whether port x's sources are reported with a frame at the close of the running period. -/
def State.closesWithFrame (s : State) (x : PortId) : Bool :=
  (s.port x).state.carries &&
    (tget (s.port x).buffer s.timing.position).stamp == some s.timing.period

/-- R9, R47: port x reports its 64 sources. -/
def reportSources (x : PortId) (withFrame : Bool) (s : State) : State :=
  (allOf 64).foldl
    (fun t i => t.setSource (slotNumber x i) ((t.source (slotNumber x i)).reported withFrame)) s

/-- R10: the miss count and state of a port in UP or HOLDOVER at the close of a period that is not settling. -/
def closeState (x : PortId) (withFrame : Bool) (s : State) : State :=
  let r := s.port x
  if withFrame then
    let s1 := s.setPort x { r with missCount := 0, state := .up }
    if r.state = .holdover then referenceBack (.port x) (fieldPortUp x (raise .portUp (some x.val) s1)) else s1
  else if r.missCount + 1 < 8 then s.setPort x { r with missCount := r.missCount + 1, state := .holdover }
  else losePort x .down s

/-- R9, R10, R4: port x closes the running period. -/
def closePort (s : State) (x : PortId) : State :=
  let f := s.closesWithFrame x
  let s1 := reportSources x f s
  let r := s1.port x
  if r.state.carries then
    if r.settling then s1.setPort x { r with settling := false } else closeState x f s1
  else s1

/-! ## Enabling and disabling (R13) -/

/-- R13: enabled is written yes. -/
def enablePort (x : PortId) (s : State) : State :=
  let r := s.port x
  let r' := { r with enabled := true }
  s.setPort x (if r.state = .disabled then { r' with state := .down, lockCount := 0, missCount := 0, lastSeq := none }
    else r')

/-- R13: enabled is written no on a port other than the management port. -/
def disablePort (x : PortId) (s : State) : State :=
  let r := s.port x
  let s1 := s.setPort x { r with enabled := false }
  if r.state.carries then losePort x .disabled s1
  else s1.setPort x ((s1.port x).emptied .disabled)

/-! ## The period boundary (R15, R20 to R22) -/

/-- The boundary event is being taken, or has been (for the period a notice carries; notes/assumptions/7.md). -/
def atBoundary (b : Bool) (s : State) : State := { s with timing := { s.timing with atBoundary := b } }

/-- R39: at the end of the period in which RESTART was executed the start is due. -/
def restartFalls (s : State) : State :=
  { s with restart :=
      match s.restart with
      | .absent => .absent
      | .marked => .due
      | .due => .due }

/-- The boundary that ends the running period: every port assembles, a pending change of active source takes effect,
every port closes, and the next period begins. The assemblies see the tables as they stood before the closes (R10). -/
def boundary (s : State) : State :=
  let s1 := atBoundary true s
  let s2 := (allOf 4).foldl (assemblePort s1) s1
  let s3 := (allOf 4).foldl closePort (applyReference s2)
  restartFalls (beginPeriod (atBoundary false (flushLamps s3)))

end Sys2Proof.Machine
end

