-- ==== Sys2Proof/Machine/Arrival.lean ====
section
/-! DEFINITION. Machine/Arrival.lean: a frame's check and reading (R1, R40), and the routing of its cells (R23). -/

namespace Sys2Proof.Machine

/-- The first k pieces of n elements of a list. -/
def pieces {α : Type} (n k : Nat) (l : List α) : List (List α) := (List.range k).map fun i => (l.drop (i * n)).take n

/-- A signed number in two's complement from its bytes. -/
def signedOf (l : List Byte) : Int :=
  let v := natOfBytes l
  if 2 * v < 256 ^ l.length then (v : Int) else (v : Int) - (256 ^ l.length : Nat)

/-- The sample width of a frame header (R1): 16 or 24. -/
def widthOf (b : Byte) : Option Width :=
  if b = 16 then some .w16 else if b = 24 then some .w24 else none

/-- R40: the length a header implies. -/
def frameLength (slots : Nat) (w : Width) (cells : Nat) : Nat := 8 + slots * 48 * w.bytes + cells * 32 + 2

/-- R1: a frame is checked; none is a bad frame. -/
def readFrame (bytes : List Byte) : Option Frame :=
  match widthOf (byteAt bytes 4) with
  | none => none
  | some w =>
    let n := (byteAt bytes 3).toNat
    let c := (byteAt bytes 5).toNat
    if 64 < n ∨ 8 < c ∨ bytes.length ≠ frameLength n w c then none
    else if crc16 (bytes.take (bytes.length - 2)) ≠ u16At bytes (bytes.length - 2) then none
    else
      let audio := bytes.drop 8
      some
        { seq := u16At bytes 0
          width := w
          slotCount := n
          slots := (pieces (48 * w.bytes) n audio).map fun sl =>
            (pieces w.bytes 48 sl).map fun x => w.place (signedOf x)
          cells := pieces 32 c (audio.drop (n * 48 * w.bytes)) }

/-! ## Cells (R23) -/

/-- R23: an ORDER offered to the order queue; at a full queue it is lost and CELL_OVERFLOW raised. -/
def offerOrder (o : OrderCell) (s : State) : State :=
  if s.orders.length < Config.orderCap then { s with orders := s.orders ++ [o] }
  else raise .cellOverflow (some s.straps.mgmt.val) s

/-- R23: body bytes at or beyond the header length are read as zero. -/
def cellBody (cell : List Byte) : List Byte :=
  (List.range 28).map fun i => if i < (byteAt cell 3).toNat then byteAt cell (4 + i) else 0

/-- R23: a cell of an accepted frame that arrived on port x at a sample count. -/
def routeCell (x : PortId) (arrival : Count) (s : State) (cell : List Byte) : State :=
  let node := byteAt cell 1
  let body := cellBody cell
  if 28 < (byteAt cell 3).toNat then s
  else
    match cellKindOf (byteAt cell 0) with
    | none => s
    | some .order =>
      if x = s.straps.mgmt ∧ node = s.ownNode then offerOrder { tag := byteAt cell 2, body := body } s else s
    | some .keyEvent => handleKeyCell x node (.event (byteAt body 0) (byteAt body 1)) s
    | some .keyMap => handleKeyCell x node (.map (u32At body 0)) s
    | some .encoder => handleKeyCell x node (.encoder (byteAt body 0) (byteAt body 1)) s
    | some .echo => handleEcho x node (byteAt body 2) (u16At body 0) arrival s
    | some .reply => s
    | some .notice => s
    | some .lamp => s
    | some .cadence => s
    | some .probe => s

/-- R5, R8: a good frame arriving in UP or HOLDOVER: its audio, then its cells in their order. The spec orders the cells
among themselves; that the audio comes before them is the model's choice (DESIGN CHOICE, notes/assumptions/28.md). -/
def acceptFrame (x : PortId) (f : Frame) (s : State) : State :=
  f.cells.foldl (routeCell x s.timing.sample) (acceptAudio x f s)

/-- R3: a good frame arriving in DOWN or LOCKING; the one that completes the count is handled as accepted. -/
def countFrame (x : PortId) (f : Frame) (s : State) : State :=
  let r := (s.port x).counted f.seq
  let s1 := s.setPort x r
  if 8 ≤ r.lockCount then acceptFrame x f (lockPort x s1) else s1

/-- R1, R3, R5: a frame arriving at port x. -/
def frameAt (x : PortId) (bytes : List Byte) (s : State) : State :=
  let r := s.port x
  match r.state with
  | .disabled => s
  | .down | .locking | .up | .holdover =>
    match readFrame bytes with
    | none => raise .frameError (some x.val) (s.setPort x { r with frameErrors := satInc 65535 r.frameErrors })
    | some f => if r.state.carries then acceptFrame x f s else countFrame x f s

end Sys2Proof.Machine
end

