-- ==== Sys2Proof/Machine/Operands.lean ====
section
/-! DEFINITION. Machine/Operands.lean: what an ORDER carries (R42), the tables and their fields (R28, R29), the coding of
field values, and the checks of a value against its field (R31). -/

namespace Sys2Proof.Machine

/-! ## Result codes and tables -/

/-- Result codes (R43). -/
inductive Result where
  | ok | badTable | badIndex | badValue | full | duplicate | notFound | busy | wrongKind | inUse | aborted
  deriving DecidableEq, Repr, Inhabited

/-- R43. -/
def Result.code : Result → Byte
  | .ok => 0 | .badTable => 1 | .badIndex => 2 | .badValue => 3 | .full => 4 | .duplicate => 5 | .notFound => 6
  | .busy => 7 | .wrongKind => 8 | .inUse => 9 | .aborted => 10

/-- The tables in the order of their codes (R42). -/
def allTables : List TableName :=
  [.port, .source, .destination, .station, .panel, .key, .party, .circuit, .tap, .cadence, .event]

/-- R42: the table of a table code. -/
def tableOf (code : Byte) : Option TableName := allTables[code.toNat]?

/-- R28: the record counts. -/
def TableName.records : TableName → Nat
  | .port => 5 | .source => 256 | .destination => 256 | .station => 192 | .panel => 48 | .key => 1536 | .party => 16
  | .circuit => 16 | .tap => 8 | .cadence => 8 | .event => 15

/-- R29: the bytes each field of a record takes, in the order of the field numbers. The PORT table has two field tables. -/
def TableName.widths : TableName → Nat → List Nat
  | .port, i => if i = 4 then [1, 1, 1, 4, 4] else [1, 1, 1, 1, 4, 1, 2, 2, 2]
  | .source, _ => [1, 1, 1, 4, 1, 2]
  | .destination, _ => [1, 1, 1, 2, 1, 1, 2]
  | .station, _ => [1, 2, 2]
  | .panel, _ => [1, 1, 1, 1, 1, 2, 1, 1] ++ List.replicate 20 1 ++ [5, 4, 1]
  | .key, _ => [1, 2, 1, 1, 1, 1, 1, 1, 1, 1]
  | .party, _ => [1, 1, 1] ++ List.replicate 24 2
  | .circuit, _ => [1, 1, 1, 1, 2, 2, 2, 2, 1, 4, 2, 2, 2, 2, 1, 2, 1, 2, 2, 1, 6, 6, 6, 6]
  | .tap, _ => [1, 1, 1, 1, 1, 1, 1, 2]
  | .cadence, _ => [2, 2, 2, 1, 1]
  | .event, _ => [1, 1, 2, 1, 1]

/-- The writable fields of a record (R2, R14, R45, R50, R57, R99, R108, R124, R157, R175, R190, R194). -/
def TableName.writable : TableName → Nat → List Nat
  | .port, i => if i = 4 then [0] else [1, 2]
  | .source, _ => [0, 1, 5]
  | .destination, _ => [0, 1, 2, 4, 6]
  | .station, _ => [0, 1, 2]
  | .panel, _ => [0, 1, 2, 3, 4, 5, 6] ++ (List.range 16).map (· + 8)
  | .key, _ => [0, 1, 2, 3, 4]
  | .party, _ => [0, 1]
  | .circuit, _ => [0, 2, 3, 4, 5, 6, 7, 8, 9, 10, 15]
  | .tap, _ => [0, 1, 2, 3, 4, 5, 6]
  | .cadence, _ => [0, 1, 2, 3, 4]
  | .event, _ => [3, 4]

/-! ## Masks and values (R29) -/

/-- The fields a mask names, ascending: bit f names field f (R42). -/
def maskFields (mask : BitVec 32) : List Nat := (List.range 32).filter fun f => mask.getLsbD f

/-- R29: a mask names some field, none at or beyond the field count, and no more bytes than the value area holds. -/
def maskOk (widths : List Nat) (area : Nat) (mask : BitVec 32) : Bool :=
  let l := maskFields mask
  !l.isEmpty && l.all (fun f => f < widths.length) && decide ((l.map fun f => widths.getD f 0).sum ≤ area)

/-- A field number and the value carried for it. -/
abbrev FieldValue := Nat × Nat

/-- R29: named fields are packed in ascending field number without gaps, each high byte first. -/
def unpack (widths : List Nat) : List Nat → List Byte → List FieldValue
  | [], _ => []
  | f :: fs, bs =>
    let w := widths.getD f 0
    (f, natOfBytes (slice bs 0 w)) :: unpack widths fs (bs.drop w)

/-- The values a mask names in a value area. -/
def namedValues (widths : List Nat) (mask : BitVec 32) (bytes : List Byte) : List FieldValue :=
  unpack widths (maskFields mask) bytes

/-- R30: the named fields of a record packed into n bytes, zeros beyond them. -/
def packFields (widths values : List Nat) (mask : BitVec 32) (n : Nat) : List Byte :=
  slice ((maskFields mask).flatMap fun f => bytesOfNat (widths.getD f 0) (values.getD f 0)) 0 n

/-- Whether the values name field f. -/
def names (l : List FieldValue) (f : Nat) : Bool := l.any fun x => x.1 == f

/-! ## Checking one value (R31): none is BAD_VALUE; a field not named keeps its value -/

/-- A yes/no field: 1 or 0 (R29). -/
def boolField (l : List FieldValue) (f : Nat) (old : Bool) : Option Bool :=
  match l.lookup f with
  | none => some old
  | some v => if v = 0 then some false else if v = 1 then some true else none

/-- A level code: above 159 it is stored as 159. -/
def levelField (l : List FieldValue) (f : Nat) (old : Level) : Level :=
  match l.lookup f with
  | none => old
  | some v => clampLevel v

/-- A number refused above its range. -/
def numberField (l : List FieldValue) (f : Nat) (old top : Nat) : Option Nat :=
  match l.lookup f with
  | none => some old
  | some v => if v ≤ top then some v else none

/-- A time: rounded down to a whole step, then stored as the nearer end of its range. -/
def timeField (l : List FieldValue) (f : Nat) (old step lo hi : Nat) : Nat :=
  match l.lookup f with
  | none => old
  | some v => max lo (min hi (v / step * step))

/-- An index below n. -/
def indexField {n : Nat} (l : List FieldValue) (f : Nat) (old : Fin n) : Option (Fin n) :=
  match l.lookup f with
  | none => some old
  | some v => indexIn n v

/-- An index below n, or absent, carried as `absent`. -/
def optionalField {n : Nat} (l : List FieldValue) (f absent : Nat) (old : Option (Fin n)) : Option (Option (Fin n)) :=
  match l.lookup f with
  | none => some old
  | some v => if v = absent then some none else (indexIn n v).map some

/-- An enumeration, its values in the order its chapter lists them. -/
def enumField {α : Type} (l : List FieldValue) (f : Nat) (values : List α) (old : α) : Option α :=
  match l.lookup f with
  | none => some old
  | some v => values[v]?

/-! ## Orders (R42) -/

/-- An order as its ORDER body carries it. -/
inductive Order where
  | recordRead (table : Byte) (index : BitVec 16) (mask : BitVec 32)
  | recordWrite (table : Byte) (index : BitVec 16) (mask : BitVec 32) (values : List Byte)
  | blockRead (table : Byte) (start : BitVec 16) (mask : BitVec 32) (count : BitVec 16) (direction : Byte)
  | fill (table : Byte) (start : BitVec 16) (mask : BitVec 32) (count : BitVec 16) (direction : Byte)
      (values : List Byte)
  | routeAdd (count : Byte) (routes : List RouteArg)
  | routeRemove (count : Byte) (routes : List PairArg)
  | routeNudge (count direction stepCode : Byte) (routes : List PairArg)
  | routeList (dest : Byte)
  | swap (a b : Byte)
  | partyJoin (party station listen : Byte)
  | partyLeave (party station : Byte)
  | partyFlags (party station named values : Byte)
  | meterRead (start count : Byte)
  | statusRead (kinds : BitVec 16)
  | statusClear (kinds : BitVec 16)
  | clearDynamic
  | restart
  | unlisted (code : Byte)
  deriving DecidableEq, Repr

/-- R37: the number of routes a route count gives: none where the count is outside 1..6. -/
def routeCount (count : Byte) : Nat := if 1 ≤ count.toNat ∧ count.toNat ≤ 6 then count.toNat else 0

/-- The n four-byte routes of a body from byte 2 on. -/
def readRoutes (b : List Byte) (n : Nat) : List RouteArg :=
  (List.range n).map fun i =>
    { source := byteAt b (2 + 4 * i), dest := byteAt b (3 + 4 * i), level := byteAt b (4 + 4 * i),
      cls := byteAt b (5 + 4 * i) }

/-- The n two-byte routes of a body from byte `at` on. -/
def readPairs (b : List Byte) (start n : Nat) : List PairArg :=
  (List.range n).map fun i => { source := byteAt b (start + 2 * i), dest := byteAt b (start + 2 * i + 1) }

/-- R42: the order an ORDER body carries. -/
def readOrder (b : List Byte) : Order :=
  match (byteAt b 0).toNat with
  | 1 => .recordRead (byteAt b 1) (u16At b 2) (u32At b 4)
  | 2 => .recordWrite (byteAt b 1) (u16At b 2) (u32At b 4) (slice b 8 20)
  | 3 => .blockRead (byteAt b 1) (u16At b 2) (u32At b 4) (u16At b 8) (byteAt b 10)
  | 4 => .fill (byteAt b 1) (u16At b 2) (u32At b 4) (u16At b 8) (byteAt b 10) (slice b 12 16)
  | 5 => .routeAdd (byteAt b 1) (readRoutes b (routeCount (byteAt b 1)))
  | 6 => .routeRemove (byteAt b 1) (readPairs b 2 (routeCount (byteAt b 1)))
  | 7 => .routeNudge (byteAt b 1) (byteAt b 2) (byteAt b 3) (readPairs b 4 (routeCount (byteAt b 1)))
  | 8 => .routeList (byteAt b 1)
  | 9 => .swap (byteAt b 1) (byteAt b 2)
  | 10 => .partyJoin (byteAt b 1) (byteAt b 2) (byteAt b 3)
  | 11 => .partyLeave (byteAt b 1) (byteAt b 2)
  | 12 => .partyFlags (byteAt b 1) (byteAt b 2) (byteAt b 3) (byteAt b 4)
  | 13 => .meterRead (byteAt b 1) (byteAt b 2)
  | 14 => .statusRead (u16At b 1)
  | 15 => .statusClear (u16At b 1)
  | 16 => .clearDynamic
  | 17 => .restart
  | _ => .unlisted (byteAt b 0)

/-- R42: an order's code. -/
def Order.code : Order → Byte
  | .recordRead .. => 1 | .recordWrite .. => 2 | .blockRead .. => 3 | .fill .. => 4 | .routeAdd .. => 5
  | .routeRemove .. => 6 | .routeNudge .. => 7 | .routeList .. => 8 | .swap .. => 9 | .partyJoin .. => 10
  | .partyLeave .. => 11 | .partyFlags .. => 12 | .meterRead .. => 13 | .statusRead .. => 14 | .statusClear .. => 15
  | .clearDynamic => 16 | .restart => 17 | .unlisted c => c

/-- The four bytes of a ROUTE_ADD route (R42). -/
def RouteArg.bytes (r : RouteArg) : List Byte := [r.source, r.dest, r.level, r.cls]

/-- The two bytes of a ROUTE_REMOVE or ROUTE_NUDGE route (R42). -/
def PairArg.bytes (r : PairArg) : List Byte := [r.source, r.dest]

/-- The bytes of an order that R42 lists, from its code on. -/
def Order.listed : Order → List Byte
  | .recordRead t i m => [1, t] ++ bytesOfNat 2 i.toNat ++ bytesOfNat 4 m.toNat
  | .recordWrite t i m v => [2, t] ++ bytesOfNat 2 i.toNat ++ bytesOfNat 4 m.toNat ++ v
  | .blockRead t i m n d => [3, t] ++ bytesOfNat 2 i.toNat ++ bytesOfNat 4 m.toNat ++ bytesOfNat 2 n.toNat ++ [d]
  | .fill t i m n d v =>
    [4, t] ++ bytesOfNat 2 i.toNat ++ bytesOfNat 4 m.toNat ++ bytesOfNat 2 n.toNat ++ [d, 0] ++ v
  | .routeAdd n l => [5, n] ++ l.flatMap RouteArg.bytes
  | .routeRemove n l => [6, n] ++ l.flatMap PairArg.bytes
  | .routeNudge n d c l => [7, n, d, c] ++ l.flatMap PairArg.bytes
  | .routeList d => [8, d]
  | .swap a b => [9, a, b]
  | .partyJoin p t x => [10, p, t, x]
  | .partyLeave p t => [11, p, t]
  | .partyFlags p t n v => [12, p, t, n, v]
  | .meterRead a n => [13, a, n]
  | .statusRead k => [14] ++ bytesOfNat 2 k.toNat
  | .statusClear k => [15] ++ bytesOfNat 2 k.toNat
  | .clearDynamic => [16]
  | .restart => [17]
  | .unlisted c => [c]

/-- R42: the ORDER body that carries an order: its bytes, then zeros up to 28. -/
def Order.body (o : Order) : List Byte := slice o.listed 0 28

/-- R42, R37, R28: an order that a body can carry: a full value area, as many routes as its count gives, and an unlisted
code only where R42 lists none. -/
def Order.wellFormed : Order → Bool
  | .recordWrite _ _ _ v => v.length == 20
  | .fill _ _ _ _ _ v => v.length == 16
  | .routeAdd n l => l.length == routeCount n
  | .routeRemove n l => l.length == routeCount n
  | .routeNudge n _ _ l => l.length == routeCount n
  | .unlisted c => c == 0 || decide (17 < c.toNat)
  | .recordRead .. | .blockRead .. | .routeList .. | .swap .. | .partyJoin .. | .partyLeave .. | .partyFlags ..
  | .meterRead .. | .statusRead .. | .statusClear .. | .clearDynamic | .restart => true

end Sys2Proof.Machine
end

