-- ==== Sys2Proof/Machine/Records.lean ====
section
/-! DEFINITION. Machine/Records.lean: what a read of each record returns (R30): the carried value of every field, in the
order of the field numbers, in the coding of R29. -/

namespace Sys2Proof.Machine

/-! ## Enumerations as carried (R29: numbered from 0 in the order their chapter lists them) -/

/-- R2. -/
def portStates : List PortState := [.disabled, .down, .locking, .up, .holdover]
/-- R14. -/
def refSources : List RefSource := [.internal, .refclk, .port 0, .port 1, .port 2, .port 3]
/-- R50. -/
def destKinds : List DestKind := [.plain, .ifb, .monitor]
/-- R57. -/
def stationKinds : List StationKind := [.unused, .panel, .beltpack, .reporter, .fixed]
/-- R99. -/
def lossPolicies : List LossPolicy := [.keepLatched, .dropAll, .keepAll]
/-- R99. -/
def onlineStates : List OnlineState := [.unconfigured, .offline, .online]
/-- R99. -/
def encoderModes : List EncoderMode := [.x1, .x2, .x4]
/-- R108. -/
def keyFunctions : List KeyFunction := [.unassigned, .talkStation, .listenStation, .talkParty, .ifb, .callStation, .reply]
/-- R108. -/
def keyModes : List KeyMode := [.momentary, .latching, .auto]
/-- R108. -/
def priorities : List Priority := [.low, .high]
/-- R108. -/
def keyStates : List KeyState := [.idle, .pressed, .momentaryOn, .latched, .unlatching, .refusedHeld]
/-- R108. -/
def standings : List Standing := [.outside, .waiting, .current]
/-- R157. -/
def circuitStates : List CircuitState := [.disabled, .starting, .normal, .degraded, .linkLost]
/-- R175. -/
def tapSides : List TapSide := [.source, .destination]
/-- R194. -/
def eventRoutes : List EventRoute := [.notice, .alarm, .both]
/-- R99: OWN_OUTPUT is 0 and KEY k is k + 1. -/
def encoderTargets : List (Option (Fin 32)) := none :: (allOf 32).map some

/-- The number of a value in its enumeration. -/
def codeIn {α : Type} [DecidableEq α] (values : List α) (x : α) : Nat := values.findIdx fun y => y = x

/-- yes is 1, no is 0. -/
def ofBool (b : Bool) : Nat := if b then 1 else 0

/-- An optional index as carried in w bytes: absent is all ones at its width. -/
def ofOption {n : Nat} (w : Nat) (o : Option (Fin n)) : Nat :=
  match o with
  | some i => i.val
  | none => 256 ^ w - 1

/-- An optional number as carried in w bytes. -/
def ofOptionNat (w : Nat) (o : Option Nat) : Nat := o.getD (256 ^ w - 1)

/-! ## The fields of each record -/

/-- R2. -/
def Port.values (r : Port) : List Nat :=
  [codeIn portStates r.state, ofBool r.enabled, match r.width with | .w16 => 16 | .w24 => 24, r.lockCount,
    ofOptionNat 4 (r.lastSeq.map BitVec.toNat), r.missCount, r.outSeq.toNat, r.frameErrors, r.slips]

/-- R14. -/
def Timing.values (t : Timing) : List Nat :=
  [codeIn refSources t.selected, codeIn refSources t.active, ofBool t.refclkPresent, t.period.toNat, t.sample.toNat]

/-- R45. -/
def Source.values (r : Source) : List Nat :=
  [ofBool r.enabled, r.trim.val, r.isolation, r.peakHold, ofBool r.gapped, r.gapCounter]

/-- R50. -/
def Dest.values (r : Dest) : List Nat :=
  [ofBool r.enabled, codeIn destKinds r.kind, r.outputLevel.val, r.appliedOutput, r.dimCode.val, ofOption 1 r.circuit,
    r.clipCounter]

/-- R57. -/
def Station.values (r : Station) : List Nat := [codeIn stationKinds r.kind, ofOption 2 r.source, ofOption 2 r.dest]

/-- R99, R29: the reply list as a count and four stations, newest first, unused elements zero. -/
def replyListValue (l : List ReplyEntry) : Nat :=
  natOfBytes (slice (BitVec.ofNat 8 l.length :: l.map fun e => BitVec.ofNat 8 e.station.val) 0 5)

/-- R99. -/
def Panel.values (r : Panel) : List Nat :=
  let e := r.encoders.toList
  [ofBool r.configured, r.port.val, r.node.toNat, r.ownStation.val, codeIn lossPolicies r.lossPolicy, r.latchWindow,
      r.replyExpiry, codeIn onlineStates r.online] ++
    e.map (fun x => codeIn encoderModes x.mode) ++ e.map (fun x => codeIn encoderTargets x.target) ++
    e.map (fun x => x.minimum.val) ++ e.map (fun x => x.maximum.val) ++
    e.map (fun x => (x.residue % 256).toNat) ++
    [replyListValue r.replyList, r.lampPending.toNat, ofBool r.cadencePending]

/-- R108. -/
def Key.values (r : Key) : List Nat :=
  [codeIn keyFunctions r.function, ofOption 2 r.target, codeIn keyModes r.mode, codeIn priorities r.priority,
    r.talkLevel.val, codeIn keyStates r.state, ofBool r.down, codeIn standings r.standing, ofOption 1 r.resolved,
    ofBool r.winkTimer.isSome]

/-- R124, R29: a member element: its station, then bit 0 of the second byte the talk flag, bit 1 the listen flag, the
other bits zero; an absent element is all ones at its two bytes (DEDUCED, notes/assumptions/33.md). -/
def memberValue (m : Option Member) : Nat :=
  match m with
  | some m => m.station.val * 256 + ofBool m.talk + 2 * ofBool m.listen
  | none => 65535

/-- R124. -/
def Party.values (r : Party) : List Nat :=
  [ofBool r.enabled, r.level.val, r.members.length] ++ (List.range 24).map fun i => memberValue r.members[i]?

/-- R157: an outstanding probe: its tag in two bytes and its sent count in four; absent is all ones. -/
def probeValue (p : Option Probe) : Nat :=
  match p with
  | some p => p.tag.toNat * 2 ^ 32 + p.sent.toNat
  | none => 2 ^ 48 - 1

/-- R157. -/
def Circuit.values (r : Circuit) : List Nat :=
  [ofBool r.enabled, codeIn circuitStates r.state, r.reporter.val, r.gateway.toNat, r.probeInterval, r.probeTimeout,
      r.upperLimit, r.lowerLimit, r.degradeCode.val, r.silenceThreshold, r.silenceTime, ofOptionNat 2 r.estimate,
      ofOptionNat 2 r.last, ofOptionNat 2 r.previous, r.lostInARow, r.strayEchoes, ofBool r.silent, r.silentMs,
      r.tagGenerator.toNat, r.outstanding.length] ++
    (List.range 4).map fun i => probeValue r.outstanding[i]?

/-- R175. -/
def Tap.values (r : Tap) : List Nat :=
  [ofBool r.enabled, codeIn tapSides r.side, r.base.toNat, r.mask.toNat, r.monitor.val, r.level.val, ofBool r.forward,
    r.applied]

/-- R190. -/
def Cadence.values (r : Cadence) : List Nat := [r.period, r.bright, r.dim, r.brightLevel, r.dimLevel]

/-- R194. -/
def Event.values (r : Event) : List Nat :=
  [ofBool r.isSet, r.count, ofOptionNat 2 r.inst, ofBool r.enable, codeIn eventRoutes r.route]

/-- R30: the fields of record i of a table as they stand. -/
def State.values (s : State) (t : TableName) (i : Nat) : List Nat :=
  match t with
  | .port => if i = 4 then s.timing.values else ((indexIn 4 i).map fun j => (s.port j).values).getD []
  | .source => ((indexIn 256 i).map fun j => (s.source j).values).getD []
  | .destination => ((indexIn 256 i).map fun j => (s.dest j).values).getD []
  | .station => ((indexIn 192 i).map fun j => (s.station j).values).getD []
  | .panel => ((indexIn 48 i).map fun j => (s.panel j).values).getD []
  | .key => ((indexIn 1536 i).map fun j => (s.key j).values).getD []
  | .party => ((indexIn 16 i).map fun j => (s.party j).values).getD []
  | .circuit => ((indexIn 16 i).map fun j => (s.circuit j).values).getD []
  | .tap => ((indexIn 8 i).map fun j => (s.tap j).values).getD []
  | .cadence => ((indexIn 8 i).map fun j => (s.cadence j).values).getD []
  | .event => ((indexIn 15 i).map fun j => (tget s.events j).values).getD []

end Sys2Proof.Machine
end

