-- ==== Sys2Proof/Machine/Rows.lean ====
section
/-! DEFINITION. Machine/Rows.lean: which record writes each write row of the opcode table stands for: its table, and
what its mask names (notes/assumptions/4.md). -/

namespace Sys2Proof.Machine

/-- The values name some field of a list. -/
def namesAny (l : List FieldValue) (fields : List Nat) : Bool := fields.any fun f => names l f

/-- The values name a yes/no field with yes. -/
def isYes (l : List FieldValue) (f : Nat) : Bool := l.lookup f == some 1

/-- The values name a yes/no field with no. -/
def isNo (l : List FieldValue) (f : Nat) : Bool := l.lookup f == some 0

/-- The table's code (R42). -/
def TableName.code (t : TableName) : Byte := BitVec.ofNat 8 (codeIn allTables t)

/-- The values a RECORD_WRITE names. -/
def writtenValues (t : TableName) (index : BitVec 16) (mask : BitVec 32) (values : List Byte) : List FieldValue :=
  namedValues (t.widths index.toNat) mask values

/-- PORT_ENABLE (R13): record 0..3, enabled yes. -/
def isPortEnable (i : Nat) (l : List FieldValue) : Bool := i < 4 && isYes l 1

/-- PORT_DISABLE (R13): record 0..3, enabled no. -/
def isPortDisable (i : Nat) (l : List FieldValue) : Bool := i < 4 && isNo l 1

/-- OUTGOING_WIDTH_WRITE (R13): record 0..3, outgoing width. -/
def isOutgoingWidthWrite (i : Nat) (l : List FieldValue) : Bool := i < 4 && names l 2

/-- REFERENCE_SELECT (R19): record 4, selected reference. -/
def isReferenceSelect (i : Nat) (l : List FieldValue) : Bool := i == 4 && names l 0

/-- SOURCE_WRITE (R46): enabled, trim or gap counter. -/
def isSourceWrite (_i : Nat) (l : List FieldValue) : Bool := namesAny l [0, 1, 5]

/-- DESTINATION_KIND_WRITE (R56): kind. -/
def isDestinationKindWrite (_i : Nat) (l : List FieldValue) : Bool := names l 1

/-- DESTINATION_ENABLE_WRITE (R52): enabled. -/
def isDestinationEnableWrite (_i : Nat) (l : List FieldValue) : Bool := names l 0

/-- OUTPUT_LEVEL_WRITE (R53): output level. -/
def isOutputLevelWrite (_i : Nat) (l : List FieldValue) : Bool := names l 2

/-- DIM_CODE_WRITE (R54): dim code. -/
def isDimCodeWrite (_i : Nat) (l : List FieldValue) : Bool := names l 4

/-- CLIP_COUNTER_WRITE (R55): clip counter. -/
def isClipCounterWrite (_i : Nat) (l : List FieldValue) : Bool := names l 6

/-- STATION_WRITE (R58): kind, source or destination. -/
def isStationWrite (_i : Nat) (l : List FieldValue) : Bool := namesAny l [0, 1, 2]

/-- PANEL_CONFIGURE (R100): configured yes. -/
def isPanelConfigure (_i : Nat) (l : List FieldValue) : Bool := isYes l 0

/-- PANEL_UNCONFIGURE (R100): configured no. -/
def isPanelUnconfigure (_i : Nat) (l : List FieldValue) : Bool := isNo l 0

/-- PANEL_SETTINGS_WRITE (R101): any other writable field. -/
def isPanelSettingsWrite (_i : Nat) (l : List FieldValue) : Bool := namesAny l ([1, 2, 3, 4, 5, 6] ++ (List.range 16).map (· + 8))

/-- KEY_WRITE (R109): function, target, mode, priority or talk level. -/
def isKeyWrite (_i : Nat) (l : List FieldValue) : Bool := namesAny l [0, 1, 2, 3, 4]

/-- PARTY_ENABLE (R132): enabled yes. -/
def isPartyEnable (_i : Nat) (l : List FieldValue) : Bool := isYes l 0

/-- PARTY_DISABLE (R132): enabled no. -/
def isPartyDisable (_i : Nat) (l : List FieldValue) : Bool := isNo l 0

/-- PARTY_LEVEL_WRITE (R132): level. -/
def isPartyLevelWrite (_i : Nat) (l : List FieldValue) : Bool := names l 1

/-- CIRCUIT_ENABLE (R159): enabled yes. -/
def isCircuitEnable (_i : Nat) (l : List FieldValue) : Bool := isYes l 0

/-- CIRCUIT_DISABLE (R160): enabled no. -/
def isCircuitDisable (_i : Nat) (l : List FieldValue) : Bool := isNo l 0

/-- CIRCUIT_SETTINGS_WRITE (R158): any other writable field. -/
def isCircuitSettingsWrite (_i : Nat) (l : List FieldValue) : Bool := namesAny l [2, 3, 4, 5, 6, 7, 8, 9, 10, 15]

/-- TAP_ENABLE (R178): enabled yes. -/
def isTapEnable (_i : Nat) (l : List FieldValue) : Bool := isYes l 0

/-- TAP_DISABLE (R183): enabled no. -/
def isTapDisable (_i : Nat) (l : List FieldValue) : Bool := isNo l 0

/-- TAP_LEVEL_WRITE (R182): level. -/
def isTapLevelWrite (_i : Nat) (l : List FieldValue) : Bool := names l 5

/-- TAP_SETTINGS_WRITE (R177): side, base, mask, monitor destination or forward. -/
def isTapSettingsWrite (_i : Nat) (l : List FieldValue) : Bool := namesAny l [1, 2, 3, 4, 6]

/-- CADENCE_WRITE (R190). -/
def isCadenceWrite (_i : Nat) (l : List FieldValue) : Bool := namesAny l [0, 1, 2, 3, 4]

/-- EVENT_WRITE (R198): enable or route. -/
def isEventWrite (_i : Nat) (l : List FieldValue) : Bool := namesAny l [3, 4]

end Sys2Proof.Machine
end

