-- ==== Sys2Proof/Machine/Writes.lean ====
section
/-! DEFINITION. Machine/Writes.lean: the write of one record of each table (R31), with its chapter's checks and effects.
`X.updated` gives the record with its named fields at their new values, or none for BAD_VALUE; `writeX` makes the
chapter's checks and effects, and leaves the state as it stands with any result but OK. -/

namespace Sys2Proof.Machine

/-- The outcome of one record write: the state, and the result for the reply. -/
abbrev Written := State × Result

/-! ## PORT (R13, R19) -/

/-- R13: an outgoing width is 16 or 24. -/
def widthField (l : List FieldValue) (f : Nat) (old : Width) : Option Width :=
  match l.lookup f with
  | none => some old
  | some v => if v = 16 then some .w16 else if v = 24 then some .w24 else none

/-- R13: the fields a write of PORT 0..3 may name. -/
def Port.updated (r : Port) (l : List FieldValue) : Option Port :=
  match boolField l 1 r.enabled, widthField l 2 r.width with
  | some e, some w => some { r with enabled := e, width := w }
  | _, _ => none

/-- R13. -/
def writePort (x : PortId) (l : List FieldValue) (s : State) : Written :=
  match (s.port x).updated l with
  | none => (s, .badValue)
  | some r =>
    if names l 1 && !r.enabled && s.straps.mgmt == x then (s, .inUse)
    else
      let s1 := s.setPort x { s.port x with width := r.width }
      (if names l 1 then (if r.enabled then enablePort x s1 else disablePort x s1) else s1, .ok)

/-- R19. -/
def writeReference (l : List FieldValue) (s : State) : Written :=
  match enumField l 0 refSources s.timing.selected with
  | none => (s, .badValue)
  | some r => (selectReference r s, .ok)

/-! ## SOURCE (R46) -/

/-- R46. -/
def Source.updated (r : Source) (l : List FieldValue) : Option Source :=
  match boolField l 0 r.enabled, numberField l 5 r.gapCounter 65535 with
  | some e, some g => some { r with enabled := e, trim := levelField l 1 r.trim, gapCounter := g }
  | _, _ => none

/-- R46. -/
def writeSource (n : SourceId) (l : List FieldValue) (s : State) : Written :=
  match (s.source n).updated l with
  | none => (s, .badValue)
  | some r => (s.setSource n r, .ok)

/-! ## DESTINATION (R52 to R56) -/

/-- R50. -/
def Dest.updated (r : Dest) (l : List FieldValue) : Option Dest :=
  match boolField l 0 r.enabled, enumField l 1 destKinds r.kind, numberField l 6 r.clipCounter 65535 with
  | some e, some k, some c =>
    some
      { r with enabled := e, kind := k, outputLevel := levelField l 2 r.outputLevel,
               dimCode := levelField l 4 r.dimCode, clipCounter := c }
  | _, _, _ => none

/-- R51: the number of destinations of IFB kind. -/
def State.ifbCount (s : State) : Nat := (s.dests.toList.filter fun r => r.kind == .ifb).length

/-- R56: the first check that a change of destination d's kind fails, OK if none does. -/
def State.kindCheck (s : State) (d : DestId) (k : DestKind) : Result :=
  let a := s.arbiter d
  if !(s.entriesOf d).isEmpty || a.current.isSome || !a.waiting.isEmpty ||
      ((allOf 8).any fun t => (s.tap t).enabled && (s.tap t).monitor == d) || (s.dest d).circuit.isSome then .inUse
  else if k = .monitor ∧ (allOf 192).any fun t => (s.station t).dest == some d then .wrongKind
  else if (s.dest d).kind = .ifb ∧
      (allOf 192).any fun t => (s.station t).kind == .reporter && (s.station t).dest == some d then .wrongKind
  else if k = .ifb ∧ Config.ifbCap ≤ s.ifbCount then .full
  else .ok

/-- R50, R56: a change of kind attaches an empty arbiter or gives it back. -/
def writeDest (d : DestId) (l : List FieldValue) (s : State) : Written :=
  match (s.dest d).updated l with
  | none => (s, .badValue)
  | some r =>
    if r.kind = (s.dest d).kind then (s.setDest d r, .ok)
    else
      match s.kindCheck d r.kind with
      | .ok => ((s.setDest d r).setArbiter d Arbiter.empty, .ok)
      | e => (s, e)

/-! ## STATION (R58 to R60) -/

/-- R57, R58: a source or destination is 0..255 or absent. -/
def Station.updated (r : Station) (l : List FieldValue) : Option Station :=
  match enumField l 0 stationKinds r.kind, optionalField l 1 65535 r.source, optionalField l 2 65535 r.dest with
  | some k, some a, some b => some { kind := k, source := a, dest := b }
  | _, _, _ => none

/-- R58: the checks on the station record as it would stand, in their sequence. -/
def State.stationCheck (s : State) (t : StationId) (r : Station) : Result :=
  if r.kind = .unused ∧ (r.source.isSome ∨ r.dest.isSome) then .badValue
  else if r.kind = .reporter ∧ r.dest = none then .badValue
  else if s.stationInUse t then .inUse
  else
    match r.dest with
    | some d =>
      if (s.dest d).kind = .monitor then .wrongKind
      else if r.kind = .reporter ∧ (s.dest d).kind ≠ .ifb then .wrongKind
      else .ok
    | none => .ok

/-- R58, R60. -/
def writeStation (t : StationId) (l : List FieldValue) (s : State) : Written :=
  match (s.station t).updated l with
  | none => (s, .badValue)
  | some r =>
    match s.stationCheck t r with
    | .ok => (handStation t (s.setStation t r), .ok)
    | e => (s, e)

/-! ## PANEL (R100, R101) -/

/-- R99, R101: encoder i of a panel; naming its mode or target sets its residue to 0. -/
def Encoder.updated (e : Encoder) (l : List FieldValue) (i : Nat) : Option Encoder :=
  match enumField l (8 + i) encoderModes e.mode, enumField l (12 + i) encoderTargets e.target with
  | some m, some t =>
    some
      { mode := m, target := t, minimum := levelField l (16 + i) e.minimum, maximum := levelField l (20 + i) e.maximum,
        residue := if names l (8 + i) || names l (12 + i) then 0 else e.residue }
  | _, _ => none

/-- R99. -/
def Panel.updated (r : Panel) (l : List FieldValue) : Option Panel :=
  match boolField l 0 r.configured, indexField l 1 r.port, numberField l 2 r.node.toNat 63, indexField l 3 r.ownStation,
    enumField l 4 lossPolicies r.lossPolicy with
  | some c, some p, some n, some o, some pol =>
    match (tget r.encoders 0).updated l 0, (tget r.encoders 1).updated l 1, (tget r.encoders 2).updated l 2,
      (tget r.encoders 3).updated l 3 with
    | some e0, some e1, some e2, some e3 =>
      some
        { r with configured := c, port := p, node := BitVec.ofNat 6 n, ownStation := o, lossPolicy := pol,
                 latchWindow := timeField l 5 r.latchWindow 10 100 1000,
                 replyExpiry := timeField l 6 r.replyExpiry 1 2 60, encoders := #v[e0, e1, e2, e3] }
    | _, _, _, _ => none
  | _, _, _, _, _ => none

/-- R100: the checks on the panel record as it would stand, in their sequence. -/
def State.panelCheck (s : State) (p : PanelId) (r : Panel) (l : List FieldValue) : Result :=
  let old := s.panel p
  let place := names l 1 || names l 2 || names l 3
  if r.encoders.toList.any fun e => decide (e.maximum < e.minimum) then .badValue
  else if old.online = .online ∧ (names l 0 || place) then .inUse
  else if old.online = .offline ∧ place ∧ (panelKeys p).any fun k => (s.key k).state.isOn then .inUse
  else if r.configured ∧
      (allOf 48).any fun q =>
        q != p && (s.panel q).configured && (s.panel q).port == r.port && (s.panel q).node == r.node then .duplicate
  else .ok

/-- R101: the fields of a panel are stored, but for configured; a write naming own station re-derives its keys. -/
def storePanel (p : PanelId) (r : Panel) (l : List FieldValue) (s : State) : State :=
  let s1 := s.setPanel p { r with configured := (s.panel p).configured }
  if names l 3 then handPanel p s1 else s1

/-- R100: a panel's configured setting goes from `was` to `now`: configured, it enters OFFLINE; unconfigured, it is
released. -/
def configurePanel (p : PanelId) (was now : Bool) (s : State) : State :=
  match was, now with
  | false, true => s.setPanel p { s.panel p with configured := true, online := .offline }
  | true, false => unconfigure p s
  | false, false => s
  | true, true => s

/-- R100, R101. -/
def writePanel (p : PanelId) (l : List FieldValue) (s : State) : Written :=
  match (s.panel p).updated l with
  | none => (s, .badValue)
  | some r =>
    match s.panelCheck p r l with
    | .ok => (configurePanel p (s.panel p).configured r.configured (storePanel p r l s), .ok)
    | e => (s, e)

/-! ## KEY (R109) -/

/-- R108. -/
def Key.updated (r : Key) (l : List FieldValue) : Option Key :=
  match enumField l 0 keyFunctions r.function, optionalField l 1 65535 r.target, enumField l 2 keyModes r.mode,
    enumField l 3 priorities r.priority with
  | some f, some t, some m, some p =>
    some { r with function := f, target := t, mode := m, priority := p, talkLevel := levelField l 4 r.talkLevel }
  | _, _, _, _ => none

/-- R109, R108: the target against the range its function gives it. -/
def Key.targetOk (r : Key) : Bool :=
  match r.function with
  | .unassigned | .reply => true
  | .talkStation | .listenStation | .callStation => (r.target.bind asStation).isSome
  | .talkParty => (r.target.bind asParty).isSome
  | .ifb => r.target.isSome

/-- R109. -/
def writeKey (k : KeyId) (l : List FieldValue) (s : State) : Written :=
  match (s.key k).updated l with
  | none => (s, .badValue)
  | some r =>
    if !r.targetOk then (s, .badValue)
    else if (s.key k).state ≠ .idle then (s, .inUse)
    else
      let s1 := s.setKey k r
      (if names l 0 || names l 1 then handKey k s1 else s1, .ok)

/-! ## PARTY (R132) -/

/-- R124. -/
def Party.updated (r : Party) (l : List FieldValue) : Option Party :=
  match boolField l 0 r.enabled with
  | some e => some { r with enabled := e, level := levelField l 1 r.level }
  | none => none

/-- R132. -/
def writeParty (p : PartyId) (l : List FieldValue) (s : State) : Written :=
  match (s.party p).updated l with
  | none => (s, .badValue)
  | some r => (changeParty p r s, .ok)

/-! ## CIRCUIT (R158 to R160) -/

/-- R157, R158. -/
def Circuit.updated (r : Circuit) (l : List FieldValue) : Option Circuit :=
  match boolField l 0 r.enabled, indexField l 2 r.reporter, numberField l 3 r.gateway.toNat 63,
    numberField l 6 r.upperLimit 65535, numberField l 7 r.lowerLimit 65535,
    numberField l 9 r.silenceThreshold 8388608, numberField l 15 r.strayEchoes 65535 with
  | some e, some st, some g, some u, some lo, some th, some x =>
    some
      { r with enabled := e, reporter := st, gateway := BitVec.ofNat 6 g,
               probeInterval := timeField l 4 r.probeInterval 1 100 5000,
               probeTimeout := timeField l 5 r.probeTimeout 1 200 1365, upperLimit := u, lowerLimit := lo,
               degradeCode := levelField l 8 r.degradeCode, silenceThreshold := th,
               silenceTime := timeField l 10 r.silenceTime 1 1000 60000, strayEchoes := x }
  | _, _, _, _, _, _, _ => none

/-- R158, R159: the checks of a circuit write, in their sequence. -/
def State.circuitCheck (s : State) (c : CircuitId) (r : Circuit) (l : List FieldValue) : Result :=
  let old := s.circuit c
  let st := s.station r.reporter
  if r.upperLimit ≤ r.lowerLimit then .badValue
  else if (names l 2 || names l 3) ∧ old.state ≠ .disabled then .inUse
  else if r.enabled ∧ !old.enabled then
    if st.kind ≠ .reporter then .wrongKind
    else
      match st.dest with
      | some d => if (s.dest d).circuit.isSome then .inUse else .ok
      | none => .wrongKind
  else .ok

/-- R159, R160: a circuit's enabled setting goes from `was` to its stored value. -/
def switchCircuit (c : CircuitId) (was : Bool) (s : State) : State :=
  match was, (s.circuit c).enabled with
  | false, true =>
    match (s.station (s.circuit c).reporter).dest with
    | some d => enableCircuit c d s
    | none => s
  | true, false => disableCircuit c s
  | false, false => s
  | true, true => s

/-- R158 to R160: the fields are stored; then the circuit is enabled or disabled. Where one write names the stray echo
counter and changes enabled, the counter ends at 0 (DESIGN CHOICE, notes/assumptions/32.md). -/
def writeCircuit (c : CircuitId) (l : List FieldValue) (s : State) : Written :=
  match (s.circuit c).updated l with
  | none => (s, .badValue)
  | some r =>
    match s.circuitCheck c r l with
    | .ok => (switchCircuit c (s.circuit c).enabled (s.setCircuit c r), .ok)
    | e => (s, e)

/-! ## TAP (R177 to R183) -/

/-- R175; R88: a write naming side, base, mask or monitor destination sets the applied factor to 0. -/
def Tap.updated (r : Tap) (l : List FieldValue) : Option Tap :=
  match boolField l 0 r.enabled, enumField l 1 tapSides r.side, numberField l 2 r.base.toNat 255,
    numberField l 3 r.mask.toNat 255, indexField l 4 r.monitor, boolField l 6 r.forward with
  | some e, some sd, some b, some m, some d, some f =>
    some
      { enabled := e, side := sd, base := BitVec.ofNat 8 b, mask := BitVec.ofNat 8 m, monitor := d,
        level := levelField l 5 r.level, forward := f,
        applied := if names l 1 || names l 2 || names l 3 || names l 4 then 0 else r.applied }
  | _, _, _, _, _, _ => none

/-- R176: the number of bits set in a mask. -/
def bitCount (m : BitVec 8) : Nat := ((List.range 8).filter fun i => m.getLsbD i).length

/-- R69, R179: the matched sources whose pair with the monitor destination has no entry. -/
def State.absentPairs (s : State) (r : Tap) : Nat :=
  (r.matched.filter fun n => (s.findEntry n r.monitor).isNone).length

/-- R178 to R180: the checks of an enable, in their sequence. -/
def State.tapCheck (s : State) (r : Tap) : Result :=
  match r.side with
  | .source =>
    if 5 < bitCount r.mask then .badValue
    else if (s.dest r.monitor).kind ≠ .monitor then .wrongKind
    else if s.absentPairs r = 0 ∨ s.hasRoom r.monitor (s.absentPairs r) then .ok else .full
  | .destination =>
    if 2 < bitCount r.mask then .badValue
    else if tapMatches r.base r.mask r.monitor then .badValue
    else if (s.dest r.monitor).kind ≠ .monitor then .wrongKind
    else if s.contributionCount r.monitor + r.matched.length ≤ Config.contributionCap then .ok else .full

/-- R181: the isolation count of source n moves. -/
def isolate (up : Bool) (s : State) (n : SourceId) : State :=
  let r := s.source n
  s.setSource n { r with isolation := if up then r.isolation + 1 else r.isolation - 1 }

/-- R179, R180: an accepted enable of tap t, whose record r is already stored. -/
def enableTap (t : TapId) (r : Tap) (s : State) : State :=
  match r.side with
  | .source =>
    let s1 := r.matched.foldl (fun s n => (arrive (.tap t) r.level .talk n r.monitor s).1) s
    if r.forward then s1 else r.matched.foldl (isolate true) s1
  | .destination => s

/-- R183: a tap is disabled. -/
def disableTap (t : TapId) (r : Tap) (s : State) : State :=
  match r.side with
  | .source =>
    let s1 := r.matched.foldl (fun s n => depart (.tap t) n r.monitor s) s
    if r.forward then s1 else r.matched.foldl (isolate false) s1
  | .destination => s

/-- R182: the level of an enabled SOURCE-side tap is written into every matched pair's entry. -/
def tapLevel (r : Tap) (s : State) : State :=
  match r.side with
  | .source => r.matched.foldl (fun s n => writeEntryLevel r.level n r.monitor s) s
  | .destination => s

/-- R177: naming any field but enabled and level. -/
def namesTapSettings (l : List FieldValue) : Bool := names l 1 || names l 2 || names l 3 || names l 4 || names l 6

/-- R182, R183: an accepted write to tap t that enables nothing, whose record r is already stored: a level acts on an
enabled tap, and a tap is disabled. -/
def settleTap (t : TapId) (was : Bool) (r : Tap) (l : List FieldValue) (s : State) : State :=
  let s1 := if was && names l 5 then tapLevel r s else s
  if was && !r.enabled then disableTap t r s1 else s1

/-- R177 to R183: the fields are stored first; then a level acts on an enabled tap, and the tap is enabled or disabled. -/
def writeTap (t : TapId) (l : List FieldValue) (s : State) : Written :=
  let was := (s.tap t).enabled
  match (s.tap t).updated l with
  | none => (s, .badValue)
  | some r =>
    if was && namesTapSettings l then (s, .inUse)
    else if r.enabled && !was then
      match s.tapCheck r with
      | .ok => (enableTap t r (s.setTap t r), .ok)
      | e => (s, e)
    else (settleTap t was r l (s.setTap t r), .ok)

/-! ## CADENCE (R190) -/

/-- R190: a time of the table, settled against its top: a named value is rounded and clamped, a stored one that lies
outside is BAD_VALUE. -/
def cadenceTime (l : List FieldValue) (f old top : Nat) : Option Nat :=
  match l.lookup f with
  | some v => some (min top (v / 10 * 10))
  | none => if old ≤ top then some old else none

/-- R190: the period is settled first, then the bright time, then the dim time. -/
def Cadence.updated (r : Cadence) (l : List FieldValue) : Option Cadence :=
  let period := timeField l 0 r.period 10 100 2550
  match numberField l 3 r.brightLevel 15, numberField l 4 r.dimLevel 15, cadenceTime l 1 r.bright period with
  | some bl, some dl, some b =>
    match cadenceTime l 2 r.dim (period - b) with
    | some d => some { period := period, bright := b, dim := d, brightLevel := bl, dimLevel := dl }
    | none => none
  | _, _, _ => none

/-- R190: every ONLINE panel is marked cadence pending. -/
def markCadences (s : State) : State :=
  { s with panels := s.panels.map fun r => if r.online = .online then { r with cadencePending := true } else r }

/-- R190. -/
def writeCadence (c : CadenceId) (l : List FieldValue) (s : State) : Written :=
  match (s.cadence c).updated l with
  | none => (s, .badValue)
  | some r =>
    let s1 := s.setCadence c r
    (if c.val < 6 then markCadences s1 else s1, .ok)

/-! ## EVENT (R198) -/

/-- R194, R198. -/
def Event.updated (r : Event) (l : List FieldValue) : Option Event :=
  match boolField l 3 r.enable, enumField l 4 eventRoutes r.route with
  | some e, some x => some { r with enable := e, route := x }
  | _, _ => none

/-- R198: an accepted write produces no notice; the alarm line follows the records (R197). -/
def writeEvent (k : Fin 15) (l : List FieldValue) (s : State) : Written :=
  match (tget s.events k).updated l with
  | none => (s, .badValue)
  | some r => ({ s with events := tset s.events k r }, .ok)

/-! ## Any table -/

/-- The write of a record whose index the table may lack. -/
def atIndex (n i : Nat) (w : Fin n → State → Written) (s : State) : Written :=
  match indexIn n i with
  | some j => w j s
  | none => (s, .badIndex)

/-- R31: the write of record i of a table, mask and writability already checked. -/
def writeRecord (t : TableName) (i : Nat) (l : List FieldValue) (s : State) : Written :=
  match t with
  | .port => if i = 4 then writeReference l s else atIndex 4 i (fun j => writePort j l) s
  | .source => atIndex 256 i (fun j => writeSource j l) s
  | .destination => atIndex 256 i (fun j => writeDest j l) s
  | .station => atIndex 192 i (fun j => writeStation j l) s
  | .panel => atIndex 48 i (fun j => writePanel j l) s
  | .key => atIndex 1536 i (fun j => writeKey j l) s
  | .party => atIndex 16 i (fun j => writeParty j l) s
  | .circuit => atIndex 16 i (fun j => writeCircuit j l) s
  | .tap => atIndex 8 i (fun j => writeTap j l) s
  | .cadence => atIndex 8 i (fun j => writeCadence j l) s
  | .event => atIndex 15 i (fun j => writeEvent j l) s

/-- R31, R32: whether an encoding, an enumeration or a range of the values lies outside its field, the same for every
record. -/
def fieldsRefused (t : TableName) (i : Nat) (l : List FieldValue) : Bool :=
  match t with
  | .port =>
    if i = 4 then (enumField l 0 refSources RefSource.internal).isNone else ((Port.reset false).updated l).isNone
  | .source => (Source.reset.updated l).isNone
  | .destination => (Dest.reset.updated l).isNone
  | .station => (Station.reset.updated l).isNone
  | .panel => (Panel.reset.updated l).isNone
  | .key => (Key.reset.updated l).isNone
  | .party => (Party.reset.updated l).isNone
  | .circuit => ((Circuit.reset 0).updated l).isNone
  | .tap => (Tap.reset.updated l).isNone
  | .cadence => (numberField l 3 0 15).isNone || (numberField l 4 0 15).isNone
  | .event => ((Event.reset true .notice).updated l).isNone

/-- R32, R31, R100, R109, R158: whether the values alone break a limit between two fields, whatever a record holds in the
fields they do not name: a CIRCUIT's upper limit above its lower, an encoder's minimum not above its maximum, a KEY's
target in its function's range. R58 has a FILL check a STATION's sides by its kind at each record's own step. -/
def limitsRefused (t : TableName) (l : List FieldValue) : Bool :=
  match t with
  | .panel =>
    (List.range 4).any fun i =>
      names l (16 + i) && names l (20 + i) && decide (levelField l (20 + i) 0 < levelField l (16 + i) 0)
  | .circuit => decide ((l.lookup 6).getD 65535 ≤ (l.lookup 7).getD 0)
  | .key => names l 0 && names l 1 && (Key.reset.updated l).any fun r => !r.targetOk
  | .port | .source | .destination | .station | .party | .tap | .cadence | .event => false

/-- R32: the check of FILL's values at acceptance: what is BAD_VALUE for every record alike (notes/assumptions/24.md). -/
def valuesRefused (t : TableName) (i : Nat) (l : List FieldValue) : Bool := fieldsRefused t i l || limitsRefused t l

/-- R29, R31: the mask of a write of record i. -/
def writeMaskOk (t : TableName) (i area : Nat) (mask : BitVec 32) : Bool :=
  maskOk (t.widths i) area mask && (maskFields mask).all fun f => (t.writable i).contains f

/-- R31: one record write: mask, values, then the table's own checks and effects. -/
def recordWrite (t : TableName) (i area : Nat) (mask : BitVec 32) (values : List Byte) (s : State) : Written :=
  if writeMaskOk t i area mask then writeRecord t i (namedValues (t.widths i) mask values) s else (s, .badValue)

end Sys2Proof.Machine
end

