-- ==== Sys2Proof/Machine/Orders.lean ====
section
/-! DEFINITION. Machine/Orders.lean: the order unit (spec/02, 2.4 to 2.9; spec/04, 4.5; spec/07, 7.3; spec/12, 12.4): when
a unit is taken, what each order and each block step does, and the replies they build. -/

namespace Sys2Proof.Machine

/-! ## When a unit is taken (R27) -/

/-- R27: the order unit may take a unit at the running instant: the part runs, no RESTART has been executed (R39), and
no unit has been taken at this instant. -/
def State.unitFree (s : State) : Bool := s.phase == .running && s.restart == .absent && !s.unitTaken

/-- R27: the next unit is the head order: no block is in flight, or the last unit was a step. -/
def State.orderTurn (s : State) : Bool := s.block.isNone || s.lastUnit == .step

/-- R27: the next unit is a step: a block is in flight and no order waits, or the last unit was an order. -/
def State.stepTurn (s : State) : Bool := s.block.isSome && (s.orders.isEmpty || s.lastUnit == .order)

/-- R27: the reply queue has n free positions. -/
def State.replyRoom (s : State) (n : Nat) : Bool := decide (s.replies.length + n ≤ Config.replyCap)

/-- R27: the free reply positions an order's unit needs. -/
def State.roomNeeded (s : State) : Order → Nat
  | .restart => 0
  | .clearDynamic => if s.block.isSome then 2 else 1
  | _ => 1

/-- R27: the order is at the head of the order queue with its tag, and its unit can be taken now. -/
def State.headIs (s : State) (tag : Byte) (o : Order) : Bool :=
  match s.orders with
  | c :: _ => c.tag == tag && readOrder c.body == o
  | [] => false

/-- R27: whether the unit of the order o with its tag can be taken now. -/
def State.orderReady (s : State) (tag : Byte) (o : Order) : Bool :=
  s.unitFree && s.orderTurn && s.headIs tag o && s.replyRoom (s.roomNeeded o)

/-- R27: a step of the block in flight can be taken now. -/
def State.stepReady (s : State) : Bool := s.unitFree && s.stepTurn && s.replyRoom 1

/-- R27: a unit can be taken now, of the head order or of the block in flight. -/
def State.unitDue (s : State) : Bool :=
  s.stepReady ||
    match s.orders with
    | c :: _ => s.orderReady c.tag (readOrder c.body)
    | [] => false

/-- R27: the head order leaves the queue as its unit is taken. -/
def takeHead (s : State) : State := { s with orders := s.orders.drop 1, lastUnit := .order, unitTaken := true }

/-- R27: a step is taken. -/
def takeStep (s : State) : State := { s with lastUnit := .step, unitTaken := true }

/-- R27: the unit of an order: executed if it is the next unit and has room, else the order unit waits and nothing
changes (notes/assumptions/3.md). Lamps are derived at its end (R189). -/
def orderUnit (tag : Byte) (o : Order) (body : State → State) (s : State) : State :=
  if s.orderReady tag o then flushLamps (body (takeHead s)) else s

/-! ## Replies (R43) -/

/-- R43: byte 2: the final mark, and the count of METER_READ. -/
def markByte (final : Bool) (low : Nat) : Byte := BitVec.ofNat 8 ((if final then 128 else 0) + low)

/-- A reply is built: bytes 0 to 2, then the bytes from 3 on, a free value for each that R43 does not state. -/
def reply (tag : Byte) (code : Byte) (r : Result) (mark : Byte) (rest : List (Option Byte)) (s : State) : State :=
  { s with
      replies := s.replies ++ [{ tag := tag, body := sealBody s.draws (stated [code, r.code, mark] ++ rest) }]
      draws := s.draws + 1 }

/-- R43: the reply of an order whose bytes from 3 on are zero. -/
def plainReply (tag : Byte) (o : Order) (r : Result) (s : State) : State :=
  reply tag o.code r (markByte true 0) (stated (List.replicate 25 0)) s

/-- A value area of 20 bytes: the bytes given, zeros beyond them (R30). -/
def valueArea (values : List Byte) : List (Option Byte) := stated (slice values 0 20)

/-- A value area whose bytes the spec does not state: that of a refused read, and of a block ended with ABORTED
(notes/assumptions/6.md). -/
def noValues : List (Option Byte) := unstated 20

/-- R43: bytes 3 to 7 of a RECORD_READ or RECORD_WRITE reply, then its value area. -/
def recordReply (tag : Byte) (o : Order) (r : Result) (table : Byte) (index : BitVec 16) (values : List (Option Byte))
    (s : State) : State :=
  reply tag o.code r (markByte true 0) (stated (table :: bytesOfNat 2 index.toNat) ++ unstated 2 ++ values) s

/-! ## Record orders (R28 to R31) -/

/-- R28: the table and index checks of an order that names a record. -/
def recordCheck (table : Byte) (index : Nat) : Except Result TableName :=
  match tableOf table with
  | none => .error .badTable
  | some t => if index < t.records then .ok t else .error .badIndex

/-- R30: RECORD_READ. -/
def readUnit (tag table : Byte) (index : BitVec 16) (mask : BitVec 32) (s : State) : State :=
  let o := Order.recordRead table index mask
  match recordCheck table index.toNat with
  | .error e => recordReply tag o e table index noValues s
  | .ok t =>
    let w := t.widths index.toNat
    if maskOk w 20 mask then
      recordReply tag o .ok table index (valueArea (packFields w (s.values t index.toNat) mask 20)) s
    else recordReply tag o .badValue table index noValues s

/-- R31: RECORD_WRITE, whatever the table. -/
def writeUnit (tag table : Byte) (index : BitVec 16) (mask : BitVec 32) (values : List Byte) (s : State) : State :=
  let o := Order.recordWrite table index mask values
  match recordCheck table index.toNat with
  | .error e => recordReply tag o e table index (valueArea []) s
  | .ok t =>
    let (s1, r) := recordWrite t index.toNat 20 mask values s
    recordReply tag o r table index (valueArea []) s1

/-! ## Block orders (R32 to R36) -/

/-- R32: the indices a count handles from a start, cut at the end of the table. -/
def cutCount (start count records : Nat) (descending : Bool) : Nat :=
  if descending then min count (start + 1) else min count (records - start)

/-- R43: a reply of BLOCK_READ: table, index, count handled, and the value area. -/
def blockReadReply (tag : Byte) (r : Result) (final : Bool) (table : Byte) (index : List (Option Byte)) (handled : Nat)
    (values : List (Option Byte)) (s : State) : State :=
  reply tag 3 r (markByte final 0) (stated [table] ++ index ++ stated (bytesOfNat 2 handled) ++ values) s

/-- R43: a reply of FILL: table, index, count written; the rest is not stated. -/
def fillReply (tag : Byte) (r : Result) (table : Byte) (index : List (Option Byte)) (handled : Nat) (s : State) : State :=
  reply tag 4 r (markByte true 0) (stated [table] ++ index ++ stated (bytesOfNat 2 handled) ++ unstated 20) s

/-- R43: a reply of METER_READ: count handled, first source, eight peaks of 3 bytes. -/
def meterReply (tag : Byte) (r : Result) (final : Bool) (handled : Nat) (first : Option Byte) (peaks : List Nat)
    (s : State) : State :=
  reply tag 13 r (markByte final handled) (first :: stated (slice (peaks.flatMap (bytesOfNat 3)) 0 24)) s

/-- R43: the eight bytes of a listed entry. -/
def entryBytes (e : Entry) : List Byte :=
  [BitVec.ofNat 8 e.source.val, BitVec.ofNat 8 e.level.val,
    BitVec.ofNat 8 (ofBool (e.cls == .talk) + 2 * ofBool (e.state == .releasing) + 4 * ofBool e.static),
    BitVec.ofNat 8 e.grants.length, BitVec.ofNat 8 e.parties.length, BitVec.ofNat 8 e.taps.length] ++
    bytesOfNat 2 e.applied

/-- R43: a reply of ROUTE_LIST: count reported (saturating at 255), three entries. -/
def routeListReply (tag : Byte) (r : Result) (final : Bool) (handled : Nat) (l : List Entry) (s : State) : State :=
  reply tag 8 r (markByte final 0) (stated (BitVec.ofNat 8 (min 255 handled) :: slice (l.flatMap entryBytes) 0 24)) s

/-- R32: the direction byte. -/
def readDirection (b : Byte) : Option Bool := if b = 0 then some false else if b = 1 then some true else none

/-- R32: an accepted block order is placed in flight and builds no reply. -/
def placeBlock (b : Block) (s : State) : State := { s with block := some b }

/-- R32, R28: a block order's checks at acceptance have passed: refused BUSY if another block is in flight. -/
def acceptBlock (b : Block) (busy : State → State) (s : State) : State :=
  if s.block.isSome then busy s else placeBlock b s

/-- R32: BLOCK_READ at acceptance. -/
def blockReadUnit (tag table : Byte) (start : BitVec 16) (mask : BitVec 32) (count : BitVec 16) (direction : Byte)
    (s : State) : State :=
  let refuse := fun r => blockReadReply tag r true table (unstated 2) 0 noValues
  match recordCheck table start.toNat with
  | .error e => refuse e s
  | .ok t =>
    match readDirection direction with
    | none => refuse .badValue s
    | some down =>
      if count.toNat < 1 ∨ 256 < count.toNat ∨ !maskOk (t.widths start.toNat) 20 mask then refuse .badValue s
      else
        acceptBlock
          { tag := tag, work := .blockRead t mask down, next := start.toNat,
            remaining := cutCount start.toNat count.toNat t.records down, handled := 0 } (refuse .busy) s

/-- R32: FILL at acceptance. Its value area is 16 bytes (R42). -/
def fillUnit (tag table : Byte) (start : BitVec 16) (mask : BitVec 32) (count : BitVec 16) (direction : Byte)
    (values : List Byte) (s : State) : State :=
  let refuse := fun r => fillReply tag r table (unstated 2) 0
  match recordCheck table start.toNat with
  | .error e => refuse e s
  | .ok t =>
    match readDirection direction with
    | none => refuse .badValue s
    | some down =>
      if count.toNat < 1 ∨ 256 < count.toNat ∨ !writeMaskOk t start.toNat 16 mask ∨
          valuesRefused t start.toNat (namedValues (t.widths start.toNat) mask values) then refuse .badValue s
      else
        acceptBlock
          { tag := tag, work := .fill t mask down values, next := start.toNat,
            remaining := cutCount start.toNat count.toNat t.records down, handled := 0 } (refuse .busy) s

/-- R32: METER_READ at acceptance. -/
def meterUnit (tag start count : Byte) (s : State) : State :=
  let refuse := fun r => meterReply tag r true 0 none []
  if count.toNat < 1 ∨ 64 < count.toNat then refuse .badValue s
  else
    acceptBlock
      { tag := tag, work := .meterRead, next := start.toNat, remaining := cutCount start.toNat count.toNat 256 false,
        handled := 0 } (refuse .busy) s

/-- R32: ROUTE_LIST at acceptance: every destination is listable. -/
def routeListUnit (tag dest : Byte) (s : State) : State :=
  acceptBlock
    { tag := tag, work := .routeList dest.toFin none, next := 0, remaining := 0, handled := 0 }
    (routeListReply tag .busy true 0 []) s

/-- The next index of a block. -/
def moveIndex (i : Nat) (descending : Bool) : Nat := if descending then i - 1 else i + 1

/-- R33: the block after a step that handled n indices, if any are left. -/
def Block.advance (b : Block) (next n : Nat) : Option Block :=
  if b.remaining ≤ n then none
  else some { b with next := next, remaining := b.remaining - n, handled := b.handled + n }

/-- R33: the block in flight after a step. -/
def State.withBlock (s : State) (b : Option Block) : State := { s with block := b }

/-- R33: a step of BLOCK_READ. -/
def blockReadStep (b : Block) (t : TableName) (mask : BitVec 32) (down : Bool) (s : State) : State :=
  let w := t.widths b.next
  let index := stated (bytesOfNat 2 b.next)
  if maskOk w 20 mask then
    let last := decide (b.remaining ≤ 1)
    blockReadReply b.tag .ok last t.code index (b.handled + 1)
      (valueArea (packFields w (s.values t b.next) mask 20))
      (s.withBlock (b.advance (moveIndex b.next down) 1))
  else blockReadReply b.tag .badValue true t.code index b.handled (valueArea []) (s.withBlock none)

/-- R33: a step of FILL. -/
def fillStep (b : Block) (t : TableName) (mask : BitVec 32) (down : Bool) (values : List Byte) (s : State) : State :=
  let index := stated (bytesOfNat 2 b.next)
  let (s1, r) := recordWrite t b.next 16 mask values s
  match r with
  | .ok =>
    if b.remaining ≤ 1 then fillReply b.tag .ok t.code index (b.handled + 1) (s1.withBlock none)
    else s1.withBlock (b.advance (moveIndex b.next down) 1)
  | e => fillReply b.tag e t.code index b.handled (s1.withBlock none)

/-- The sources a step of METER_READ handles: up to eight from the next index on. -/
def meterSources (b : Block) : List SourceId := (List.range (min 8 b.remaining)).filterMap fun i => indexIn 256 (b.next + i)

/-- R35: a step of METER_READ reports up to eight peak holds and then sets each to 0. -/
def meterStep (b : Block) (s : State) : State :=
  let l := meterSources b
  let n := min 8 b.remaining
  let last := decide (b.remaining ≤ 8)
  let s1 := meterReply b.tag .ok last (b.handled + n) (some (BitVec.ofNat 8 b.next)) (l.map fun n => (s.source n).peakHold) s
  let s2 := l.foldl (fun t n => t.setSource n { t.source n with peakHold := 0 }) s1
  s2.withBlock (b.advance (b.next + n) n)

/-- R34: the entries of destination d that stand after a place, in creation order. -/
def State.entriesAfter (s : State) (d : DestId) (place : Option Nat) : List Entry :=
  (s.entriesOf d).filter fun e =>
    match place with
    | some n => decide (n < e.serial)
    | none => true

/-- R34: a step of ROUTE_LIST reports up to three entries after the block's place. -/
def routeListStep (b : Block) (d : DestId) (place : Option Nat) (s : State) : State :=
  let l := s.entriesAfter d place
  let now := l.take 3
  let last := decide (l.length ≤ 3)
  let place' := (now.getLast?.map Entry.serial).or place
  routeListReply b.tag .ok last (b.handled + now.length) now
    (s.withBlock (if last then none
      else some { b with work := .routeList d place', handled := b.handled + now.length }))

/-- R43: the index in the ABORTED reply of a FILL: that of the last record written, one step behind the next one; with none
written yet no rule states it (notes/assumptions/6.md). -/
def abortedIndex (b : Block) (down : Bool) : List (Option Byte) :=
  if b.handled = 0 then unstated 2 else stated (bytesOfNat 2 (moveIndex b.next !down))

/-- R36: CLEAR_DYNAMIC's ABORTED reply for the block in flight. -/
def abortReply (b : Block) (s : State) : State :=
  match b.work with
  | .blockRead t _ _ => blockReadReply b.tag .aborted true t.code (unstated 2) b.handled noValues s
  | .fill t _ down _ => fillReply b.tag .aborted t.code (abortedIndex b down) b.handled s
  | .meterRead => meterReply b.tag .aborted true b.handled none [] s
  | .routeList _ _ => routeListReply b.tag .aborted true b.handled [] s

/-! ## Route orders (R37, R73 to R77) -/

/-- R37: the class byte of a route. -/
def readClass (b : Byte) : Option EntryClass := if b = 0 then some .programme else if b = 1 then some .talk else none

/-- R73, R37: one route of ROUTE_ADD. -/
def addRoute (r : RouteArg) (s : State) : State × Result :=
  let src : SourceId := r.source.toFin
  let d : DestId := r.dest.toFin
  match readClass r.cls with
  | none => (s, .badValue)
  | some cls =>
    if r.level = 0 then (s, .badValue)
    else if (s.dest d).kind = .monitor then (s, .wrongKind)
    else if (s.findEntry src d).any Entry.static then (s, .duplicate)
    else
      let (s1, ok) := arrive .static (clampLevel r.level.toNat) cls src d s
      (s1, if ok then .ok else .full)

/-- R74: one route of ROUTE_REMOVE. -/
def removeRoute (r : PairArg) (s : State) : State × Result :=
  let src : SourceId := r.source.toFin
  let d : DestId := r.dest.toFin
  if (s.findEntry src d).any Entry.static then (depart .static src d s, .ok) else (s, .notFound)

/-- R75: a level moved by a nudge and kept within 1..159. -/
def nudged (l : Level) (down : Bool) (stepCode : Nat) : Level :=
  clampLevel (if down then max 1 (l.val - (stepCode + 1)) else l.val + (stepCode + 1))

/-- R75, R37: one pair of ROUTE_NUDGE: the state, its result, and the resulting level. -/
def nudgeRoute (down : Bool) (stepCode : Nat) (r : PairArg) (s : State) : State × Result × Nat :=
  let src : SourceId := r.source.toFin
  let d : DestId := r.dest.toFin
  match s.findEntry src d with
  | none => (s, .notFound, 0)
  | some e =>
    if e.static then
      let l := nudged e.level down stepCode
      (writeEntryLevel l src d s, .ok, l.val)
    else (s, .notFound, 0)

/-- R37: routes are handled in the order they stand, each seeing the effect of those before it. -/
def eachRoute {α β : Type} (f : α → State → State × β) : List α → State → State × List β
  | [], s => (s, [])
  | r :: rs, s =>
    let (s1, x) := f r s
    let (s2, xs) := eachRoute f rs s1
    (s2, x :: xs)

/-- R43: the reply of ROUTE_ADD and ROUTE_REMOVE: route count, one result per route; the rest is not stated. -/
def routeReply (tag : Byte) (o : Order) (count : Byte) (l : List Result) (s : State) : State :=
  reply tag o.code .ok (markByte true 0) (stated (count :: l.map Result.code)) s

/-- R37, R43: a route count outside 1..6 is refused BAD_VALUE and no route is handled; the reply carries the route count
(notes/assumptions/6.md). -/
def routeRefused (tag : Byte) (o : Order) (count : Byte) (s : State) : State :=
  reply tag o.code .badValue (markByte true 0) (stated [count] ++ unstated 24) s

/-- R37: whether a route count is 1 to 6. -/
def countOk (count : Byte) : Bool := decide (1 ≤ count.toNat) && decide (count.toNat ≤ 6)

/-- R37, R73: ROUTE_ADD. -/
def routeAddUnit (tag count : Byte) (routes : List RouteArg) (s : State) : State :=
  let o := Order.routeAdd count routes
  if countOk count then
    let (s1, l) := eachRoute addRoute routes s
    routeReply tag o count l s1
  else routeRefused tag o count s

/-- R37, R74: ROUTE_REMOVE. -/
def routeRemoveUnit (tag count : Byte) (routes : List PairArg) (s : State) : State :=
  let o := Order.routeRemove count routes
  if countOk count then
    let (s1, l) := eachRoute removeRoute routes s
    routeReply tag o count l s1
  else routeRefused tag o count s

/-- R37, R75: ROUTE_NUDGE. A step code above 15 makes each route BAD_VALUE; a direction other than up and down is
refused BAD_VALUE (R28). -/
def routeNudgeUnit (tag count direction stepCode : Byte) (routes : List PairArg) (s : State) : State :=
  let o := Order.routeNudge count direction stepCode routes
  match readDirection direction with
  | none => routeRefused tag o count s
  | some down =>
    if countOk count then
      let (s1, l) :=
        if stepCode.toNat ≤ 15 then eachRoute (nudgeRoute down stepCode.toNat) routes s
        else (s, routes.map fun _ => (.badValue, 0))
      reply tag o.code .ok (markByte true 0)
        (stated (count :: l.map fun x => x.1.code) ++ unstated (6 - l.length) ++
          stated (l.map fun x => BitVec.ofNat 8 x.2)) s1
    else routeRefused tag o count s

/-- R76: the static entries of a destination, in its list's order. -/
def State.statics (s : State) (d : DestId) : List Entry := (s.entriesOf d).filter Entry.static

/-- R76: the entries the swap creates on `onto` for the static sources of `from`. -/
def State.swapCreates (s : State) (source onto : DestId) : Nat :=
  ((s.statics source).filter fun e => (s.findEntry e.source onto).isNone).length

/-- R76: the checks of SWAP, in their sequence. -/
def State.swapCheck (s : State) (a b : DestId) : Result :=
  let ca := s.swapCreates b a
  let cb := s.swapCreates a b
  if a = b then .badValue
  else if (s.dest a).kind ≠ (s.dest b).kind ∨ (s.dest a).kind = .monitor ∨ (s.dest b).kind = .monitor then .wrongKind
  else if Config.contributionCap < s.contributionCount a + ca ∨ Config.contributionCap < s.contributionCount b + cb ∨
      Config.storeCap < s.storeCount + ca + cb then .full
  else .ok

/-- R77: the static holders of noted entries are cleared. -/
def clearStatics (l : List Entry) (d : DestId) (s : State) : State :=
  l.foldl (fun t e => depart .static e.source d t) s

/-- R77: a static holder for each noted entry is placed on destination d, with the noted level and class. -/
def placeStatics (l : List Entry) (d : DestId) (s : State) : State :=
  l.foldl (fun t e => (arrive .static e.level e.cls e.source d t).1) s

/-- R77: the static holders of a and b are exchanged. -/
def swapStatics (a b : DestId) (s : State) : State :=
  let ofA := s.statics a
  let ofB := s.statics b
  placeStatics ofB a (placeStatics ofA b (clearStatics ofB b (clearStatics ofA a s)))

/-- R76, R77: SWAP. -/
def swapUnit (tag a b : Byte) (s : State) : State :=
  let o := Order.swap a b
  match s.swapCheck a.toFin b.toFin with
  | .ok => plainReply tag o .ok (swapStatics a.toFin b.toFin s)
  | e => plainReply tag o e s

/-! ## Party orders (R129 to R131) -/

/-- R129: the checks of PARTY_JOIN, in their sequence; a party and station that pass. -/
def State.joinCheck (s : State) (party station listen : Byte) : Except Result (PartyId × StationId) :=
  match indexIn 16 party.toNat, indexIn 192 station.toNat with
  | some p, some t =>
    if 1 < listen.toNat then .error .badValue
    else if (s.station t).kind = .unused then .error .wrongKind
    else if ((s.party p).find t).isSome then .error .duplicate
    else if Config.memberCap ≤ (s.party p).members.length then .error .full
    else if Config.partiesPerStation ≤ s.membershipCount t then .error .full
    else .ok (p, t)
  | _, _ => .error .badIndex

/-- R129. -/
def partyJoinUnit (tag party station listen : Byte) (s : State) : State :=
  let o := Order.partyJoin party station listen
  match s.joinCheck party station listen with
  | .error e => plainReply tag o e s
  | .ok (p, t) =>
    let r := s.party p
    plainReply tag o .ok
      (changeParty p { r with members := r.members ++ [{ station := t, talk := false, listen := listen == 1 }] } s)

/-- R130. -/
def partyLeaveUnit (tag party station : Byte) (s : State) : State :=
  let o := Order.partyLeave party station
  match indexIn 16 party.toNat, indexIn 192 station.toNat with
  | some p, some t =>
    match (s.party p).find t with
    | none => plainReply tag o .notFound s
    | some m =>
      let r := s.party p
      let s1 := changeParty p { r with members := r.members.filter fun x => x.station != t } s
      plainReply tag o .ok (if m.talk then handTalk p t s1 else s1)
  | _, _ => plainReply tag o .badIndex s

/-- R131: the flags of a member after PARTY_FLAGS: each named flag takes its new value. -/
def Member.flagged (m : Member) (named values : Byte) : Member :=
  { m with talk := if named.getLsbD 0 then values.getLsbD 0 else m.talk,
           listen := if named.getLsbD 1 then values.getLsbD 1 else m.listen }

/-- R131. -/
def partyFlagsUnit (tag party station named values : Byte) (s : State) : State :=
  let o := Order.partyFlags party station named values
  match indexIn 16 party.toNat, indexIn 192 station.toNat with
  | some p, some t =>
    if named = 0 ∨ 3 < named.toNat ∨ 3 < values.toNat then plainReply tag o .badValue s
    else
      match (s.party p).find t with
      | none => plainReply tag o .notFound s
      | some m =>
        let s1 := changeParty p ((s.party p).mapMember t fun m => m.flagged named values) s
        plainReply tag o .ok (if (m.flagged named values).talk = m.talk then s1 else handTalk p t s1)
  | _, _ => plainReply tag o .badIndex s

/-! ## Status, CLEAR_DYNAMIC and RESTART (R198, R38, R39) -/

/-- R198, R43: STATUS_READ. A refused one carries the alarm line alone (R197); the flags and counts of its reply are not
stated (notes/assumptions/6.md). -/
def statusReadUnit (tag : Byte) (kinds : BitVec 16) (s : State) : State :=
  let o := Order.statusRead kinds
  let alarm : Byte := BitVec.ofNat 8 (ofBool s.alarmActive)
  if kinds.getLsbD 15 then
    reply tag o.code .badValue (markByte true 0) (unstated 3 ++ stated [alarm] ++ unstated 21) s
  else
    let named := fun k : EventKind => kinds.getLsbD k.number.val
    let flags := (allKinds.map fun k => if named k && (s.event k).isSet then 2 ^ k.number.val else 0).sum
    let counts := allKinds.map fun k => if named k then BitVec.ofNat 8 (s.event k).count else 0
    reply tag o.code .ok (markByte true 0)
      (unstated 1 ++ stated (bytesOfNat 2 flags ++ [alarm]) ++ unstated 1 ++
        stated counts ++ unstated 5) s

/-- R198: the kinds named are cleared. -/
def clearKinds (kinds : BitVec 16) (s : State) : State :=
  allKinds.foldl (fun t k => if kinds.getLsbD k.number.val then t.setEvent k (t.event k).cleared else t) s

/-- R198: STATUS_CLEAR. -/
def statusClearUnit (tag : Byte) (kinds : BitVec 16) (s : State) : State :=
  let o := Order.statusClear kinds
  if kinds.getLsbD 15 then plainReply tag o .badValue s else plainReply tag o .ok (clearKinds kinds s)

/-- R38: the clearing handed to each block. -/
def clearAll (s : State) : State :=
  handAll (clearField (clearReplyLists (clearArbiters (clearTalk (clearStore (clearKeys s))))))

/-- R36, R38: CLEAR_DYNAMIC first ends a block in flight with ABORTED, then clears. -/
def clearDynamicUnit (tag : Byte) (s : State) : State :=
  let s1 :=
    match s.block with
    | some b => abortReply b { s with block := none }
    | none => s
  plainReply tag .clearDynamic .ok (clearAll s1)

/-- R39: RESTART marks the part for restart and builds no reply. -/
def restartUnit (s : State) : State := { s with restart := .marked }

end Sys2Proof.Machine
end

