-- ==== Sys2Proof/Machine/Start.lean ====
section
/-! DEFINITION. Machine/Start.lean: starting the part, and RESET_N held low (R199). -/

namespace Sys2Proof.Machine

/-- R199: a start with the straps as sampled: every table, queue, timer and counter at its reset value, then STARTED
raised. The commands still waiting to be taken, and the counter of free values, are no state of the part. -/
def start (straps : Straps) (s : State) : State := raise .started none (State.blank .running straps s.draws s.pending)

/-- R199: RESET_N is driven low: the part's state is lost (notes/assumptions/12.md). -/
def stop (s : State) : State := State.blank .inReset s.straps s.draws s.pending

/-- Whether the part takes events: it runs, and no start is due (R199, R39; notes/assumptions/1.md). -/
def State.awake (s : State) : Bool := s.phase == .running && s.restart != .due

end Sys2Proof.Machine
end

