-- ==== Sys2Proof/Machine/ExecEvents.lean ====
section
/-! DEFINITION. Machine/ExecEvents.lean: the meanings of the commands that are events: starts and resets, frames, clock
ticks, the reference input and timer expiries. An event that cannot happen in the state it meets (a timer that does not
run or is not due, a pin already at its level, a part that does not run) changes nothing (notes/assumptions/1.md). -/

namespace Sys2Proof.Machine

/-- The answer of an event: its effect where the part is awake and the event can happen, else no change. -/
def event (can : Bool) (f : State → State) (s : State) : Host.Outcome State Fault Refusal :=
  .next (if s.awake && can then f s else s)

/-! ## Starts (R199, R39) -/

/-- POWER_ON: the part starts; with RESET_N held low it stays held, and its start follows the release. -/
def execPowerOn (straps : Straps) (s : State) : Host.Outcome State Fault Refusal :=
  match s.phase with
  | .running => .next (start straps s)
  | .inReset => .next (stop s)

/-- RESET_N_ASSERT. -/
def execResetNAssert (s : State) : Host.Outcome State Fault Refusal := .next (stop s)

/-- RESET_N_RELEASE. -/
def execResetNRelease (straps : Straps) (s : State) : Host.Outcome State Fault Refusal :=
  match s.phase with
  | .running => .next s
  | .inReset => .next (start straps s)

/-- RESTART_START: at the end of the period in which RESTART was executed. -/
def execRestartStart (straps : Straps) (s : State) : Host.Outcome State Fault Refusal :=
  .next (if s.phase == .running && s.restart == .due then start straps s else s)

/-! ## Frames and clock ticks -/

/-- FRAME_ARRIVAL. -/
def execFrameArrival (port : PortId) (bytes : List Byte) (s : State) : Host.Outcome State Fault Refusal :=
  event true (fun s => flushLamps (frameAt port bytes s)) s

/-- PERIOD_BOUNDARY: at the 48th sample instant of the period. -/
def execPeriodBoundary (s : State) : Host.Outcome State Fault Refusal :=
  event (s.timing.place == Config.perPeriod) boundary s

/-- R17: REFCLK present is written. -/
def setRefclk (present : Bool) (s : State) : State := { s with timing := { s.timing with refclkPresent := present } }

/-- REFCLK_ABSENT. -/
def execRefclkAbsent (s : State) : Host.Outcome State Fault Refusal :=
  event s.timing.refclkPresent (fun s => referenceGone .refclk (setRefclk false s)) s

/-- REFCLK_PRESENT. -/
def execRefclkPresent (s : State) : Host.Outcome State Fault Refusal :=
  event (!s.timing.refclkPresent) (fun s => referenceBack .refclk (setRefclk true s)) s

/-! ## Timers -/

/-- R113: a key's latch window, running only in PRESSED, expires now. -/
def State.latchDue (s : State) (k : KeyId) : Bool := (s.key k).state == .pressed && s.timerDue (s.key k).latchTimer

/-- LATCH_WINDOW_EXPIRY (R113): taken only in PRESSED. -/
def execLatchWindowExpiry (key : KeyId) (s : State) : Host.Outcome State Fault Refusal :=
  event (s.latchDue key)
    (fun s => flushLamps (enterState key .momentaryOn s)) s

/-- R114: a wink timer stops. -/
def stopWink (k : KeyId) (s : State) : State := handKey k (s.setKey k { s.key k with winkTimer := none })

/-- WINK_TIMER_EXPIRY (R114): changes no key state. -/
def execWinkTimerExpiry (key : KeyId) (s : State) : Host.Outcome State Fault Refusal :=
  event (s.timerDue (s.key key).winkTimer) (fun s => flushLamps (stopWink key s)) s

/-- R104: an ONLINE panel's silence timer expires now. -/
def State.silenceDue (s : State) (p : PanelId) : Bool :=
  (s.panel p).online == .online && s.timerDue (s.panel p).silenceTimer

/-- SILENCE_TIMER_EXPIRY (R104). -/
def execSilenceTimerExpiry (panel : PanelId) (s : State) : Host.Outcome State Fault Refusal :=
  event (s.silenceDue panel) (panelOffline panel) s

/-- R138: a station's entry in a panel's reply list is due to expire. -/
def State.replyDue (s : State) (q : PanelId) (t : StationId) : Bool :=
  (s.panel q).replyList.any fun e => e.station == t && s.due e.expiresAt

/-- REPLY_EXPIRY (R138). -/
def execReplyExpiry (panel : PanelId) (station : StationId) (s : State) : Host.Outcome State Fault Refusal :=
  event (s.replyDue panel station) (fun s => flushLamps (removeCaller panel station s)) s

/-- INTERVAL_TIMER_EXPIRY (R161). -/
def execIntervalTimerExpiry (circuit : CircuitId) (s : State) : Host.Outcome State Fault Refusal :=
  event (s.timerDue (s.circuit circuit).intervalTimer) (fun s => requestProbe circuit (startInterval circuit s)) s

/-- R164: an outstanding probe's timeout is due. -/
def State.probeDue (s : State) (c : CircuitId) (tag : BitVec 15) : Bool :=
  (s.circuit c).outstanding.any fun p => p.tag == tag && s.due p.expiresAt

/-- PROBE_TIMEOUT (R164). -/
def execProbeTimeout (circuit : CircuitId) (tag : BitVec 15) (s : State) : Host.Outcome State Fault Refusal :=
  event (s.probeDue circuit tag) (timeoutProbe circuit tag) s

/-! ## The sample clock -/

/-- R98, R138, R161, R164: some timer expires at the running instant and its expiry has not been taken. -/
def State.expiryDue (s : State) : Bool :=
  (allOf 1536).any (fun k => s.latchDue k || s.timerDue (s.key k).winkTimer) ||
    (allOf 48).any (fun p => s.silenceDue p || (s.panel p).replyList.any fun e => s.due e.expiresAt) ||
    (allOf 16).any fun c =>
      s.timerDue (s.circuit c).intervalTimer || (s.circuit c).outstanding.any fun p => s.due p.expiresAt

/-- Everything that the running instant asks for has come about: its expiries (R98), a unit of the order unit (R27), and,
at the end of a period, the boundary (R15). What falls at one instant comes in the order the sender gives it. -/
def State.instantOver (s : State) : Bool :=
  decide (s.timing.place < Config.perPeriod) && !s.expiryDue && !s.unitDue

/-- SAMPLE_INSTANT: the next instant begins when the running one is over (notes/assumptions/5.md). -/
def execSampleInstant (s : State) : Host.Outcome State Fault Refusal := event s.instantOver sampleTick s

end Sys2Proof.Machine
end

