-- ==== Sys2Proof/Machine/ExecOrders.lean ====
section
/-! DEFINITION. Machine/ExecOrders.lean: the meanings of the commands that are units of the order unit (R27): one per
order, one per block step. -/

namespace Sys2Proof.Machine

/-- The answer of an order's unit. -/
def order (tag : Byte) (o : Order) (unit : State → State) (s : State) : Host.Outcome State Fault Refusal :=
  .next (orderUnit tag o unit s)

/-- RECORD_READ. -/
def execRecordRead (tag table : Byte) (index : BitVec 16) (mask : BitVec 32) (s : State) :
    Host.Outcome State Fault Refusal :=
  order tag (.recordRead table index mask) (readUnit tag table index mask) s

/-- RECORD_WRITE. -/
def execRecordWrite (tag table : Byte) (index : BitVec 16) (mask : BitVec 32) (values : List Byte) (s : State) :
    Host.Outcome State Fault Refusal :=
  order tag (.recordWrite table index mask values) (writeUnit tag table index mask values) s

/-- BLOCK_READ. -/
def execBlockRead (tag table : Byte) (start : BitVec 16) (mask : BitVec 32) (count : BitVec 16) (direction : Byte)
    (s : State) : Host.Outcome State Fault Refusal :=
  order tag (.blockRead table start mask count direction) (blockReadUnit tag table start mask count direction) s

/-- FILL. -/
def execFill (tag table : Byte) (start : BitVec 16) (mask : BitVec 32) (count : BitVec 16) (direction : Byte)
    (values : List Byte) (s : State) : Host.Outcome State Fault Refusal :=
  order tag (.fill table start mask count direction values) (fillUnit tag table start mask count direction values) s

/-- METER_READ. -/
def execMeterRead (tag start count : Byte) (s : State) : Host.Outcome State Fault Refusal :=
  order tag (.meterRead start count) (meterUnit tag start count) s

/-- ROUTE_LIST. -/
def execRouteList (tag dest : Byte) (s : State) : Host.Outcome State Fault Refusal :=
  order tag (.routeList dest) (routeListUnit tag dest) s

/-- The answer of a block step: the step of the block in flight, if it is of the kind the command names and can be
taken now. -/
def takeBlockStep (f : Block → State → Option State) (s : State) : Host.Outcome State Fault Refusal :=
  .next
    (match s.block with
      | some b => if s.stepReady then ((f b (takeStep s)).map flushLamps).getD s else s
      | none => s)

/-- BLOCK_READ_STEP. -/
def execBlockReadStep (s : State) : Host.Outcome State Fault Refusal :=
  takeBlockStep (fun b s =>
    match b.work with
    | .blockRead t mask down => some (blockReadStep b t mask down s)
    | .fill _ _ _ _ | .meterRead | .routeList _ _ => none) s

/-- FILL_STEP. -/
def execFillStep (s : State) : Host.Outcome State Fault Refusal :=
  takeBlockStep (fun b s =>
    match b.work with
    | .fill t mask down values => some (fillStep b t mask down values s)
    | .blockRead _ _ _ | .meterRead | .routeList _ _ => none) s

/-- METER_READ_STEP. -/
def execMeterReadStep (s : State) : Host.Outcome State Fault Refusal :=
  takeBlockStep (fun b s =>
    match b.work with
    | .meterRead => some (meterStep b s)
    | .blockRead _ _ _ | .fill _ _ _ _ | .routeList _ _ => none) s

/-- ROUTE_LIST_STEP. -/
def execRouteListStep (s : State) : Host.Outcome State Fault Refusal :=
  takeBlockStep (fun b s =>
    match b.work with
    | .routeList d place => some (routeListStep b d place s)
    | .blockRead _ _ _ | .fill _ _ _ _ | .meterRead => none) s

/-- ROUTE_ADD. -/
def execRouteAdd (tag count : Byte) (routes : List RouteArg) (s : State) : Host.Outcome State Fault Refusal :=
  order tag (.routeAdd count routes) (routeAddUnit tag count routes) s

/-- ROUTE_REMOVE. -/
def execRouteRemove (tag count : Byte) (routes : List PairArg) (s : State) : Host.Outcome State Fault Refusal :=
  order tag (.routeRemove count routes) (routeRemoveUnit tag count routes) s

/-- ROUTE_NUDGE. -/
def execRouteNudge (tag count direction stepCode : Byte) (routes : List PairArg) (s : State) :
    Host.Outcome State Fault Refusal :=
  order tag (.routeNudge count direction stepCode routes) (routeNudgeUnit tag count direction stepCode routes) s

/-- SWAP. -/
def execSwap (tag a b : Byte) (s : State) : Host.Outcome State Fault Refusal :=
  order tag (.swap a b) (swapUnit tag a b) s

/-- PARTY_JOIN. -/
def execPartyJoin (tag party station listen : Byte) (s : State) : Host.Outcome State Fault Refusal :=
  order tag (.partyJoin party station listen) (partyJoinUnit tag party station listen) s

/-- PARTY_LEAVE. -/
def execPartyLeave (tag party station : Byte) (s : State) : Host.Outcome State Fault Refusal :=
  order tag (.partyLeave party station) (partyLeaveUnit tag party station) s

/-- PARTY_FLAGS. -/
def execPartyFlags (tag party station named values : Byte) (s : State) : Host.Outcome State Fault Refusal :=
  order tag (.partyFlags party station named values) (partyFlagsUnit tag party station named values) s

/-- STATUS_READ. -/
def execStatusRead (tag : Byte) (kinds : BitVec 16) (s : State) : Host.Outcome State Fault Refusal :=
  order tag (.statusRead kinds) (statusReadUnit tag kinds) s

/-- STATUS_CLEAR. -/
def execStatusClear (tag : Byte) (kinds : BitVec 16) (s : State) : Host.Outcome State Fault Refusal :=
  order tag (.statusClear kinds) (statusClearUnit tag kinds) s

/-- CLEAR_DYNAMIC. -/
def execClearDynamic (tag : Byte) (s : State) : Host.Outcome State Fault Refusal :=
  order tag .clearDynamic (clearDynamicUnit tag) s

/-- RESTART. -/
def execRestart (tag : Byte) (s : State) : Host.Outcome State Fault Refusal := order tag .restart restartUnit s

/-- UNLISTED_ORDER_CODE (R28): refused BAD_VALUE; nothing else changes. -/
def execUnlistedOrderCode (tag code : Byte) (s : State) : Host.Outcome State Fault Refusal :=
  order tag (.unlisted code) (plainReply tag (.unlisted code) .badValue) s

end Sys2Proof.Machine
end

