-- ==== Sys2Proof/Machine/ExecWrites.lean ====
section
/-! DEFINITION. Machine/ExecWrites.lean: the meanings of the write rows: each is the unit of a RECORD_WRITE to its row's
table naming its row's fields (Machine/Rows.lean). A FILL step reaches the same writes (R33). -/

namespace Sys2Proof.Machine

/-- The answer of a write row: the RECORD_WRITE's unit where the write is one of the row's. -/
def writeRow (t : TableName) (isRow : Nat → List FieldValue → Bool) (tag : Byte) (index : BitVec 16) (mask : BitVec 32)
    (values : List Byte) (s : State) : Host.Outcome State Fault Refusal :=
  .next
    (if isRow index.toNat (writtenValues t index mask values) then
      orderUnit tag (.recordWrite t.code index mask values) (writeUnit tag t.code index mask values) s
    else s)

/-- PORT_ENABLE (R13): record 0..3, enabled yes. -/
def execPortEnable (tag : Byte) (index : BitVec 16) (mask : BitVec 32) (values : List Byte) (s : State) :
    Host.Outcome State Fault Refusal := writeRow .port isPortEnable tag index mask values s

/-- PORT_DISABLE (R13): record 0..3, enabled no. -/
def execPortDisable (tag : Byte) (index : BitVec 16) (mask : BitVec 32) (values : List Byte) (s : State) :
    Host.Outcome State Fault Refusal := writeRow .port isPortDisable tag index mask values s

/-- OUTGOING_WIDTH_WRITE (R13): record 0..3, outgoing width. -/
def execOutgoingWidthWrite (tag : Byte) (index : BitVec 16) (mask : BitVec 32) (values : List Byte) (s : State) :
    Host.Outcome State Fault Refusal := writeRow .port isOutgoingWidthWrite tag index mask values s

/-- REFERENCE_SELECT (R19): record 4, selected reference. -/
def execReferenceSelect (tag : Byte) (index : BitVec 16) (mask : BitVec 32) (values : List Byte) (s : State) :
    Host.Outcome State Fault Refusal := writeRow .port isReferenceSelect tag index mask values s

/-- SOURCE_WRITE (R46): enabled, trim or gap counter. -/
def execSourceWrite (tag : Byte) (index : BitVec 16) (mask : BitVec 32) (values : List Byte) (s : State) :
    Host.Outcome State Fault Refusal := writeRow .source isSourceWrite tag index mask values s

/-- DESTINATION_KIND_WRITE (R56): kind. -/
def execDestinationKindWrite (tag : Byte) (index : BitVec 16) (mask : BitVec 32) (values : List Byte) (s : State) :
    Host.Outcome State Fault Refusal := writeRow .destination isDestinationKindWrite tag index mask values s

/-- DESTINATION_ENABLE_WRITE (R52): enabled. -/
def execDestinationEnableWrite (tag : Byte) (index : BitVec 16) (mask : BitVec 32) (values : List Byte) (s : State) :
    Host.Outcome State Fault Refusal := writeRow .destination isDestinationEnableWrite tag index mask values s

/-- OUTPUT_LEVEL_WRITE (R53): output level. -/
def execOutputLevelWrite (tag : Byte) (index : BitVec 16) (mask : BitVec 32) (values : List Byte) (s : State) :
    Host.Outcome State Fault Refusal := writeRow .destination isOutputLevelWrite tag index mask values s

/-- DIM_CODE_WRITE (R54): dim code. -/
def execDimCodeWrite (tag : Byte) (index : BitVec 16) (mask : BitVec 32) (values : List Byte) (s : State) :
    Host.Outcome State Fault Refusal := writeRow .destination isDimCodeWrite tag index mask values s

/-- CLIP_COUNTER_WRITE (R55): clip counter. -/
def execClipCounterWrite (tag : Byte) (index : BitVec 16) (mask : BitVec 32) (values : List Byte) (s : State) :
    Host.Outcome State Fault Refusal := writeRow .destination isClipCounterWrite tag index mask values s

/-- STATION_WRITE (R58): kind, source or destination. -/
def execStationWrite (tag : Byte) (index : BitVec 16) (mask : BitVec 32) (values : List Byte) (s : State) :
    Host.Outcome State Fault Refusal := writeRow .station isStationWrite tag index mask values s

/-- PANEL_CONFIGURE (R100): configured yes. -/
def execPanelConfigure (tag : Byte) (index : BitVec 16) (mask : BitVec 32) (values : List Byte) (s : State) :
    Host.Outcome State Fault Refusal := writeRow .panel isPanelConfigure tag index mask values s

/-- PANEL_UNCONFIGURE (R100): configured no. -/
def execPanelUnconfigure (tag : Byte) (index : BitVec 16) (mask : BitVec 32) (values : List Byte) (s : State) :
    Host.Outcome State Fault Refusal := writeRow .panel isPanelUnconfigure tag index mask values s

/-- PANEL_SETTINGS_WRITE (R101): any other writable field. -/
def execPanelSettingsWrite (tag : Byte) (index : BitVec 16) (mask : BitVec 32) (values : List Byte) (s : State) :
    Host.Outcome State Fault Refusal := writeRow .panel isPanelSettingsWrite tag index mask values s

/-- KEY_WRITE (R109): function, target, mode, priority or talk level. -/
def execKeyWrite (tag : Byte) (index : BitVec 16) (mask : BitVec 32) (values : List Byte) (s : State) :
    Host.Outcome State Fault Refusal := writeRow .key isKeyWrite tag index mask values s

/-- PARTY_ENABLE (R132): enabled yes. -/
def execPartyEnable (tag : Byte) (index : BitVec 16) (mask : BitVec 32) (values : List Byte) (s : State) :
    Host.Outcome State Fault Refusal := writeRow .party isPartyEnable tag index mask values s

/-- PARTY_DISABLE (R132): enabled no. -/
def execPartyDisable (tag : Byte) (index : BitVec 16) (mask : BitVec 32) (values : List Byte) (s : State) :
    Host.Outcome State Fault Refusal := writeRow .party isPartyDisable tag index mask values s

/-- PARTY_LEVEL_WRITE (R132): level. -/
def execPartyLevelWrite (tag : Byte) (index : BitVec 16) (mask : BitVec 32) (values : List Byte) (s : State) :
    Host.Outcome State Fault Refusal := writeRow .party isPartyLevelWrite tag index mask values s

/-- CIRCUIT_ENABLE (R159): enabled yes. -/
def execCircuitEnable (tag : Byte) (index : BitVec 16) (mask : BitVec 32) (values : List Byte) (s : State) :
    Host.Outcome State Fault Refusal := writeRow .circuit isCircuitEnable tag index mask values s

/-- CIRCUIT_DISABLE (R160): enabled no. -/
def execCircuitDisable (tag : Byte) (index : BitVec 16) (mask : BitVec 32) (values : List Byte) (s : State) :
    Host.Outcome State Fault Refusal := writeRow .circuit isCircuitDisable tag index mask values s

/-- CIRCUIT_SETTINGS_WRITE (R158): any other writable field. -/
def execCircuitSettingsWrite (tag : Byte) (index : BitVec 16) (mask : BitVec 32) (values : List Byte) (s : State) :
    Host.Outcome State Fault Refusal := writeRow .circuit isCircuitSettingsWrite tag index mask values s

/-- TAP_ENABLE (R178): enabled yes. -/
def execTapEnable (tag : Byte) (index : BitVec 16) (mask : BitVec 32) (values : List Byte) (s : State) :
    Host.Outcome State Fault Refusal := writeRow .tap isTapEnable tag index mask values s

/-- TAP_DISABLE (R183): enabled no. -/
def execTapDisable (tag : Byte) (index : BitVec 16) (mask : BitVec 32) (values : List Byte) (s : State) :
    Host.Outcome State Fault Refusal := writeRow .tap isTapDisable tag index mask values s

/-- TAP_LEVEL_WRITE (R182): level. -/
def execTapLevelWrite (tag : Byte) (index : BitVec 16) (mask : BitVec 32) (values : List Byte) (s : State) :
    Host.Outcome State Fault Refusal := writeRow .tap isTapLevelWrite tag index mask values s

/-- TAP_SETTINGS_WRITE (R177): side, base, mask, monitor destination or forward. -/
def execTapSettingsWrite (tag : Byte) (index : BitVec 16) (mask : BitVec 32) (values : List Byte) (s : State) :
    Host.Outcome State Fault Refusal := writeRow .tap isTapSettingsWrite tag index mask values s

/-- CADENCE_WRITE (R190). -/
def execCadenceWrite (tag : Byte) (index : BitVec 16) (mask : BitVec 32) (values : List Byte) (s : State) :
    Host.Outcome State Fault Refusal := writeRow .cadence isCadenceWrite tag index mask values s

/-- EVENT_WRITE (R198): enable or route. -/
def execEventWrite (tag : Byte) (index : BitVec 16) (mask : BitVec 32) (values : List Byte) (s : State) :
    Host.Outcome State Fault Refusal := writeRow .event isEventWrite tag index mask values s

end Sys2Proof.Machine
end

