-- ==== Sys2Proof/Machine/Dispatch.lean ====
section
/-! DEFINITION. Machine/Dispatch.lean: one arm per command, each one call of its meaning. -/

namespace Sys2Proof.Machine

def exec (i : Instr) (s : State) : Host.Outcome State Fault Refusal :=
  match i with
  | .powerOn straps => Sys2Proof.Machine.execPowerOn straps s
  | .resetNAssert => Sys2Proof.Machine.execResetNAssert s
  | .resetNRelease straps => Sys2Proof.Machine.execResetNRelease straps s
  | .restartStart straps => Sys2Proof.Machine.execRestartStart straps s
  | .frameArrival port bytes => Sys2Proof.Machine.execFrameArrival port bytes s
  | .periodBoundary => Sys2Proof.Machine.execPeriodBoundary s
  | .refclkAbsent => Sys2Proof.Machine.execRefclkAbsent s
  | .refclkPresent => Sys2Proof.Machine.execRefclkPresent s
  | .latchWindowExpiry key => Sys2Proof.Machine.execLatchWindowExpiry key s
  | .winkTimerExpiry key => Sys2Proof.Machine.execWinkTimerExpiry key s
  | .silenceTimerExpiry panel => Sys2Proof.Machine.execSilenceTimerExpiry panel s
  | .replyExpiry panel station => Sys2Proof.Machine.execReplyExpiry panel station s
  | .intervalTimerExpiry circuit => Sys2Proof.Machine.execIntervalTimerExpiry circuit s
  | .probeTimeout circuit tag => Sys2Proof.Machine.execProbeTimeout circuit tag s
  | .recordRead tag table index mask => Sys2Proof.Machine.execRecordRead tag table index mask s
  | .recordWrite tag table index mask values => Sys2Proof.Machine.execRecordWrite tag table index mask values s
  | .blockRead tag table start mask count direction => Sys2Proof.Machine.execBlockRead tag table start mask count direction s
  | .blockReadStep => Sys2Proof.Machine.execBlockReadStep s
  | .fill tag table start mask count direction values => Sys2Proof.Machine.execFill tag table start mask count direction values s
  | .fillStep => Sys2Proof.Machine.execFillStep s
  | .meterRead tag start count => Sys2Proof.Machine.execMeterRead tag start count s
  | .meterReadStep => Sys2Proof.Machine.execMeterReadStep s
  | .routeList tag dest => Sys2Proof.Machine.execRouteList tag dest s
  | .routeListStep => Sys2Proof.Machine.execRouteListStep s
  | .routeAdd tag count routes => Sys2Proof.Machine.execRouteAdd tag count routes s
  | .routeRemove tag count routes => Sys2Proof.Machine.execRouteRemove tag count routes s
  | .routeNudge tag count direction stepCode routes => Sys2Proof.Machine.execRouteNudge tag count direction stepCode routes s
  | .swap tag a b => Sys2Proof.Machine.execSwap tag a b s
  | .partyJoin tag party station listen => Sys2Proof.Machine.execPartyJoin tag party station listen s
  | .partyLeave tag party station => Sys2Proof.Machine.execPartyLeave tag party station s
  | .partyFlags tag party station named values => Sys2Proof.Machine.execPartyFlags tag party station named values s
  | .statusRead tag kinds => Sys2Proof.Machine.execStatusRead tag kinds s
  | .statusClear tag kinds => Sys2Proof.Machine.execStatusClear tag kinds s
  | .clearDynamic tag => Sys2Proof.Machine.execClearDynamic tag s
  | .restart tag => Sys2Proof.Machine.execRestart tag s
  | .portEnable tag index mask values => Sys2Proof.Machine.execPortEnable tag index mask values s
  | .portDisable tag index mask values => Sys2Proof.Machine.execPortDisable tag index mask values s
  | .outgoingWidthWrite tag index mask values => Sys2Proof.Machine.execOutgoingWidthWrite tag index mask values s
  | .referenceSelect tag index mask values => Sys2Proof.Machine.execReferenceSelect tag index mask values s
  | .sourceWrite tag index mask values => Sys2Proof.Machine.execSourceWrite tag index mask values s
  | .destinationKindWrite tag index mask values => Sys2Proof.Machine.execDestinationKindWrite tag index mask values s
  | .destinationEnableWrite tag index mask values => Sys2Proof.Machine.execDestinationEnableWrite tag index mask values s
  | .outputLevelWrite tag index mask values => Sys2Proof.Machine.execOutputLevelWrite tag index mask values s
  | .dimCodeWrite tag index mask values => Sys2Proof.Machine.execDimCodeWrite tag index mask values s
  | .clipCounterWrite tag index mask values => Sys2Proof.Machine.execClipCounterWrite tag index mask values s
  | .stationWrite tag index mask values => Sys2Proof.Machine.execStationWrite tag index mask values s
  | .panelConfigure tag index mask values => Sys2Proof.Machine.execPanelConfigure tag index mask values s
  | .panelUnconfigure tag index mask values => Sys2Proof.Machine.execPanelUnconfigure tag index mask values s
  | .panelSettingsWrite tag index mask values => Sys2Proof.Machine.execPanelSettingsWrite tag index mask values s
  | .keyWrite tag index mask values => Sys2Proof.Machine.execKeyWrite tag index mask values s
  | .partyEnable tag index mask values => Sys2Proof.Machine.execPartyEnable tag index mask values s
  | .partyDisable tag index mask values => Sys2Proof.Machine.execPartyDisable tag index mask values s
  | .partyLevelWrite tag index mask values => Sys2Proof.Machine.execPartyLevelWrite tag index mask values s
  | .circuitEnable tag index mask values => Sys2Proof.Machine.execCircuitEnable tag index mask values s
  | .circuitDisable tag index mask values => Sys2Proof.Machine.execCircuitDisable tag index mask values s
  | .circuitSettingsWrite tag index mask values => Sys2Proof.Machine.execCircuitSettingsWrite tag index mask values s
  | .tapEnable tag index mask values => Sys2Proof.Machine.execTapEnable tag index mask values s
  | .tapDisable tag index mask values => Sys2Proof.Machine.execTapDisable tag index mask values s
  | .tapLevelWrite tag index mask values => Sys2Proof.Machine.execTapLevelWrite tag index mask values s
  | .tapSettingsWrite tag index mask values => Sys2Proof.Machine.execTapSettingsWrite tag index mask values s
  | .cadenceWrite tag index mask values => Sys2Proof.Machine.execCadenceWrite tag index mask values s
  | .eventWrite tag index mask values => Sys2Proof.Machine.execEventWrite tag index mask values s
  | .sampleInstant => Sys2Proof.Machine.execSampleInstant s
  | .unlistedOrderCode tag code => Sys2Proof.Machine.execUnlistedOrderCode tag code s

end Sys2Proof.Machine
end

