-- ==== Sys2Proof/WellFormed.lean ====
section
/-! DEFINITION. WellFormed.lean: the checks a command's operands must meet to be one the spec describes: an order's
operands are those an ORDER body can carry (R42), and a write row's write is one of its row's. -/

namespace Sys2Proof

open Machine

/-- A RECORD_WRITE's value area is 20 bytes (R42). -/
def writeAreaOk (values : List Byte) : Bool := values.length == 20

/-- A FILL's value area is 16 bytes (R42). -/
def fillAreaOk (values : List Byte) : Bool := values.length == 16

/-- A route order carries as many routes as its route count gives (R37). -/
def routesOk {α : Type} (count : Byte) (routes : List α) : Bool := routes.length == routeCount count

/-- An order code that R42 does not list (R28). -/
def unlistedOk (code : Byte) : Bool := code == 0 || decide (17 < code.toNat)

/-- R162: a probe's tag is not 0. -/
def tagOk (tag : BitVec 15) : Bool := tag != 0

/-- A write row's operands: the value area, and a write that is one of the row's. -/
def rowOk (t : TableName) (isRow : Nat → List FieldValue → Bool) (index : BitVec 16) (mask : BitVec 32)
    (values : List Byte) : Bool :=
  writeAreaOk values && isRow index.toNat (writtenValues t index mask values)

/-- Whether a command is well formed. -/
def Instr.wellFormed : Instr → Bool
  | .powerOn _ => true
  | .resetNAssert => true
  | .resetNRelease _ => true
  | .restartStart _ => true
  | .frameArrival _ _ => true
  | .periodBoundary => true
  | .refclkAbsent => true
  | .refclkPresent => true
  | .latchWindowExpiry _ => true
  | .winkTimerExpiry _ => true
  | .silenceTimerExpiry _ => true
  | .replyExpiry _ _ => true
  | .intervalTimerExpiry _ => true
  | .probeTimeout _ tag => tagOk tag
  | .recordRead _ _ _ _ => true
  | .recordWrite _ _ _ _ values => writeAreaOk values
  | .blockRead _ _ _ _ _ _ => true
  | .blockReadStep => true
  | .fill _ _ _ _ _ _ values => fillAreaOk values
  | .fillStep => true
  | .meterRead _ _ _ => true
  | .meterReadStep => true
  | .routeList _ _ => true
  | .routeListStep => true
  | .routeAdd _ count routes => routesOk count routes
  | .routeRemove _ count routes => routesOk count routes
  | .routeNudge _ count _ _ routes => routesOk count routes
  | .swap _ _ _ => true
  | .partyJoin _ _ _ _ => true
  | .partyLeave _ _ _ => true
  | .partyFlags _ _ _ _ _ => true
  | .statusRead _ _ => true
  | .statusClear _ _ => true
  | .clearDynamic _ => true
  | .restart _ => true
  | .portEnable _ i m v => rowOk .port isPortEnable i m v
  | .portDisable _ i m v => rowOk .port isPortDisable i m v
  | .outgoingWidthWrite _ i m v => rowOk .port isOutgoingWidthWrite i m v
  | .referenceSelect _ i m v => rowOk .port isReferenceSelect i m v
  | .sourceWrite _ i m v => rowOk .source isSourceWrite i m v
  | .destinationKindWrite _ i m v => rowOk .destination isDestinationKindWrite i m v
  | .destinationEnableWrite _ i m v => rowOk .destination isDestinationEnableWrite i m v
  | .outputLevelWrite _ i m v => rowOk .destination isOutputLevelWrite i m v
  | .dimCodeWrite _ i m v => rowOk .destination isDimCodeWrite i m v
  | .clipCounterWrite _ i m v => rowOk .destination isClipCounterWrite i m v
  | .stationWrite _ i m v => rowOk .station isStationWrite i m v
  | .panelConfigure _ i m v => rowOk .panel isPanelConfigure i m v
  | .panelUnconfigure _ i m v => rowOk .panel isPanelUnconfigure i m v
  | .panelSettingsWrite _ i m v => rowOk .panel isPanelSettingsWrite i m v
  | .keyWrite _ i m v => rowOk .key isKeyWrite i m v
  | .partyEnable _ i m v => rowOk .party isPartyEnable i m v
  | .partyDisable _ i m v => rowOk .party isPartyDisable i m v
  | .partyLevelWrite _ i m v => rowOk .party isPartyLevelWrite i m v
  | .circuitEnable _ i m v => rowOk .circuit isCircuitEnable i m v
  | .circuitDisable _ i m v => rowOk .circuit isCircuitDisable i m v
  | .circuitSettingsWrite _ i m v => rowOk .circuit isCircuitSettingsWrite i m v
  | .tapEnable _ i m v => rowOk .tap isTapEnable i m v
  | .tapDisable _ i m v => rowOk .tap isTapDisable i m v
  | .tapLevelWrite _ i m v => rowOk .tap isTapLevelWrite i m v
  | .tapSettingsWrite _ i m v => rowOk .tap isTapSettingsWrite i m v
  | .cadenceWrite _ i m v => rowOk .cadence isCadenceWrite i m v
  | .eventWrite _ i m v => rowOk .event isEventWrite i m v
  | .sampleInstant => true
  | .unlistedOrderCode _ code => unlistedOk code

end Sys2Proof
end

