-- ==== Sys2Proof/Safety.lean ====
section
/-! DEFINITION. Safety.lean: the terms in which claims about the part are stated: the fields of State by name and what a
change leaves alone, an order's unit taken and answered, a start, and the invariants of a run. -/

namespace Sys2Proof.Machine

/-! ## The fields of State by name -/

/-- The fields of State. Reference timing has two: the clock's place, and the reference; `mark` is the model's mark of a
boundary being taken. -/
inductive Fld where
  | phase | straps | restart | clock | reference | mark | ports | orders | replies | notices | probeQueues
  | lampPositions | block | lastUnit | unitTaken | sources | dests | stations | entries | nextSerial | arbiters | panels
  | keys | parties | circuits | taps | cadences | events | sent | lampDirty | draws | pending
  deriving DecidableEq, Repr

/-- A field reads the same in two states. -/
def Fld.same (s t : State) : Fld → Prop
  | .phase => t.phase = s.phase
  | .straps => t.straps = s.straps
  | .restart => t.restart = s.restart
  | .clock =>
    t.timing.period = s.timing.period ∧ t.timing.sample = s.timing.sample ∧ t.timing.place = s.timing.place ∧
      t.timing.position = s.timing.position
  | .reference =>
    t.timing.selected = s.timing.selected ∧ t.timing.active = s.timing.active ∧
      t.timing.refclkPresent = s.timing.refclkPresent ∧ t.timing.pending = s.timing.pending ∧
      t.timing.changed = s.timing.changed ∧ t.timing.realigning = s.timing.realigning ∧ t.timing.rate = s.timing.rate
  | .mark => t.timing.atBoundary = s.timing.atBoundary
  | .ports => t.ports = s.ports
  | .orders => t.orders = s.orders
  | .replies => t.replies = s.replies
  | .notices => t.notices = s.notices
  | .probeQueues => t.probeQueues = s.probeQueues
  | .lampPositions => t.lampPositions = s.lampPositions
  | .block => t.block = s.block
  | .lastUnit => t.lastUnit = s.lastUnit
  | .unitTaken => t.unitTaken = s.unitTaken
  | .sources => t.sources = s.sources
  | .dests => t.dests = s.dests
  | .stations => t.stations = s.stations
  | .entries => t.entries = s.entries
  | .nextSerial => t.nextSerial = s.nextSerial
  | .arbiters => t.arbiters = s.arbiters
  | .panels => t.panels = s.panels
  | .keys => t.keys = s.keys
  | .parties => t.parties = s.parties
  | .circuits => t.circuits = s.circuits
  | .taps => t.taps = s.taps
  | .cadences => t.cadences = s.cadences
  | .events => t.events = s.events
  | .sent => t.sent = s.sent
  | .lampDirty => t.lampDirty = s.lampDirty
  | .draws => t.draws = s.draws
  | .pending => t.pending = s.pending

/-- Of the fields of s, only those listed may differ in t. -/
def Touches (l : List Fld) (s t : State) : Prop := ∀ f, f ∉ l → f.same s t

/-! ## What the commands may touch -/

/-- What a holder arriving on a pair or departing from it may touch (R65, R66). -/
abbrev arriveFields : List Fld := [.entries, .nextSerial, .lampDirty]

/-- What a change of a party may touch (R127, R128). -/
abbrev partyFields : List Fld := [.parties, .entries, .nextSerial, .lampDirty, .events, .notices, .draws]

/-- What the key unit may touch at a press, a release or a loss policy. -/
abbrev keyFields : List Fld :=
  [.keys, .panels, .arbiters, .parties, .entries, .nextSerial, .lampDirty, .events, .notices, .draws]

/-- What a key cell may touch: an encoder also moves an output level (R122). -/
abbrev keyCellFields : List Fld := .dests :: keyFields

/-- What the field supervisor may touch at a circuit. -/
abbrev circuitFields : List Fld := [.circuits, .events, .notices, .draws]

/-- What the loss of a port may touch (R11, R12). -/
abbrev lossFields : List Fld :=
  [.ports, .orders, .replies, .notices, .block, .events, .draws, .keys, .panels, .arbiters, .parties, .entries,
    .nextSerial, .lampDirty, .circuits, .probeQueues, .reference]

/-- What a period boundary may touch. -/
abbrev boundaryFields : List Fld :=
  [.clock, .reference, .mark, .restart, .ports, .orders, .replies, .notices, .probeQueues, .lampPositions, .block,
    .sources, .dests, .entries, .nextSerial, .arbiters, .panels, .keys, .parties, .circuits, .taps, .events, .sent,
    .lampDirty, .draws]

/-- What the cells of an accepted frame may touch (R23). -/
abbrev cellFields : List Fld := [.orders, .circuits] ++ keyCellFields

/-- What a frame may touch. -/
abbrev frameFields : List Fld := [.ports, .sources, .reference] ++ cellFields

/-- What a tap write may touch. -/
abbrev tapFields : List Fld := [.taps, .sources] ++ arriveFields

/-- What taking an order's unit may touch, beside what the unit's own work does: the order queue, the order unit, and
the lamps derived at its end. -/
abbrev unitFields : List Fld := [.orders, .lastUnit, .unitTaken, .panels, .lampDirty]

/-- What a block order may touch at its acceptance and at a step that only reads. -/
abbrev blockFields : List Fld := [.block, .replies, .draws]

/-- What a write of a record of each table may touch. -/
def TableName.fields : TableName → List Fld
  | .port => lossFields
  | .source => [.sources]
  | .destination => [.dests, .arbiters]
  | .station => [.stations, .lampDirty]
  | .panel => keyFields
  | .key => [.keys, .lampDirty]
  | .party => partyFields
  | .circuit => [.circuits, .dests, .probeQueues]
  | .tap => tapFields
  | .cadence => [.cadences, .panels]
  | .event => [.events]

/-- What a command may touch: every other field of State reads after it as before. The queue of waiting commands is in
none of these lists. -/
def commandFields : Instr → List Fld
  | .powerOn _ | .resetNAssert | .resetNRelease _ | .restartStart _ =>
    [.phase, .straps, .restart, .clock, .reference, .mark, .ports, .orders, .replies, .notices, .probeQueues,
      .lampPositions, .block, .lastUnit, .unitTaken, .sources, .dests, .stations, .entries, .nextSerial, .arbiters,
      .panels, .keys, .parties, .circuits, .taps, .cadences, .events, .sent, .lampDirty]
  | .frameArrival _ _ => frameFields
  | .periodBoundary => boundaryFields
  | .sampleInstant => [.clock, .unitTaken]
  | .refclkAbsent | .refclkPresent => [.reference, .events, .notices, .draws]
  | .latchWindowExpiry _ | .winkTimerExpiry _ => [.keys, .panels, .lampDirty]
  | .silenceTimerExpiry _ => keyFields
  | .replyExpiry _ _ => [.panels, .lampDirty]
  | .intervalTimerExpiry _ => [.circuits, .probeQueues]
  | .probeTimeout _ _ => circuitFields
  | .recordRead .. => unitFields ++ [.replies, .draws]
  | .recordWrite _ table .. =>
    unitFields ++ [.replies, .draws] ++
      match tableOf table with
      | some t => t.fields
      | none => []
  | .blockRead .. | .fill .. | .meterRead .. | .routeList .. => unitFields ++ blockFields
  | .blockReadStep | .routeListStep => [.lastUnit, .unitTaken, .panels, .lampDirty] ++ blockFields
  | .fillStep =>
    [.lastUnit, .unitTaken, .panels, .lampDirty] ++ blockFields ++ lossFields ++ tapFields ++
      [.dests, .stations, .cadences]
  | .meterReadStep => [.lastUnit, .unitTaken, .panels, .lampDirty, .sources] ++ blockFields
  | .routeAdd .. | .routeRemove .. | .routeNudge .. | .swap .. => unitFields ++ [.replies, .draws] ++ arriveFields
  | .partyJoin .. | .partyLeave .. | .partyFlags .. => unitFields ++ [.replies] ++ partyFields
  | .statusRead .. => unitFields ++ [.replies, .draws]
  | .statusClear .. => unitFields ++ [.replies, .draws, .events]
  | .clearDynamic _ =>
    unitFields ++ [.replies, .draws, .block, .keys, .entries, .parties, .arbiters, .circuits, .probeQueues]
  | .restart _ => unitFields ++ [.restart]
  | .unlistedOrderCode .. => unitFields ++ [.replies, .draws]
  | .portEnable .. | .portDisable .. | .outgoingWidthWrite .. | .referenceSelect .. =>
    unitFields ++ [.replies, .draws] ++ TableName.port.fields
  | .sourceWrite .. => unitFields ++ [.replies, .draws] ++ TableName.source.fields
  | .destinationKindWrite .. | .destinationEnableWrite .. | .outputLevelWrite .. | .dimCodeWrite ..
  | .clipCounterWrite .. => unitFields ++ [.replies, .draws] ++ TableName.destination.fields
  | .stationWrite .. => unitFields ++ [.replies, .draws] ++ TableName.station.fields
  | .panelConfigure .. | .panelUnconfigure .. | .panelSettingsWrite .. =>
    unitFields ++ [.replies, .draws] ++ TableName.panel.fields
  | .keyWrite .. => unitFields ++ [.replies, .draws] ++ TableName.key.fields
  | .partyEnable .. | .partyDisable .. | .partyLevelWrite .. => unitFields ++ [.replies, .draws] ++ TableName.party.fields
  | .circuitEnable .. | .circuitDisable .. | .circuitSettingsWrite .. =>
    unitFields ++ [.replies, .draws] ++ TableName.circuit.fields
  | .tapEnable .. | .tapDisable .. | .tapLevelWrite .. | .tapSettingsWrite .. =>
    unitFields ++ [.replies, .draws] ++ TableName.tap.fields
  | .cadenceWrite .. => unitFields ++ [.replies, .draws] ++ TableName.cadence.fields
  | .eventWrite .. => unitFields ++ [.replies, .draws] ++ TableName.event.fields

/-! ## Orders taken and answered (R27, R43) -/

/-- Between commands no key waits to be derived and no boundary is being taken. -/
abbrev Settled (s : State) : Prop := s.lampDirty = [] ∧ s.timing.atBoundary = false

/-- R27: the unit of order o with its tag can be taken now. -/
abbrev State.Ready (s : State) (tag : Byte) (o : Order) : Prop := s.orderReady tag o = true ∧ Settled s

/-- R27: a step of the block b can be taken now. -/
abbrev State.StepReady (s : State) (b : Block) : Prop := s.block = some b ∧ s.stepReady = true ∧ Settled s

/-- A 28-byte body reads as a layout where the layout states a byte; its other bytes are free. -/
def Spells (body : List Byte) (layout : List (Option Byte)) : Prop :=
  body.length = 28 ∧ ∀ (i : Nat) (x : Byte), layout[i]? = some (some x) → body[i]? = some x

/-- One reply more stands at the tail of the reply queue, with its tag and layout. -/
def Replied (s t : State) (tag : Byte) (layout : List (Option Byte)) : Prop :=
  ∃ body, Spells body layout ∧ t.replies = s.replies ++ [{ tag := tag, body := body }]

/-- R27: the unit was that of the head order. -/
def OrderTaken (s t : State) : Prop := t.orders = s.orders.drop 1 ∧ t.lastUnit = .order ∧ t.unitTaken = true

/-- R27: the unit was a step of the block in flight. -/
def StepTaken (t : State) : Prop := t.lastUnit = .step ∧ t.unitTaken = true

/-- The head order was taken and answered with one reply; of the fields not named, none differs. -/
def Answered (s t : State) (tag : Byte) (layout : List (Option Byte)) (l : List Fld) : Prop :=
  OrderTaken s t ∧ Replied s t tag layout ∧
    Touches ([.orders, .lastUnit, .unitTaken, .replies, .draws] ++ l) s t

/-- The order whose unit a command names, with its tag; none for the commands that are no order's unit. -/
def commandOrder : Instr → Option (Byte × Order)
  | .recordRead tag t i m => some (tag, .recordRead t i m)
  | .recordWrite tag t i m v => some (tag, .recordWrite t i m v)
  | .blockRead tag t i m n d => some (tag, .blockRead t i m n d)
  | .fill tag t i m n d v => some (tag, .fill t i m n d v)
  | .meterRead tag a n => some (tag, .meterRead a n)
  | .routeList tag d => some (tag, .routeList d)
  | .routeAdd tag n l => some (tag, .routeAdd n l)
  | .routeRemove tag n l => some (tag, .routeRemove n l)
  | .routeNudge tag n d c l => some (tag, .routeNudge n d c l)
  | .swap tag a b => some (tag, .swap a b)
  | .partyJoin tag p t x => some (tag, .partyJoin p t x)
  | .partyLeave tag p t => some (tag, .partyLeave p t)
  | .partyFlags tag p t n v => some (tag, .partyFlags p t n v)
  | .statusRead tag k => some (tag, .statusRead k)
  | .statusClear tag k => some (tag, .statusClear k)
  | .clearDynamic tag => some (tag, .clearDynamic)
  | .restart tag => some (tag, .restart)
  | .unlistedOrderCode tag c => some (tag, .unlisted c)
  | .portEnable tag i m v | .portDisable tag i m v | .outgoingWidthWrite tag i m v | .referenceSelect tag i m v =>
    some (tag, .recordWrite TableName.port.code i m v)
  | .sourceWrite tag i m v => some (tag, .recordWrite TableName.source.code i m v)
  | .destinationKindWrite tag i m v | .destinationEnableWrite tag i m v | .outputLevelWrite tag i m v
  | .dimCodeWrite tag i m v | .clipCounterWrite tag i m v =>
    some (tag, .recordWrite TableName.destination.code i m v)
  | .stationWrite tag i m v => some (tag, .recordWrite TableName.station.code i m v)
  | .panelConfigure tag i m v | .panelUnconfigure tag i m v | .panelSettingsWrite tag i m v =>
    some (tag, .recordWrite TableName.panel.code i m v)
  | .keyWrite tag i m v => some (tag, .recordWrite TableName.key.code i m v)
  | .partyEnable tag i m v | .partyDisable tag i m v | .partyLevelWrite tag i m v =>
    some (tag, .recordWrite TableName.party.code i m v)
  | .circuitEnable tag i m v | .circuitDisable tag i m v | .circuitSettingsWrite tag i m v =>
    some (tag, .recordWrite TableName.circuit.code i m v)
  | .tapEnable tag i m v | .tapDisable tag i m v | .tapLevelWrite tag i m v | .tapSettingsWrite tag i m v =>
    some (tag, .recordWrite TableName.tap.code i m v)
  | .cadenceWrite tag i m v => some (tag, .recordWrite TableName.cadence.code i m v)
  | .eventWrite tag i m v => some (tag, .recordWrite TableName.event.code i m v)
  | .powerOn _ | .resetNAssert | .resetNRelease _ | .restartStart _ | .frameArrival _ _ | .periodBoundary
  | .refclkAbsent | .refclkPresent | .latchWindowExpiry _ | .winkTimerExpiry _ | .silenceTimerExpiry _
  | .replyExpiry _ _ | .intervalTimerExpiry _ | .probeTimeout _ _ | .blockReadStep | .fillStep | .meterReadStep
  | .routeListStep | .sampleInstant => none

/-! ## Record writes (R28, R31) -/

/-- The RECORD_WRITE to a table can be taken now, its index is one of the table's, and its mask names writable fields
that fit the value area. -/
abbrev WriteReady (s : State) (t : TableName) (tag : Byte) (index : BitVec 16) (mask : BitVec 32) (values : List Byte) :
    Prop :=
  s.Ready tag (.recordWrite t.code index mask values) ∧ index.toNat < t.records ∧
    writeMaskOk t index.toNat 20 mask = true

/-- R43: the reply of a RECORD_WRITE: code 2, result, final mark, table, index, two bytes not stated, a value area of
zeros. -/
def writeLayout (t : TableName) (index : BitVec 16) (r : Result) : List (Option Byte) :=
  stated ([2, r.code, 128, t.code] ++ bytesOfNat 2 index.toNat) ++ unstated 2 ++ stated (List.replicate 20 0)

/-- The write was taken and answered with a result; beside the order unit's fields it touched those listed. -/
def Wrote (s t : State) (tn : TableName) (tag : Byte) (index : BitVec 16) (r : Result) (l : List Fld) : Prop :=
  Answered s t tag (writeLayout tn index r) l

/-- The number a write leaves in field f: the named value, or the kept one. -/
def numberOf (l : List FieldValue) (f kept : Nat) : Nat := (l.lookup f).getD kept

/-- The level code a write leaves in field f: a named one above 159 is stored as 159. -/
def levelOf (l : List FieldValue) (f : Nat) (kept : Level) : Nat :=
  match l.lookup f with
  | some v => min v 159
  | none => kept.val

/-- The time a write leaves in field f: a named one is rounded down to a whole step and taken to the nearer end of its
range. -/
def timeOf (l : List FieldValue) (f kept step lo hi : Nat) : Nat :=
  match l.lookup f with
  | some v => max lo (min hi (v / step * step))
  | none => kept

/-- A write names field f with a value above its last one. -/
def Exceeds (l : List FieldValue) (f top : Nat) : Prop := ∃ v, l.lookup f = some v ∧ top < v

/-! ## Events and lamps -/

/-- R195, R196: what one raise leaves: the kind's record, every other record as it was, and at most one notice more. -/
def Raised (s t : State) (k : EventKind) (inst : Option Nat) : Prop :=
  t.event k = { s.event k with isSet := true, count := satInc 255 (s.event k).count, inst := inst } ∧
    (∀ j, j ≠ k → t.event j = s.event j) ∧
    t.notices =
      if !(s.event k).isSet && (s.event k).enable && (s.event k).route.notices && decide (s.notices.length < 8) then
        s.notices ++ [{ kind := k, inst := inst, period := s.timing.period }]
      else s.notices

/-- Of the panel records, only the lamps still to be sent differ. -/
def PanelsButLamps (s t : State) : Prop :=
  ∀ p, t.panel p = { s.panel p with lampPending := (t.panel p).lampPending }

/-! ## The assembly of a port (R20 to R22) -/

/-- The state in which the lane of port x is filled as the running period ends: the ports below x have assembled, and
the destinations of x are mixed. -/
def State.atLane (s : State) (x : PortId) : State :=
  let before := atBoundary true s
  flushLamps
    ((portDests x).foldl (fun t d => assembleDest before d t)
      (((allOf 4).filter fun y => decide (y < x)).foldl (assemblePort before) before))

/-! ## Starts -/

/-- R199: the part right after a start with the straps given. -/
def Started (straps : Straps) (t : State) : Prop :=
  t.phase = .running ∧ t.straps = straps ∧ t.restart = .absent ∧ t.timing = Timing.reset ∧
  (∀ x : PortId, t.port x = Port.reset (straps.portOff.getLsbD x.val)) ∧
  t.orders = [] ∧ t.replies = [] ∧ t.notices = [{ kind := .started, inst := none, period := 0 }] ∧ t.block = none ∧
  (∀ x, t.probeQueue x = []) ∧ (∀ n, t.source n = Source.reset) ∧ (∀ d, t.dest d = Dest.reset) ∧
  (∀ x, t.station x = Station.reset) ∧ (∀ d, t.entriesOf d = []) ∧ (∀ d, t.arbiter d = Arbiter.empty) ∧
  (∀ p, t.panel p = Panel.reset) ∧ (∀ k, t.key k = Key.reset) ∧ (∀ p, t.party p = Party.reset) ∧
  (∀ c, t.circuit c = Circuit.reset c.val) ∧ (∀ x, t.tap x = Tap.reset) ∧ t.cadences = cadenceReset ∧
  t.event .started = { isSet := true, count := 1, inst := none, enable := true, route := .notice } ∧
  ∀ k, k ≠ .started → t.event k = tget eventReset k.number

/-! ## Invariants -/

/-- R15: the place in the period is at most 48, and the sample counter is 48 times the period counter and the place on
top of it, modulo 2^32. -/
def ClockInv (s : State) : Prop :=
  s.timing.place ≤ 48 ∧ s.timing.sample = s.timing.period * 48 + BitVec.ofNat 32 s.timing.place

/-- R61 to R64: one destination's entry list. -/
def EntriesInv (d : DestId) (l : List Entry) : Prop :=
  (l.map Entry.source).Nodup ∧
    ∀ e ∈ l, e.dest = d ∧ 1 ≤ e.level.val ∧ (e.state = .active ↔ e.held = true) ∧ e.grants.Nodup ∧ e.grants.length ≤ 32

/-- R61 to R64: every entry stands in its destination's list, once for its pair; its level is 1..159; it is ACTIVE
exactly while it has a holder; it has at most 32 grant holders; the lists stand in creation order. -/
def StoreInv (s : State) : Prop :=
  ∀ d, EntriesInv d (s.entriesOf d) ∧ ((s.entriesOf d).map Entry.serial).Pairwise (· < ·) ∧
    ∀ e ∈ s.entriesOf d, e.serial < s.nextSerial

/-- R71: the entries of a destination and the feeds of the enabled DESTINATION-side taps it monitors are at most 32, and
the store holds at most 2048 entries. -/
def LimitsInv (s : State) : Prop :=
  (∀ d, (s.entriesOf d).length +
      (((allOf 8).filter fun t =>
        (s.tap t).enabled && (s.tap t).side == .destination && (s.tap t).monitor == d).map fun t =>
          (s.tap t).matched.length).sum ≤ 32) ∧
    (s.entries.toList.map List.length).sum ≤ 2048

/-- R126: source and destination are a wanted pair of party p. -/
def Wanted (s : State) (p : PartyId) (src : SourceId) (d : DestId) : Prop :=
  (s.party p).enabled = true ∧
    ∃ a ∈ (s.party p).members, ∃ b ∈ (s.party p).members,
      a.station ≠ b.station ∧ a.talk = true ∧ (s.station a.station).source = some src ∧ b.listen = true ∧
        (s.station b.station).dest = some d

/-- R126: a party is a holder only of wanted pairs. -/
def PartyInv (s : State) : Prop :=
  ∀ d, ∀ e ∈ s.entriesOf d, ∀ p ∈ e.parties, Wanted s p e.source d

/-- R142: key k is one that the arbiter of destination d may hold: an IFB key in an on state with d as its target. -/
def State.mayHold (s : State) (d : DestId) (k : KeyId) : Prop :=
  (s.key k).function = .ifb ∧ (s.key k).target = some d ∧ (s.key k).state.isOn = true

/-- R142, R143: an arbiter holds only IFB keys in an on state with its destination as target, each once; at most four
wait, the HIGH keys first; a key's standing says where it is held, and that it is held at all. -/
def ArbiterInv (s : State) : Prop :=
  (∀ d, (s.arbiter d).waiting.length ≤ 4 ∧ ((s.arbiter d).waiting.map Waiter.key).Nodup ∧
      (s.arbiter d).waiting.Pairwise (fun a b => b.high = true → a.high = true) ∧
      (∀ w ∈ (s.arbiter d).waiting,
        s.mayHold d w.key ∧ (s.key w.key).standing = .waiting ∧ (w.high = true ↔ (s.key w.key).priority = .high)) ∧
      ∀ k, (s.arbiter d).current = some k → s.mayHold d k ∧ (s.key k).standing = .current) ∧
  ∀ k, (s.key k).standing ≠ .outside →
    ∃ d, (s.arbiter d).current = some k ∨ ∃ w ∈ (s.arbiter d).waiting, w.key = k

/-- R188, R189: a key of an ONLINE panel whose lamp differs from the one last sent is in its panel's pending set. R100: a
panel is UNCONFIGURED exactly while it is not configured. -/
def LampsInv (s : State) : Prop :=
  (∀ p, (s.panel p).online = .unconfigured ↔ (s.panel p).configured = false) ∧
    ∀ k, (s.panel (keyPanel k)).online = .online → s.deriveLamp k ≠ (s.key k).lastLamp →
      (s.panel (keyPanel k)).lampPending.getLsbD (keyNumber k).val = true

/-- R24: the capacities of the order, reply and notice queues. -/
def QueuesInv (s : State) : Prop := s.orders.length ≤ 16 ∧ s.replies.length ≤ 16 ∧ s.notices.length ≤ 8

/-! ## Keys released and dropped, and the loss and return of a port -/

/-- R148, R149, R114: key k as it is left when it is dropped from outside its press. -/
def KeyDropped (s t : State) (k : KeyId) : Prop :=
  t.key k =
    { s.key k with
        standing := .outside, latchTimer := none, winkTimer := some (s.timing.sample + 96000)
        state := if (s.key k).down = true then .refusedHeld else .idle }

/-- R105: key k as its panel's policy or its unconfiguring leaves it: IDLE, its latch window stopped, its physical-down flag
kept, in no arbiter and without its grant. -/
def KeyReleased (s t : State) (k : KeyId) : Prop :=
  (t.key k).state = .idle ∧ (t.key k).latchTimer = none ∧ (t.key k).down = (s.key k).down ∧
    (t.key k).standing = .outside ∧
    (∀ d, (t.arbiter d).current ≠ some k ∧ ∀ w ∈ (t.arbiter d).waiting, w.key ≠ k) ∧
    ∀ a b, s.grantPair k = some (a, b) → ∀ e ∈ t.entriesOf b, e.source = a → k ∉ e.grants

/-- R105: whether the loss policy of its panel releases key k. -/
def State.PolicyReleases (s : State) (k : KeyId) : Prop :=
  let policy := (s.panel (keyPanel k)).lossPolicy
  (s.key k).state ≠ .idle ∧ (policy = .dropAll ∨ (policy = .keepLatched ∧ (s.key k).state ≠ .latched))

/-- R11, R104, R105: the ONLINE panels of the ports lost go OFFLINE with their timers stopped and their policies applied,
and no other panel. A key that waits for an ear may be served or dropped by another's release; every other key that is not
released keeps all but its last-sent lamp. -/
def PanelsFollow (s t : State) (lost : PortId → Prop) : Prop :=
  let gone := fun (p : PanelId) =>
    (s.panel p).configured = true ∧ (s.panel p).online = .online ∧ lost (s.panel p).port
  (∀ p,
    (gone p → (t.panel p).online = .offline ∧ (t.panel p).silenceTimer = none ∧ (t.event .panelOffline).isSet = true) ∧
    (¬gone p → (t.panel p).online = (s.panel p).online ∧ (t.panel p).silenceTimer = (s.panel p).silenceTimer)) ∧
  (StoreInv s → ArbiterInv s → ∀ k,
    (gone (keyPanel k) ∧ s.PolicyReleases k → KeyReleased s t k) ∧
    (¬(gone (keyPanel k) ∧ s.PolicyReleases k) → (s.key k).standing ≠ .waiting →
      t.key k = { s.key k with lastLamp := (t.key k).lastLamp }))

/-- R173: circuit record r as the return of its port's link leaves it. -/
def State.restarted (s : State) (r : Circuit) : Circuit :=
  { r with
      state := .starting, estimate := none, last := none, previous := none, lostInARow := 0
      intervalTimer := some (s.timing.sample + BitVec.ofNat 32 (48 * r.probeInterval)) }

/-- The destination of the circuit's reporter station lies on one of the ports. -/
def State.CircuitOn (s : State) (r : Circuit) (ports : PortId → Prop) : Prop :=
  ∃ d, (s.station r.reporter).dest = some d ∧ ports (portOf d)

/-- R172: a circuit in STARTING, NORMAL or DEGRADED. -/
def Circuit.Probes (r : Circuit) : Prop := r.state = .starting ∨ r.state = .normal ∨ r.state = .degraded

end Sys2Proof.Machine
end

