-- ==== Sys2Proof/Certificates/Slice0/Obligations.lean ====
section
/-! DEFINITION. Certificates/Slice0/Obligations.lean: the statements for the provers. -/

open Sys2Proof Sys2Proof.Machine Host

/-! ## The block as a machine -/

/-- The command at the front of the queue is carried out on the state with the queue's rest. With no command waiting the
block idles, which is the model's choice (notes/assumptions/10.md). -/
def Obligations.StepRunsFrontCommand : Prop :=
  ∀ (c : Instr) (rest : List Instr) (s : State),
    step { s with pending := c :: rest } = exec c { s with pending := rest } ∧
      step { s with pending := [] } = .next { s with pending := [] }

/-- The reset values the chapters' tables state, in `State.reset` (R2, R14, R45, R50, R57, R99, R108, R124, R157, R175,
R190, R194, R199). -/
def Obligations.ResetRecords : Prop :=
  let s := State.reset
  s.phase = .running ∧ s.orders = [] ∧ s.replies = [] ∧ s.block = none ∧
  s.notices = [{ kind := .started, inst := none, period := 0 }] ∧
  (s.timing.selected = .internal ∧ s.timing.active = .internal ∧ s.timing.refclkPresent = false ∧
    s.timing.period = 0 ∧ s.timing.sample = 0) ∧
  (∀ x, (s.port x).state = .down ∧ (s.port x).enabled = true ∧ (s.port x).width = .w24 ∧ (s.port x).lockCount = 0 ∧
    (s.port x).lastSeq = none ∧ (s.port x).missCount = 0 ∧ (s.port x).outSeq = 0 ∧ (s.port x).frameErrors = 0 ∧
    (s.port x).slips = 0 ∧ ∀ i, (tget (s.port x).buffer i).stamp = none) ∧
  (∀ n, s.source n = { enabled := true, trim := 128, isolation := 0, peakHold := 0, gapped := true, gapCounter := 0 }) ∧
  (∀ d, (s.dest d).enabled = true ∧ (s.dest d).kind = .plain ∧ (s.dest d).outputLevel = 128 ∧
    (s.dest d).appliedOutput = 4096 ∧ (s.dest d).dimCode = 96 ∧ (s.dest d).circuit = none ∧
    (s.dest d).clipCounter = 0 ∧ (s.dest d).previousOutput = silence ∧ s.entriesOf d = []) ∧
  (∀ t, s.station t = { kind := .unused, source := none, dest := none }) ∧
  (∀ p, (s.panel p).configured = false ∧ (s.panel p).lossPolicy = .keepLatched ∧ (s.panel p).latchWindow = 300 ∧
    (s.panel p).replyExpiry = 10 ∧ (s.panel p).online = .unconfigured ∧ (s.panel p).replyList = [] ∧
    (s.panel p).port = 0 ∧ (s.panel p).node = 0 ∧ (s.panel p).ownStation = 0 ∧ (s.panel p).silenceTimer = none ∧
    (s.panel p).lampPending = 0 ∧ (s.panel p).cadencePending = false ∧
    ∀ i, tget (s.panel p).encoders i = { mode := .x1, target := none, minimum := 0, maximum := 128, residue := 0 }) ∧
  (∀ k, (s.key k).function = .unassigned ∧ (s.key k).target = none ∧ (s.key k).mode = .momentary ∧
    (s.key k).priority = .low ∧ (s.key k).talkLevel = 128 ∧ (s.key k).state = .idle ∧ (s.key k).down = false ∧
    (s.key k).standing = .outside ∧ (s.key k).resolved = none ∧ (s.key k).winkTimer = none) ∧
  (∀ p, s.party p = { enabled := false, level := 128, members := [] }) ∧
  (∀ c, (s.circuit c).enabled = false ∧ (s.circuit c).state = .disabled ∧ (s.circuit c).probeInterval = 500 ∧
    (s.circuit c).probeTimeout = 1000 ∧ (s.circuit c).upperLimit = 24000 ∧ (s.circuit c).lowerLimit = 19200 ∧
    (s.circuit c).reporter = 0 ∧ (s.circuit c).gateway = 0 ∧ (s.circuit c).degradeCode = 0 ∧
    (s.circuit c).silenceThreshold = 8389 ∧ (s.circuit c).silenceTime = 5000 ∧ (s.circuit c).estimate = none ∧
    (s.circuit c).last = none ∧ (s.circuit c).previous = none ∧ (s.circuit c).lostInARow = 0 ∧
    (s.circuit c).strayEchoes = 0 ∧ (s.circuit c).silent = false ∧ (s.circuit c).silentMs = 0 ∧
    (s.circuit c).tagGenerator = BitVec.ofNat 15 (c.val + 1) ∧ (s.circuit c).outstanding = [] ∧
    (s.circuit c).intervalTimer = none) ∧
  (∀ x, (s.tap x).enabled = false ∧ (s.tap x).side = .source ∧ (s.tap x).level = 128 ∧ (s.tap x).forward = true ∧
    (s.tap x).base = 0 ∧ (s.tap x).mask = 0 ∧ (s.tap x).monitor = 0 ∧ (s.tap x).applied = 0) ∧
  ((allOf 8).map fun c =>
      ((s.cadence c).period, (s.cadence c).bright, (s.cadence c).dim, (s.cadence c).brightLevel, (s.cadence c).dimLevel)) =
    [(1000, 0, 0, 15, 5), (1000, 1000, 0, 15, 5), (1000, 0, 1000, 15, 5), (500, 250, 0, 15, 5), (250, 120, 0, 15, 5),
      (200, 60, 60, 15, 5), (1000, 0, 0, 15, 5), (1000, 0, 0, 15, 5)] ∧
  (∀ k, (s.event k).isSet = decide (k = .started) ∧ (s.event k).count = (if k = .started then 1 else 0) ∧
    (s.event k).inst = none) ∧
  (∀ k, (s.event k).route = if k = .portDown ∨ k = .referenceLost then .both else .notice) ∧
  ∀ k, (s.event k).enable = decide (k ≠ .clip)

/-- The three starts (R199): POWER_ON, the release of RESET_N, and the end of the period in which a RESTART was executed.
RESET_N low (R199): the part's state is lost, the alarm line is released, and every event but a release or a power-on
leaves the part as it is.

The model's choices in it: what an event the state does not admit does (notes/assumptions/1.md), what is seen of the
tables while RESET_N is low (12.md), and what `Started` says beyond the chapters' tables: no change of reference pending,
no re-aligning, no settling period, buffer position 0, and the waiting commands kept (21.md). -/
def Obligations.StartsAndResets : Prop :=
  (∀ (straps : Straps) (s : State),
      (s.phase = .running → ∃ t, exec (.powerOn straps) s = .next t ∧ Started straps t ∧ t.pending = s.pending) ∧
      (s.phase = .inReset → ∃ t, exec (.resetNRelease straps) s = .next t ∧ Started straps t ∧ t.pending = s.pending) ∧
      (s.phase = .running → s.restart = .due →
        ∃ t, exec (.restartStart straps) s = .next t ∧ Started straps t ∧ t.pending = s.pending)) ∧
  (∀ s : State,
      (∃ t, exec .resetNAssert s = .next t ∧ t.phase = .inReset ∧ t.alarmActive = false ∧ t.orders = [] ∧
        t.replies = [] ∧ t.notices = [] ∧ t.block = none ∧ (∀ d, t.entriesOf d = []) ∧ t.straps = s.straps) ∧
      (s.phase = .inReset → ∀ c : Instr, (∀ x, c ≠ .powerOn x) → (∀ x, c ≠ .resetNRelease x) → c ≠ .resetNAssert →
        exec c s = .next s))

/-- Every command answers a next state and touches only the fields its list names; no list names the queue of waiting
commands, and only a start names the straps. That a command answers a next state in every state, never a fault or a
refusal, and so changes nothing where the state does not admit it, is the model's choice (notes/assumptions/1.md,
3.md). -/
def Obligations.CommandFrames : Prop :=
  ∀ (c : Instr) (s : State), ∃ t, exec c s = .next t ∧ Touches (commandFields c) s t

/-! ## Layouts -/

/-- An order laid out as R42 gives it reads back as itself, whatever its operands. -/
def Obligations.OrderBodyRoundTrip : Prop :=
  ∀ o : Order, o.wellFormed = true → o.body.length = 28 ∧ readOrder o.body = o

/-- A frame the part builds (R21, R40) passes the check of R1 and reads back: its sequence number, width, slots (narrowed
and placed again at 16 bits, R6), and cells. -/
def Obligations.FrameRoundTrip : Prop :=
  ∀ (seq : BitVec 16) (node : BitVec 6) (w : Width) (slots : List (List Int)) (cells : List (List Byte)),
    slots.length ≤ 64 → cells.length ≤ 8 →
    (∀ l ∈ slots, l.length = 48 ∧ ∀ x ∈ l, -8388608 ≤ x ∧ x ≤ 8388607) → (∀ c ∈ cells, c.length = 32) →
    readFrame (frameBytes seq node w slots cells) =
      some { seq := seq, width := w, slotCount := slots.length,
             slots := slots.map fun l => l.map fun x => w.place (w.narrow x), cells := cells }

/-! ## Invariants that every step keeps -/

/-- R15: the sample counter is 48 times the period counter plus the place in the period. -/
def Obligations.ClockKept : Prop := ∀ s t : State, ClockInv s → step s = .next t → ClockInv t

/-- R61 to R64: the crosspoint store. -/
def Obligations.StoreKept : Prop := ∀ s t : State, StoreInv s → step s = .next t → StoreInv t

/-- R71: the limits of contributions and entries, at reset and through every step. -/
def Obligations.LimitsKept : Prop :=
  LimitsInv State.reset ∧ ∀ s t : State, LimitsInv s → step s = .next t → LimitsInv t

/-- R126: a party holds only wanted pairs. The store's invariant is a premise, since a departure meets one entry of the
pair (`StoreKept`). -/
def Obligations.PartyHoldersKept : Prop :=
  ∀ s t : State, StoreInv s → PartyInv s → step s = .next t → PartyInv t

/-- R24: the capacities of the queues. R142, R143: what an arbiter holds. -/
def Obligations.QueuesKept : Prop :=
  (∀ s t : State, QueuesInv s → step s = .next t → QueuesInv t) ∧
    ∀ s t : State, ArbiterInv s → step s = .next t → ArbiterInv t

/-- R188, R189: a key of an ONLINE panel whose lamp differs from the one last sent stays in its panel's pending set, and a
panel is UNCONFIGURED exactly while it is not configured (R100). Between
commands the model's two marks are clear: the list of keys handed to the lamp unit is empty, and no boundary is being
taken. Which changes make one event, and that its keys are derived at its end, is the model's reading
(notes/assumptions/8.md); the boundary's mark is its own (7.md). -/
def Obligations.SettledKept : Prop :=
  (∀ s t : State, Settled s → step s = .next t → Settled t) ∧
    ∀ s t : State, Settled s → LampsInv s → step s = .next t → LampsInv t

/-- The invariants hold at reset. -/
def Obligations.InvariantsAtReset : Prop :=
  ClockInv State.reset ∧ StoreInv State.reset ∧ LimitsInv State.reset ∧ PartyInv State.reset ∧ QueuesInv State.reset ∧
    ArbiterInv State.reset ∧ Settled State.reset ∧ LampsInv State.reset

/-! ## Clock and boundary -/

/-- SAMPLE_INSTANT (R15, R27, R98): the sample counter rises by one, and the order unit may take a unit again. The running
instant gives way only when its timer expiries, its unit and its boundary have been taken; until then the command
changes nothing (the form of a command; notes/assumptions/5.md). -/
def Obligations.SampleInstantTicks : Prop :=
  ∀ s : State, s.awake = true →
    let now := fun (timer : Option Count) => timer = some s.timing.sample
    let expiry : Prop :=
      (∃ k, ((s.key k).state = .pressed ∧ now (s.key k).latchTimer) ∨ now (s.key k).winkTimer) ∨
      (∃ p, ((s.panel p).online = .online ∧ now (s.panel p).silenceTimer) ∨
        ∃ e ∈ (s.panel p).replyList, e.expiresAt = s.timing.sample) ∨
      ∃ c, now (s.circuit c).intervalTimer ∨ ∃ p ∈ (s.circuit c).outstanding, p.expiresAt = s.timing.sample
    let unit : Prop :=
      s.stepReady = true ∨ ∃ o rest, s.orders = o :: rest ∧ s.orderReady o.tag (readOrder o.body) = true
    (s.timing.place < 48 → ¬expiry → ¬unit →
      ∃ t, exec .sampleInstant s = .next t ∧ t.timing.sample = s.timing.sample + 1 ∧
        t.timing.place = s.timing.place + 1 ∧ t.timing.period = s.timing.period ∧
        t.timing.position = s.timing.position ∧ t.unitTaken = false ∧ Touches [.clock, .unitTaken] s t) ∧
    (48 ≤ s.timing.place ∨ expiry ∨ unit → exec .sampleInstant s = .next s)

/-- PERIOD_BOUNDARY (R15, R20 to R22, R86 to R95): the period counter rises; every destination is mixed from the tables and
outputs as they stood before the boundary; every port that is not DISABLED sends its frame, with the at most eight cells
that its lane gives at its assembly (R26; `LampCellsServe`), probes with the sample count of the boundary as their sent
count (R21). Whose assembly comes first the spec leaves open: that the ports below x have assembled when the lane of x is
filled (`State.atLane`), in ascending order, is the model's choice (notes/assumptions/11.md). -/
def Obligations.BoundaryMixesAndSends : Prop :=
  ∀ s : State, s.awake = true → s.timing.place = 48 →
    ∃ t, exec .periodBoundary s = .next t ∧
      t.timing.period = s.timing.period + 1 ∧ t.timing.sample = s.timing.sample ∧ t.timing.place = 0 ∧
      t.timing.position = s.timing.position + 1 ∧
      (∀ d, t.dest d =
        { s.dest d with
            appliedOutput := factor (s.dest d).outputLevel
            previousOutput := if (s.dest d).enabled then (s.destZ s d).map saturate else silence
            clipCounter :=
              satAdd 65535 (s.dest d).clipCounter (if (s.dest d).enabled then clippedCount (s.destZ s d) else 0) }) ∧
      ∀ x, if (s.port x).state = .disabled then tget t.sent x = none ∧ (t.port x).outSeq = (s.port x).outSeq
        else (t.port x).outSeq = (s.port x).outSeq + 1 ∧
          (fillLane x s.timing.sample (s.atLane x)).1.length ≤ 8 ∧
          tget t.sent x =
            some (frameBytes (s.port x).outSeq s.straps.node (s.port x).width
              (((portDests x).take (s.slotCount x)).map fun d => (t.dest d).previousOutput)
              (fillLane x s.timing.sample (s.atLane x)).1)

/-- PERIOD_BOUNDARY (R4, R9, R10, R12, R47): every port closes the period: its sources take its report, and its miss count and
state move as the table of R10 gives.
R11, R104, R105: the ONLINE panels of a port lost go OFFLINE with their policies applied. R172, R173: the probing circuits
of a port lost enter LINK_LOST, and those in LINK_LOST of a port that enters UP start afresh; the tag generator, the
outstanding probes and the losses in a row move also by the probes that depart at the boundary (R163).
R16, R18: a pending change of reference takes effect, and the period that begins re-aligns after a change. The loss of the
selected port makes INTERNAL active and raises REFERENCE_LOST, and its return is marked to be taken up at the next boundary.
That the pending change is taken before the ports close is the model's choice (notes/assumptions/11.md), and that a loss
makes INTERNAL active at once its reading (13.md). -/
def Obligations.BoundaryClosesPorts : Prop :=
  ∀ s : State, s.awake = true → s.timing.place = 48 →
    ∃ t, exec .periodBoundary s = .next t ∧
      (∀ n, t.source n =
        if s.closesWithFrame (portOf n) then { s.source n with gapped := false }
        else { s.source n with gapped := true, gapCounter := satInc 65535 (s.source n).gapCounter }) ∧
      ∀ x,
        ((s.port x).state.carries = false → (t.port x).state = (s.port x).state) ∧
        ((s.port x).state.carries = true → (s.port x).settling = true →
          (t.port x).state = (s.port x).state ∧ (t.port x).missCount = (s.port x).missCount ∧
            (t.port x).settling = false) ∧
        ((s.port x).state.carries = true → (s.port x).settling = false →
          (s.closesWithFrame x = true →
            (t.port x).state = .up ∧ (t.port x).missCount = 0 ∧
              ((s.port x).state = .holdover → (t.event .portUp).isSet = true)) ∧
          (s.closesWithFrame x = false → (s.port x).missCount < 7 →
            (t.port x).state = .holdover ∧ (t.port x).missCount = (s.port x).missCount + 1) ∧
          (s.closesWithFrame x = false → 7 ≤ (s.port x).missCount →
            (t.port x).state = .down ∧ (t.port x).missCount = 0 ∧ (t.port x).lastSeq = none ∧
              (∀ i, (tget (t.port x).buffer i).stamp = none) ∧ (t.event .portDown).isSet = true ∧
              (s.straps.mgmt = x → t.orders = [] ∧ t.replies = [] ∧ t.block = none))) ∧
      let closes := fun (x : PortId) => (s.port x).state.carries = true ∧ (s.port x).settling = false
      let lost := fun (x : PortId) => closes x ∧ s.closesWithFrame x = false ∧ 7 ≤ (s.port x).missCount
      let back := fun (x : PortId) => closes x ∧ s.closesWithFrame x = true ∧ (s.port x).state = .holdover
      PanelsFollow s t lost ∧
      (∀ c,
        let r := s.circuit c
        let departed := fun (q : Circuit) =>
          { q with
              tagGenerator := (t.circuit c).tagGenerator, outstanding := (t.circuit c).outstanding
              lostInARow := (t.circuit c).lostInARow }
        (r.Probes ∧ s.CircuitOn r lost →
          t.circuit c = departed { r with state := .linkLost, intervalTimer := none } ∧
            (t.circuit c).outstanding = [] ∧ ∀ y, c ∉ t.probeQueue y) ∧
        (r.state = .linkLost ∧ s.CircuitOn r back →
          t.circuit c = departed (s.restarted r) ∧ (t.circuit c).lostInARow = 0) ∧
        (¬(r.Probes ∧ s.CircuitOn r lost) → ¬(r.state = .linkLost ∧ s.CircuitOn r back) → t.circuit c = departed r)) ∧
      let old := s.timing
      let now := t.timing
      let active := old.pending.getD old.active
      now.selected = old.selected ∧ now.refclkPresent = old.refclkPresent ∧
        (now.realigning = true ↔ old.changed = true ∨ active ≠ old.active) ∧
        (∀ x, old.selected = .port x → lost x →
          now.active = .internal ∧ now.pending = none ∧ (t.event .referenceLost).isSet = true ∧
            (t.event .referenceLost).inst = none) ∧
        (∀ x, old.selected = .port x → back x →
          now.active = active ∧ now.pending = if active = .port x then none else some (.port x)) ∧
        ((∀ x, old.selected = .port x → ¬lost x ∧ ¬back x) → now.active = active ∧ now.pending = none) ∧
        ((∀ x, old.selected = .port x → ¬lost x) →
          t.event .referenceLost = s.event .referenceLost ∧
            (active ≠ .internal → now.rate = .steered) ∧
            (active = .internal → old.selected = .internal → now.rate = .nominal))

/-! ## Frames -/

/-- FRAME_ARRIVAL (R1): a DISABLED port ignores every frame; on any other port a bad frame is counted and raises
FRAME_ERROR, and nothing of it is used.
FRAME_ARRIVAL (R3, R4): a good frame puts a DOWN port in LOCKING; consecutive frames count to 8, which is UP, with
PORT_UP raised and the running period settling; the frame that completes the count is then handled as one arriving in UP,
with its audio offered a stamp and its cells handed on (R5, R8). As the port enters UP its circuits in LINK_LOST start
afresh (R173), and the selected reference, if it is this port, is marked to be taken up at the next boundary (R18). That
the audio of the frame is taken before its cells, and its peaks slot by slot and circuit by circuit, is the model's choice
(notes/assumptions/28.md, 27.md), and that its lamps are derived at the end of the frame its reading (8.md). -/
def Obligations.FramesBeforeUp : Prop :=
  (∀ (x : PortId) (bytes : List Byte) (s : State), s.awake = true → Settled s →
      ((s.port x).state = .disabled → exec (.frameArrival x bytes) s = .next s) ∧
      ((s.port x).state ≠ .disabled → readFrame bytes = none →
        ∃ t, exec (.frameArrival x bytes) s = .next t ∧
          t.port x = { s.port x with frameErrors := satInc 65535 (s.port x).frameErrors } ∧
          (∀ y, y ≠ x → t.port y = s.port y) ∧ Raised s t .frameError (some x.val) ∧
          Touches [.ports, .events, .notices] s t)) ∧
  (∀ (x : PortId) (bytes : List Byte) (f : Frame) (s : State), s.awake = true → Settled s →
      readFrame bytes = some f →
      ((s.port x).state = .down →
        ∃ t, exec (.frameArrival x bytes) s = .next t ∧
          t.port x = { s.port x with state := .locking, lockCount := 1, lastSeq := some f.seq } ∧
          (∀ y, y ≠ x → t.port y = s.port y) ∧ Touches [.ports] s t) ∧
      ((s.port x).state = .locking → (s.port x).lastSeq ≠ some (f.seq - 1) →
        ∃ t, exec (.frameArrival x bytes) s = .next t ∧
          t.port x = { s.port x with lockCount := 1, lastSeq := some f.seq } ∧
          (∀ y, y ≠ x → t.port y = s.port y) ∧ Touches [.ports] s t) ∧
      ((s.port x).state = .locking → (s.port x).lastSeq = some (f.seq - 1) → (s.port x).lockCount < 7 →
        ∃ t, exec (.frameArrival x bytes) s = .next t ∧
          t.port x = { s.port x with lockCount := (s.port x).lockCount + 1, lastSeq := some f.seq } ∧
          (∀ y, y ≠ x → t.port y = s.port y) ∧ Touches [.ports] s t) ∧
      ((s.port x).state = .locking → (s.port x).lastSeq = some (f.seq - 1) → 7 ≤ (s.port x).lockCount →
        ∃ t, exec (.frameArrival x bytes) s = .next t ∧ (t.port x).state = .up ∧ (t.port x).missCount = 0 ∧
          (t.port x).settling = true ∧ (t.port x).lastSeq = some f.seq ∧ (∀ y, y ≠ x → t.port y = s.port y) ∧
          (t.event .portUp).isSet = true ∧ Touches frameFields s t ∧
          (tget (t.port x).buffer (s.timing.position + 1)).stamp = some (s.timing.period + 1) ∧
          ∃ u, t = flushLamps (f.cells.foldl (routeCell x s.timing.sample) (acceptAudio x f u)) ∧
            Touches [.ports, .events, .notices, .circuits, .reference] s u ∧ Raised s u .portUp (some x.val) ∧
            u.port x =
              { s.port x with
                  state := .up, lockCount := (s.port x).lockCount + 1, lastSeq := some f.seq, missCount := 0
                  settling := true } ∧
            (∀ c,
              ((s.circuit c).state = .linkLost ∧ s.CircuitOn (s.circuit c) (fun y => y = x) →
                u.circuit c = s.restarted (s.circuit c)) ∧
              (¬((s.circuit c).state = .linkLost ∧ s.CircuitOn (s.circuit c) (fun y => y = x)) →
                u.circuit c = s.circuit c)) ∧
            u.timing.selected = s.timing.selected ∧ u.timing.active = s.timing.active ∧
            u.timing.pending =
              (if s.timing.selected = .port x then (if s.timing.active = .port x then none else some (.port x))
              else s.timing.pending)))

/-- FRAME_ARRIVAL (R5 to R8, R48): an accepted frame takes the first free stamp of the two periods to come, its 64 peaks
are folded into its port's sources, and then its cells are handed on in order; with no stamp free it is a slip. That the
audio is taken before the cells, and the peaks slot by slot and circuit by circuit, is the model's choice
(notes/assumptions/28.md, 27.md), and that the lamps are derived at the end of the frame its reading (8.md). -/
def Obligations.FramesStamped : Prop :=
  ∀ (x : PortId) (bytes : List Byte) (f : Frame) (s : State), s.awake = true → Settled s →
    readFrame bytes = some f → (s.port x).state.carries = true →
    let m := s.timing.period
    let p := s.timing.position
    let held := fun (i : Fin 3) => (tget (s.port x).buffer i).stamp
    let kept := fun (stamp : Count) =>
      ({ stamp := some stamp, width := f.width, slotCount := f.slotCount, slots := f.slots } : BufferPosition)
    let folded := fun (t : State) (stamp : Count) =>
      ∀ i, (t.source (slotNumber x i)).peakHold =
        max (s.source (slotNumber x i)).peakHold (peakOf ((kept stamp).slot i))
    ∃ t, exec (.frameArrival x bytes) s = .next t ∧
      t = flushLamps (f.cells.foldl (routeCell x s.timing.sample) (acceptAudio x f s)) ∧
      Touches frameFields s t ∧ (∀ y, y ≠ x → t.port y = s.port y) ∧
      (held (p + 1) ≠ some (m + 1) →
        t.port x = { s.port x with buffer := tset (s.port x).buffer (p + 1) (kept (m + 1)) } ∧ folded t (m + 1)) ∧
      (held (p + 1) = some (m + 1) → held (p + 2) ≠ some (m + 2) →
        t.port x = { s.port x with buffer := tset (s.port x).buffer (p + 2) (kept (m + 2)) } ∧ folded t (m + 2)) ∧
      (held (p + 1) = some (m + 1) → held (p + 2) = some (m + 2) →
        t.port x = { s.port x with slips := satInc 65535 (s.port x).slips } ∧ t.sources = s.sources ∧
          (t.event .slip).isSet = true)

/-- R23: an ORDER cell of an accepted frame is queued only from the management port with the part's own node, and raises
CELL_OVERFLOW at a full queue; a body length above 28, the kinds the part only sends and the kinds that R41 does not list
are discarded.
R102, R106: a KEY_EVENT, KEY_MAP or ENCODER cell reaches the one configured panel of its port and header node. Without one
it is discarded. OFFLINE, the panel takes a KEY_MAP alone, which brings it ONLINE; ONLINE, the cell restarts the silence
timer of 1000 ms and moves a key, every key or an encoder, and a key, position or encoder number out of range is
discarded.
R165: an ECHO cell is taken for an enabled circuit on the circuit's port with its gateway's node. A tag of 32768 or more is
no probe's, so that the echo is stray (the model's reading, notes/assumptions/23.md). -/
def Obligations.OrderCellsQueued : Prop :=
  (∀ (x : PortId) (arrival : Count) (cell : List Byte) (s : State), s.timing.atBoundary = false →
    (28 < (byteAt cell 3).toNat → routeCell x arrival s cell = s) ∧
    (byteAt cell 0 = 1 → (byteAt cell 3).toNat ≤ 28 →
      (x ≠ s.straps.mgmt ∨ byteAt cell 1 ≠ s.straps.node.setWidth 8 → routeCell x arrival s cell = s) ∧
      (x = s.straps.mgmt → byteAt cell 1 = s.straps.node.setWidth 8 →
        (s.orders.length < 16 →
          routeCell x arrival s cell =
            { s with orders := s.orders ++ [{ tag := byteAt cell 2, body := cellBody cell }] }) ∧
        (16 ≤ s.orders.length →
          Raised s (routeCell x arrival s cell) .cellOverflow (some x.val) ∧
            Touches [.events, .notices] s (routeCell x arrival s cell)))) ∧
    (byteAt cell 0 ∉ [0x01, 0x10, 0x11, 0x12, 0x21] → routeCell x arrival s cell = s)) ∧
  (∀ (x : PortId) (arrival : Count) (cell : List Byte) (c : KeyCell) (s : State), (byteAt cell 3).toNat ≤ 28 →
    let b := cellBody cell
    byteAt cell 0 = 0x10 ∧ c = .event (byteAt b 0) (byteAt b 1) ∨ byteAt cell 0 = 0x11 ∧ c = .map (u32At b 0) ∨
      byteAt cell 0 = 0x12 ∧ c = .encoder (byteAt b 0) (byteAt b 1) →
    let t := routeCell x arrival s cell
    let addressed := fun (p : PanelId) =>
      (s.panel p).configured = true ∧ (s.panel p).port = x ∧ (s.panel p).node.toNat = (byteAt cell 1).toNat
    ((∀ p, ¬addressed p) → t = s) ∧
    ∀ p, addressed p → (∀ q, addressed q → q = p) →
      let u := s.setPanel p { s.panel p with silenceTimer := some (s.timing.sample + 48000) }
      ((s.panel p).online = .unconfigured → t = s) ∧
      ((s.panel p).online = .offline →
        t = match c with
          | .map positions => panelOnline p positions s
          | .event _ _ => s
          | .encoder _ _ => s) ∧
      ((s.panel p).online = .online →
        t = match c with
          | .event key position =>
            if h : key.toNat < 32 then
              if position = 0 then keyPosition (keyIndex p ⟨key.toNat, h⟩) false u
              else if position = 1 then keyPosition (keyIndex p ⟨key.toNat, h⟩) true u
              else u
            else u
          | .map positions => (allOf 32).foldl (fun v n => keyPosition (keyIndex p n) (positions.getLsbD n.val) v) u
          | .encoder index delta => if h : index.toNat < 4 then turnEncoder p ⟨index.toNat, h⟩ delta.toInt u else u)) ∧
  ∀ (x : PortId) (arrival : Count) (cell : List Byte) (s : State), (byteAt cell 3).toNat ≤ 28 → byteAt cell 0 = 0x21 →
    let b := cellBody cell
    let t := routeCell x arrival s cell
    (16 ≤ (byteAt b 2).toNat → t = s) ∧
    ∀ c : CircuitId, (byteAt b 2).toNat = c.val →
      let r := s.circuit c
      let taken : Prop :=
        r.state ≠ .disabled ∧ (∃ d, (s.station r.reporter).dest = some d ∧ portOf d = x) ∧
          (byteAt cell 1).toNat = r.gateway.toNat
      (¬taken → t = s) ∧
      (taken →
        ((u16At b 0).toNat < 32768 → t = acceptEcho c ((u16At b 0).setWidth 15) arrival s) ∧
        (32768 ≤ (u16At b 0).toNat → t = s.setCircuit c { r with strayEchoes := satInc 65535 r.strayEchoes }))

/-! ## Ports and reference timing -/

/-- REFCLK_ABSENT and REFCLK_PRESENT (R17, R18): the present field follows the pin; the loss of the selected reference makes
INTERNAL active and raises REFERENCE_LOST, and its return is taken up at the next boundary. That INTERNAL is active from
the loss on, with a pending change dropped, and not from the next boundary on (R16), is the model's reading
(notes/assumptions/13.md). -/
def Obligations.RefclkMoves : Prop :=
  ∀ s : State, s.awake = true → Settled s →
    (s.timing.refclkPresent = true →
      ∃ t, exec .refclkAbsent s = .next t ∧ t.timing.refclkPresent = false ∧ t.timing.selected = s.timing.selected ∧
        (s.timing.selected = .refclk →
          t.timing.active = .internal ∧ t.timing.pending = none ∧ Raised s t .referenceLost none) ∧
        (s.timing.selected ≠ .refclk → t.timing.active = s.timing.active ∧ t.events = s.events) ∧
        Touches [.reference, .events, .notices] s t) ∧
    (s.timing.refclkPresent = false →
      ∃ t, exec .refclkPresent s = .next t ∧ t.timing.refclkPresent = true ∧ t.timing.selected = s.timing.selected ∧
        t.timing.active = s.timing.active ∧
        (s.timing.selected = .refclk → s.timing.active ≠ .refclk → t.timing.pending = some .refclk) ∧
        (s.timing.selected ≠ .refclk → t.timing.pending = s.timing.pending) ∧ Touches [.reference] s t)

/-! ## The order unit -/

/-- R27: an order that is not at the head, whose turn it is not, or for whose reply no room is, waits: its command changes
nothing (notes/assumptions/3.md). So does a block step that cannot be taken. -/
def Obligations.OrderWaits : Prop :=
  ∀ s : State,
    (∀ (c : Instr) (tag : Byte) (o : Order), commandOrder c = some (tag, o) → s.orderReady tag o = false →
      exec c s = .next s) ∧
    (s.stepReady = false →
      exec .blockReadStep s = .next s ∧ exec .fillStep s = .next s ∧ exec .meterReadStep s = .next s ∧
        exec .routeListStep s = .next s)

/-- RECORD_READ (R30, R43): the named fields of the record as they stand, packed in the value area, zeros beyond them.
The fields of each table in the order of their numbers (R2, R14, R45, R50, R57, R99, R108, R124, R157, R175, R190, R194),
in the coding of R29: yes 1, an enumeration by its place in its chapter's list, an absent value all ones. That an absent
party member, too, reads as all ones, its flag bits with the rest, is the model's reading (notes/assumptions/33.md). -/
def Obligations.RecordReadAnswers : Prop :=
  (∀ (tag table : Byte) (index : BitVec 16) (mask : BitVec 32) (tn : TableName) (s : State),
    s.Ready tag (.recordRead table index mask) → tableOf table = some tn → index.toNat < tn.records →
    maskOk (tn.widths index.toNat) 20 mask = true →
    ∃ t, exec (.recordRead tag table index mask) s = .next t ∧
      Answered s t tag
        (stated ([1, 0, 128, table] ++ bytesOfNat 2 index.toNat) ++ unstated 2 ++
          stated (packFields (tn.widths index.toNat) (s.values tn index.toNat) mask 20)) []) ∧
  ∀ s : State,
    let yes := fun b : Bool => if b then 1 else 0
    let refs : List RefSource := [.internal, .refclk, .port 0, .port 1, .port 2, .port 3]
    (∀ x : PortId, let r := s.port x
      s.values .port x.val =
        [[PortState.disabled, .down, .locking, .up, .holdover].idxOf r.state, yes r.enabled,
          if r.width = .w16 then 16 else 24, r.lockCount,
          match r.lastSeq with | some n => n.toNat | none => 4294967295,
          r.missCount, r.outSeq.toNat, r.frameErrors, r.slips]) ∧
    s.values .port 4 =
      [refs.idxOf s.timing.selected, refs.idxOf s.timing.active, yes s.timing.refclkPresent, s.timing.period.toNat,
        s.timing.sample.toNat] ∧
    (∀ n : SourceId, let r := s.source n
      s.values .source n.val = [yes r.enabled, r.trim.val, r.isolation, r.peakHold, yes r.gapped, r.gapCounter]) ∧
    (∀ d : DestId, let r := s.dest d
      s.values .destination d.val =
        [yes r.enabled, [DestKind.plain, .ifb, .monitor].idxOf r.kind, r.outputLevel.val, r.appliedOutput,
          r.dimCode.val, match r.circuit with | some c => c.val | none => 255, r.clipCounter]) ∧
    (∀ x : StationId, let r := s.station x
      s.values .station x.val =
        [[StationKind.unused, .panel, .beltpack, .reporter, .fixed].idxOf r.kind,
          match r.source with | some n => n.val | none => 65535,
          match r.dest with | some d => d.val | none => 65535]) ∧
    (∀ p : PanelId, let r := s.panel p
      let each := fun (f : Encoder → Nat) => (allOf 4).map fun i => f (tget r.encoders i)
      let callers := (List.range 4).foldl
        (fun n i => n * 256 + match r.replyList[i]? with | some e => e.station.val | none => 0) (r.replyList.length % 256)
      s.values .panel p.val =
        [yes r.configured, r.port.val, r.node.toNat, r.ownStation.val,
          [LossPolicy.keepLatched, .dropAll, .keepAll].idxOf r.lossPolicy, r.latchWindow, r.replyExpiry,
          [OnlineState.unconfigured, .offline, .online].idxOf r.online] ++
        each (fun e => [EncoderMode.x1, .x2, .x4].idxOf e.mode) ++
        each (fun e => match e.target with | some n => n.val + 1 | none => 0) ++ each (fun e => e.minimum.val) ++
        each (fun e => e.maximum.val) ++ each (fun e => (e.residue % 256).toNat) ++
        [callers, r.lampPending.toNat, yes r.cadencePending]) ∧
    (∀ k : KeyId, let r := s.key k
      s.values .key k.val =
        [[KeyFunction.unassigned, .talkStation, .listenStation, .talkParty, .ifb, .callStation, .reply].idxOf r.function,
          match r.target with | some n => n.val | none => 65535,
          [KeyMode.momentary, .latching, .auto].idxOf r.mode, [Priority.low, .high].idxOf r.priority, r.talkLevel.val,
          [KeyState.idle, .pressed, .momentaryOn, .latched, .unlatching, .refusedHeld].idxOf r.state, yes r.down,
          [Standing.outside, .waiting, .current].idxOf r.standing,
          match r.resolved with | some x => x.val | none => 255, yes (r.winkTimer != none)]) ∧
    (∀ p : PartyId, let r := s.party p
      (s.values .party p.val).length = 27 ∧
      (s.values .party p.val).take 3 = [yes r.enabled, r.level.val, r.members.length] ∧
      ∀ i < 24,
        (∀ m, r.members[i]? = some m →
          (s.values .party p.val)[3 + i]? = some (m.station.val * 256 + yes m.talk + 2 * yes m.listen)) ∧
        (r.members[i]? = none → (s.values .party p.val)[3 + i]? = some 65535)) ∧
    (∀ c : CircuitId, let r := s.circuit c
      let orOnes := fun (o : Option Nat) => o.getD 65535
      s.values .circuit c.val =
        [yes r.enabled, [CircuitState.disabled, .starting, .normal, .degraded, .linkLost].idxOf r.state, r.reporter.val,
          r.gateway.toNat, r.probeInterval, r.probeTimeout, r.upperLimit, r.lowerLimit, r.degradeCode.val,
          r.silenceThreshold, r.silenceTime, orOnes r.estimate, orOnes r.last, orOnes r.previous, r.lostInARow,
          r.strayEchoes, yes r.silent, r.silentMs, r.tagGenerator.toNat, r.outstanding.length] ++
        (List.range 4).map fun i => match r.outstanding[i]? with
          | some p => p.tag.toNat * 4294967296 + p.sent.toNat
          | none => 281474976710655) ∧
    (∀ x : TapId, let r := s.tap x
      s.values .tap x.val =
        [yes r.enabled, [TapSide.source, .destination].idxOf r.side, r.base.toNat, r.mask.toNat, r.monitor.val,
          r.level.val, yes r.forward, r.applied]) ∧
    (∀ c : CadenceId, let r := s.cadence c
      s.values .cadence c.val = [r.period, r.bright, r.dim, r.brightLevel, r.dimLevel]) ∧
    ∀ k : EventKind, let r := s.event k
      s.values .event k.number.val =
        [yes r.isSet, r.count, r.inst.getD 65535, yes r.enable, [EventRoute.notice, .alarm, .both].idxOf r.route]

/-- R28, R31: RECORD_READ and RECORD_WRITE are refused by an unlisted table, then by an index the table lacks, then by the
mask; nothing else changes. -/
def Obligations.RecordOrdersRefused : Prop :=
  ∀ (tag table : Byte) (index : BitVec 16) (mask : BitVec 32) (values : List Byte) (s : State),
    let refusedRead := fun (r : Result) =>
      ∃ t, exec (.recordRead tag table index mask) s = .next t ∧
        Answered s t tag (stated ([1, r.code, 128, table] ++ bytesOfNat 2 index.toNat) ++ unstated 22) []
    let refusedWrite := fun (r : Result) =>
      ∃ t, exec (.recordWrite tag table index mask values) s = .next t ∧
        Answered s t tag
          (stated ([2, r.code, 128, table] ++ bytesOfNat 2 index.toNat) ++ unstated 2 ++
            stated (List.replicate 20 0)) []
    (s.Ready tag (.recordRead table index mask) →
      (tableOf table = none → refusedRead .badTable) ∧
      ∀ tn, tableOf table = some tn →
        (tn.records ≤ index.toNat → refusedRead .badIndex) ∧
        (index.toNat < tn.records → maskOk (tn.widths index.toNat) 20 mask = false → refusedRead .badValue)) ∧
    (s.Ready tag (.recordWrite table index mask values) →
      (tableOf table = none → refusedWrite .badTable) ∧
      ∀ tn, tableOf table = some tn →
        (tn.records ≤ index.toNat → refusedWrite .badIndex) ∧
        (index.toNat < tn.records → writeMaskOk tn index.toNat 20 mask = false → refusedWrite .badValue))

/-- R28, R31: each write row of the opcode table is the RECORD_WRITE of its row's table that names its row's fields
(notes/assumptions/4.md), so that every such RECORD_WRITE has its row's effect and every row has RECORD_WRITE's.
RECORD_WRITE (R31): an accepted write answers with the result of its table's chapter, on the state that chapter's
write leaves: every table, the arbiters and the queues read as that write leaves them, and of the panel records only the
lamps still to be sent may differ. -/
def Obligations.RecordWriteAnswers : Prop :=
  (∀ (c : Instr) (tag table : Byte) (index : BitVec 16) (mask : BitVec 32) (values : List Byte) (s : State),
      c.wellFormed = true → commandOrder c = some (tag, .recordWrite table index mask values) →
      exec c s = exec (.recordWrite tag table index mask values) s) ∧
  (∀ (tag : Byte) (tn : TableName) (index : BitVec 16) (mask : BitVec 32) (values : List Byte) (s : State),
      WriteReady s tn tag index mask values →
      let w := writeRecord tn index.toNat (writtenValues tn index mask values) (takeHead s)
      ∃ t, exec (.recordWrite tag tn.code index mask values) s = .next t ∧
        Wrote s t tn tag index w.2 (.panels :: tn.fields) ∧
        t.sources = w.1.sources ∧ t.dests = w.1.dests ∧ t.stations = w.1.stations ∧ t.keys = w.1.keys ∧
        t.entries = w.1.entries ∧ t.parties = w.1.parties ∧ t.circuits = w.1.circuits ∧ t.taps = w.1.taps ∧
        t.cadences = w.1.cadences ∧ t.events = w.1.events ∧ t.ports = w.1.ports ∧ t.timing = w.1.timing ∧
        t.arbiters = w.1.arbiters ∧ t.probeQueues = w.1.probeQueues ∧ t.notices = w.1.notices ∧
        t.orders = w.1.orders ∧ t.block = w.1.block ∧ PanelsButLamps w.1 t)

/-- The acceptance of BLOCK_READ, FILL, METER_READ and ROUTE_LIST (R28, R32): with no block in flight the order is placed in
flight at its start, its count cut at the end of the table, and builds no reply; with one in flight it is BUSY.
They are refused before that: BAD_TABLE by an unlisted table, then BAD_INDEX by a start the table lacks, then BAD_VALUE by
a count outside its range, a direction other than 0 and 1, the mask of the start record or, for FILL, by a value; nothing
else changes.
The values that `valuesRefused` refuses are BAD_VALUE for a write of any record of the table, whatever it holds. That
these, with the limits between two fields among them, are the checks R32 makes at acceptance is the model's reading
(notes/assumptions/24.md). -/
def Obligations.BlockOrdersPlaced : Prop :=
  (∀ (tag table : Byte) (start : BitVec 16) (mask : BitVec 32) (count : BitVec 16) (direction : Byte)
    (values : List Byte) (first n dest : Byte) (tn : TableName) (down : Bool) (s : State),
    let placed := fun (c : Instr) (b : Block) =>
      ∃ t, exec c s = .next t ∧ OrderTaken s t ∧ t.block = some b ∧
        Touches [.orders, .lastUnit, .unitTaken, .block] s t
    let refused := fun (c : Instr) (layout : List (Option Byte)) =>
      ∃ t, exec c s = .next t ∧ Answered s t tag layout []
    let span := cutCount start.toNat count.toNat tn.records down
    let layout := fun (code : Byte) (r : Result) =>
      stated [code, r.code, 128, table] ++ unstated 2 ++ stated [0, 0] ++ unstated 20
    let meterLayout := fun (r : Result) =>
      stated [13, r.code, 128] ++ unstated 1 ++ stated (List.replicate 24 0)
    let read := Instr.blockRead tag table start mask count direction
    let fill := Instr.fill tag table start mask count direction values
    let named := namedValues (tn.widths start.toNat) mask values
    (s.Ready tag (.blockRead table start mask count direction) →
      (tableOf table = none → refused read (layout 3 .badTable)) ∧
      (tableOf table = some tn →
        (tn.records ≤ start.toNat → refused read (layout 3 .badIndex)) ∧
        (start.toNat < tn.records →
          (1 < direction.toNat ∨ count.toNat = 0 ∨ 256 < count.toNat ∨
            maskOk (tn.widths start.toNat) 20 mask = false → refused read (layout 3 .badValue)) ∧
          (readDirection direction = some down → 1 ≤ count.toNat → count.toNat ≤ 256 →
            maskOk (tn.widths start.toNat) 20 mask = true →
            (s.block = none → placed read
              { tag := tag, work := .blockRead tn mask down, next := start.toNat, remaining := span, handled := 0 }) ∧
            (s.block ≠ none → refused read (layout 3 .busy)))))) ∧
    (s.Ready tag (.fill table start mask count direction values) →
      (tableOf table = none → refused fill (layout 4 .badTable)) ∧
      (tableOf table = some tn →
        (tn.records ≤ start.toNat → refused fill (layout 4 .badIndex)) ∧
        (start.toNat < tn.records →
          (1 < direction.toNat ∨ count.toNat = 0 ∨ 256 < count.toNat ∨ writeMaskOk tn start.toNat 16 mask = false ∨
            valuesRefused tn start.toNat named = true → refused fill (layout 4 .badValue)) ∧
          (readDirection direction = some down → 1 ≤ count.toNat → count.toNat ≤ 256 →
            writeMaskOk tn start.toNat 16 mask = true → valuesRefused tn start.toNat named = false →
            (s.block = none → placed fill
              { tag := tag, work := .fill tn mask down values, next := start.toNat, remaining := span, handled := 0 }) ∧
            (s.block ≠ none → refused fill (layout 4 .busy)))))) ∧
    (s.Ready tag (.meterRead first n) →
      (n.toNat = 0 ∨ 64 < n.toNat → refused (.meterRead tag first n) (meterLayout .badValue)) ∧
      (1 ≤ n.toNat → n.toNat ≤ 64 →
        (s.block = none → placed (.meterRead tag first n)
          { tag := tag, work := .meterRead, next := first.toNat, remaining := min n.toNat (256 - first.toNat),
            handled := 0 }) ∧
        (s.block ≠ none → refused (.meterRead tag first n) (meterLayout .busy)))) ∧
    (s.Ready tag (.routeList dest) →
      (s.block = none → placed (.routeList tag dest)
        { tag := tag, work := .routeList dest.toFin none, next := 0, remaining := 0, handled := 0 }) ∧
      (s.block ≠ none → refused (.routeList tag dest) (stated ([8, 7, 128, 0] ++ List.replicate 24 0))))) ∧
  ∀ (tn : TableName) (i j : Nat) (l : List FieldValue) (s : State), i < tn.records → j < tn.records →
    (tn = .port → (i = 4 ↔ j = 4)) → (∀ c, (s.circuit c).upperLimit ≤ 65535) →
    valuesRefused tn i l = true → writeRecord tn j l s = (s, .badValue)

/-- BLOCK_READ_STEP (R33, R43): one record is reported with the count handled so far; the last step sets the final mark and
ends the block; a step whose mask does not fit the record it reaches reports BAD_VALUE and ends the block.
FILL_STEP (R33, R43): one record is written as RECORD_WRITE writes it, with every side effect; the last step and a refused
one build the reply and end the block. -/
def Obligations.BlockReadAndFillSteps : Prop :=
  (∀ (b : Block) (tn : TableName) (mask : BitVec 32) (down : Bool) (s : State),
      s.StepReady b → b.work = .blockRead tn mask down → maskOk (tn.widths b.next) 20 mask = true →
      ∃ t, exec .blockReadStep s = .next t ∧ StepTaken t ∧
        Replied s t b.tag
          (stated ([3, 0, if b.remaining ≤ 1 then 128 else 0, tn.code] ++ bytesOfNat 2 b.next ++
              bytesOfNat 2 (b.handled + 1) ++
            packFields (tn.widths b.next) (s.values tn b.next) mask 20)) ∧
        t.block =
          (if b.remaining ≤ 1 then none
          else some { b with next := if down then b.next - 1 else b.next + 1, remaining := b.remaining - 1,
                             handled := b.handled + 1 }) ∧
        Touches [.lastUnit, .unitTaken, .replies, .draws, .block] s t) ∧
  (∀ (b : Block) (tn : TableName) (mask : BitVec 32) (down : Bool) (s : State),
      s.StepReady b → b.work = .blockRead tn mask down → maskOk (tn.widths b.next) 20 mask = false →
      ∃ t, exec .blockReadStep s = .next t ∧ StepTaken t ∧ t.block = none ∧
        Replied s t b.tag
          (stated ([3, 3, 128, tn.code] ++ bytesOfNat 2 b.next ++ bytesOfNat 2 b.handled ++ List.replicate 20 0)) ∧
        Touches [.lastUnit, .unitTaken, .replies, .draws, .block] s t) ∧
  (∀ (b : Block) (tn : TableName) (mask : BitVec 32) (down : Bool) (values : List Byte) (s : State),
      s.StepReady b → b.work = .fill tn mask down values → writeMaskOk tn b.next 16 mask = false →
      ∃ t, exec .fillStep s = .next t ∧ StepTaken t ∧ t.block = none ∧
        Replied s t b.tag
          (stated ([4, 3, 128, tn.code] ++ bytesOfNat 2 b.next ++ bytesOfNat 2 b.handled) ++ unstated 20) ∧
        Touches [.lastUnit, .unitTaken, .replies, .draws, .block] s t) ∧
  (∀ (b : Block) (tn : TableName) (mask : BitVec 32) (down : Bool) (values : List Byte) (s : State),
      s.StepReady b → b.work = .fill tn mask down values → writeMaskOk tn b.next 16 mask = true →
      b.next < tn.records →
      let w := writeRecord tn b.next (namedValues (tn.widths b.next) mask values) (takeStep s)
      ∃ t, exec .fillStep s = .next t ∧ StepTaken t ∧
        t.sources = w.1.sources ∧ t.dests = w.1.dests ∧ t.stations = w.1.stations ∧ t.keys = w.1.keys ∧
        t.entries = w.1.entries ∧ t.parties = w.1.parties ∧ t.circuits = w.1.circuits ∧ t.taps = w.1.taps ∧
        t.cadences = w.1.cadences ∧ t.events = w.1.events ∧ t.ports = w.1.ports ∧ t.timing = w.1.timing ∧
        t.arbiters = w.1.arbiters ∧ t.probeQueues = w.1.probeQueues ∧ t.notices = w.1.notices ∧
        t.orders = w.1.orders ∧ PanelsButLamps w.1 t ∧
        (w.2 = .ok → 1 < b.remaining →
          t.replies = w.1.replies ∧
          t.block = some { b with next := if down then b.next - 1 else b.next + 1, remaining := b.remaining - 1,
                                  handled := b.handled + 1 }) ∧
        (w.2 = .ok → b.remaining ≤ 1 →
          t.block = none ∧ Replied w.1 t b.tag
            (stated ([4, 0, 128, tn.code] ++ bytesOfNat 2 b.next ++ bytesOfNat 2 (b.handled + 1)) ++ unstated 20)) ∧
        (w.2 ≠ .ok →
          t.block = none ∧ Replied w.1 t b.tag
            (stated ([4, w.2.code, 128, tn.code] ++ bytesOfNat 2 b.next ++ bytesOfNat 2 b.handled) ++ unstated 20)))

/-- METER_READ_STEP (R35): up to eight peak holds are reported as they stand and then set to 0; no other source record
changes.
ROUTE_LIST_STEP (R34): up to three of the destination's entries created after the last one reported, in creation
order; the step that reaches the end of the list sets the final mark and ends the block. That the place in the list is kept
as the serial number of the last entry reported is the model's choice (notes/assumptions/17.md). -/
def Obligations.MeterAndListSteps : Prop :=
  (∀ (b : Block) (s : State), s.StepReady b → b.work = .meterRead → b.next + b.remaining ≤ 256 →
      let n := min 8 b.remaining
      ∃ t, exec .meterReadStep s = .next t ∧ StepTaken t ∧
        Replied s t b.tag
          (stated ([13, 0, (if b.remaining ≤ 8 then 128 else 0) + BitVec.ofNat 8 (b.handled + n), BitVec.ofNat 8 b.next] ++
            slice ((meterSources b).flatMap fun i => bytesOfNat 3 (s.source i).peakHold) 0 24)) ∧
        (∀ i, t.source i =
          if b.next ≤ i.val ∧ i.val < b.next + n then { s.source i with peakHold := 0 } else s.source i) ∧
        t.block =
          (if b.remaining ≤ 8 then none
          else some { b with next := b.next + 8, remaining := b.remaining - 8, handled := b.handled + 8 }) ∧
        Touches [.lastUnit, .unitTaken, .replies, .draws, .block, .sources] s t) ∧
  (∀ (b : Block) (d : DestId) (place : Option Nat) (s : State), s.StepReady b → b.work = .routeList d place →
      let left := (s.entriesOf d).filter fun e => match place with
        | some n => decide (n < e.serial)
        | none => true
      let now := left.take 3
      ∃ t, exec .routeListStep s = .next t ∧ StepTaken t ∧
        Replied s t b.tag
          (stated ([8, 0, if left.length ≤ 3 then 128 else 0, BitVec.ofNat 8 (min 255 (b.handled + now.length))] ++
            slice (now.flatMap entryBytes) 0 24)) ∧
        (left.length ≤ 3 → t.block = none) ∧
        (3 < left.length → ∃ e, now.getLast? = some e ∧
          t.block = some { b with work := .routeList d (some e.serial), handled := b.handled + 3 }) ∧
        Touches [.lastUnit, .unitTaken, .replies, .draws, .block] s t)

/-- ROUTE_ADD, ROUTE_REMOVE and ROUTE_NUDGE (R37, R43): the routes are handled in order, each on the state the ones before
it leave, and the reply carries one result for each; a route count outside 1..6 is BAD_VALUE and handles none. The reply of
a refused count carries it in byte 3, and its results are free (notes/assumptions/6.md). -/
def Obligations.RouteOrdersAnswer : Prop :=
  ∀ (tag count direction stepCode : Byte) (routes : List RouteArg) (pairs : List PairArg) (down : Bool) (s : State),
    let added := eachRoute addRoute routes (takeHead s)
    let removed := eachRoute removeRoute pairs (takeHead s)
    let nudged := eachRoute (nudgeRoute down stepCode.toNat) pairs (takeHead s)
    (s.Ready tag (.routeAdd count routes) →
      (countOk count = true → ∃ t, exec (.routeAdd tag count routes) s = .next t ∧
        Answered s t tag (stated ([5, 0, 128, count] ++ added.2.map Result.code)) (.panels :: arriveFields) ∧
        t.entries = added.1.entries ∧ PanelsButLamps s t) ∧
      (countOk count = false → ∃ t, exec (.routeAdd tag count routes) s = .next t ∧
        Answered s t tag (stated [5, 3, 128, count] ++ unstated 24) [])) ∧
    (s.Ready tag (.routeRemove count pairs) →
      (countOk count = true → ∃ t, exec (.routeRemove tag count pairs) s = .next t ∧
        Answered s t tag (stated ([6, 0, 128, count] ++ removed.2.map Result.code)) (.panels :: arriveFields) ∧
        t.entries = removed.1.entries ∧ PanelsButLamps s t) ∧
      (countOk count = false → ∃ t, exec (.routeRemove tag count pairs) s = .next t ∧
        Answered s t tag (stated [6, 3, 128, count] ++ unstated 24) [])) ∧
    (s.Ready tag (.routeNudge count direction stepCode pairs) → readDirection direction = some down →
      (countOk count = true → stepCode.toNat ≤ 15 → pairs.length ≤ 6 →
        ∃ t, exec (.routeNudge tag count direction stepCode pairs) s = .next t ∧
          Answered s t tag
            (stated ([7, 0, 128, count] ++ nudged.2.map fun x => x.1.code) ++ unstated (6 - pairs.length) ++
              stated (nudged.2.map fun x => BitVec.ofNat 8 x.2)) [.entries] ∧
          t.entries = nudged.1.entries) ∧
      (countOk count = true → 15 < stepCode.toNat →
        ∃ t, exec (.routeNudge tag count direction stepCode pairs) s = .next t ∧
          Answered s t tag
            (stated ([7, 0, 128, count] ++ pairs.map fun _ => 3) ++ unstated (6 - pairs.length) ++
              stated (pairs.map fun _ => 0)) []) ∧
      (countOk count = false → ∃ t, exec (.routeNudge tag count direction stepCode pairs) s = .next t ∧
        Answered s t tag (stated [7, 3, 128, count] ++ unstated 24) []))

/-- R73: one route of ROUTE_ADD.
R74, R75: one route of ROUTE_REMOVE, and one pair of ROUTE_NUDGE. -/
def Obligations.RouteResults : Prop :=
  (∀ (r : RouteArg) (s : State),
      let src : SourceId := r.source.toFin
      let d : DestId := r.dest.toFin
      (1 < r.cls.toNat ∨ r.level = 0 → addRoute r s = (s, .badValue)) ∧
      (r.cls.toNat ≤ 1 → r.level ≠ 0 →
        ((s.dest d).kind = .monitor → addRoute r s = (s, .wrongKind)) ∧
        ((s.dest d).kind ≠ .monitor →
          (∀ e, s.findEntry src d = some e → e.static = true → addRoute r s = (s, .duplicate)) ∧
          (∀ e, s.findEntry src d = some e → e.static = false →
            (addRoute r s).2 = .ok ∧
            (addRoute r s).1.findEntry src d =
              some { e with static := true, state := .active, level := clampLevel r.level.toNat,
                            cls := if r.cls = 0 then .programme else .talk }) ∧
          (s.findEntry src d = none → s.hasRoom d 1 = false → addRoute r s = (s, .full)) ∧
          (s.findEntry src d = none → s.hasRoom d 1 = true →
            (addRoute r s).2 = .ok ∧
            (addRoute r s).1.entriesOf d = s.entriesOf d ++
              [{ source := src, dest := d, level := clampLevel r.level.toNat,
                 cls := if r.cls = 0 then .programme else .talk, state := .active, static := true, grants := [],
                 parties := [], taps := [], applied := 0, serial := s.nextSerial }])))) ∧
  (∀ (r : PairArg) (down : Bool) (stepCode : Nat) (s : State), StoreInv s →
      let src : SourceId := r.source.toFin
      let d : DestId := r.dest.toFin
      (((∀ e, s.findEntry src d = some e → e.static = false)) →
        removeRoute r s = (s, .notFound) ∧ nudgeRoute down stepCode r s = (s, .notFound, 0)) ∧
      (∀ e, s.findEntry src d = some e → e.static = true →
        (removeRoute r s).2 = .ok ∧
        (removeRoute r s).1.findEntry src d =
          some { e with static := false
                        state := if e.grants = [] ∧ e.parties = [] ∧ e.taps = [] then .releasing else .active } ∧
        ∃ l : Level, l.val = (if down then max 1 (e.level.val - (stepCode + 1)) else min 159 (e.level.val + (stepCode + 1))) ∧
          (nudgeRoute down stepCode r s).2 = (.ok, l.val) ∧
          (nudgeRoute down stepCode r s).1.findEntry src d = some { e with level := l }))

/-- SWAP (R76, R77): refused in the order of its checks; accepted, the static holders of the two destinations change
places, each with its level and class. -/
def Obligations.SwapExchanges : Prop :=
  ∀ (tag a b : Byte) (s : State), s.Ready tag (.swap a b) → StoreInv s →
    let da : DestId := a.toFin
    let db : DestId := b.toFin
    let refused := fun (r : Result) =>
      ∃ t, exec (.swap tag a b) s = .next t ∧
        Answered s t tag (stated ([9, r.code, 128] ++ List.replicate 25 0)) []
    (da = db → refused .badValue) ∧
    (da ≠ db →
      ((s.dest da).kind ≠ (s.dest db).kind ∨ (s.dest da).kind = .monitor ∨ (s.dest db).kind = .monitor →
        refused .wrongKind) ∧
      ((s.dest da).kind = (s.dest db).kind → (s.dest da).kind ≠ .monitor → s.swapCheck da db = .full → refused .full) ∧
      (s.swapCheck da db = .ok →
        ∃ t, exec (.swap tag a b) s = .next t ∧
          Answered s t tag (stated ([9, 0, 128] ++ List.replicate 25 0)) (.panels :: arriveFields) ∧ PanelsButLamps s t ∧
          (∀ n, (∀ e, s.findEntry n da = some e → e.static = true →
              ∃ e', t.findEntry n db = some e' ∧ e'.static = true ∧ e'.level = e.level ∧ e'.cls = e.cls) ∧
            (∀ e, s.findEntry n db = some e → e.static = true →
              ∃ e', t.findEntry n da = some e' ∧ e'.static = true ∧ e'.level = e.level ∧ e'.cls = e.cls) ∧
            ((∀ e, s.findEntry n da = some e → e.static = false) →
              ∀ e', t.findEntry n db = some e' → e'.static = false) ∧
            ((∀ e, s.findEntry n db = some e → e.static = false) →
              ∀ e', t.findEntry n da = some e' → e'.static = false)) ∧
          ∀ d, d ≠ da → d ≠ db → t.entriesOf d = s.entriesOf d))

/-! ## Party orders, status, CLEAR_DYNAMIC, RESTART -/

/-- PARTY_JOIN, PARTY_LEAVE and PARTY_FLAGS (R129 to R131): what each leaves of the party's member list. -/
def Obligations.PartyOrdersAnswer : Prop :=
  ∀ (tag party station listen named values : Byte) (s : State),
    let refused := fun (c : Instr) (code : Byte) (res : Result) =>
      ∃ t, exec c s = .next t ∧ Answered s t tag (stated ([code, res.code, 128] ++ List.replicate 25 0)) []
    let join := Instr.partyJoin tag party station listen
    let leave := Instr.partyLeave tag party station
    let flags := Instr.partyFlags tag party station named values
    (16 ≤ party.toNat ∨ 192 ≤ station.toNat →
      (s.Ready tag (.partyJoin party station listen) → refused join 10 .badIndex) ∧
      (s.Ready tag (.partyLeave party station) → refused leave 11 .badIndex) ∧
      (s.Ready tag (.partyFlags party station named values) → refused flags 12 .badIndex)) ∧
    ∀ (p : PartyId) (x : StationId), party.toNat = p.val → station.toNat = x.val →
      let r := s.party p
      let answers := fun (c : Instr) (code : Byte) (members : List Member) =>
        ∃ t, exec c s = .next t ∧
          Answered s t tag (stated ([code, 0, 128] ++ List.replicate 25 0)) (.panels :: partyFields) ∧
          t.party p = { r with members := members } ∧ (∀ q, q ≠ p → t.party q = s.party q) ∧ PanelsButLamps s t
      (s.Ready tag (.partyJoin party station listen) →
        (1 < listen.toNat → refused join 10 .badValue) ∧
        (listen.toNat ≤ 1 →
          ((s.station x).kind = .unused → refused join 10 .wrongKind) ∧
          ((s.station x).kind ≠ .unused →
            (r.find x ≠ none → refused join 10 .duplicate) ∧
            (r.find x = none → 24 ≤ r.members.length ∨ 4 ≤ s.membershipCount x → refused join 10 .full) ∧
            (r.find x = none → r.members.length < 24 → s.membershipCount x < 4 →
              answers join 10 (r.members ++ [{ station := x, talk := false, listen := listen == 1 }]))))) ∧
      (s.Ready tag (.partyLeave party station) →
        (r.find x ≠ none → answers leave 11 (r.members.filter fun m => m.station != x)) ∧
        (r.find x = none → refused leave 11 .notFound)) ∧
      (s.Ready tag (.partyFlags party station named values) →
        (named = 0 ∨ 3 < named.toNat ∨ 3 < values.toNat → refused flags 12 .badValue) ∧
        (named ≠ 0 → named.toNat ≤ 3 → values.toNat ≤ 3 →
          (r.find x = none → refused flags 12 .notFound) ∧
          (r.find x ≠ none → answers flags 12
            (r.members.map fun m =>
              if m.station = x then
                { m with talk := if named.getLsbD 0 then values.getLsbD 0 else m.talk
                         listen := if named.getLsbD 1 then values.getLsbD 1 else m.listen }
              else m))))

/-- STATUS_READ and STATUS_CLEAR (R198): the named kinds' flags and counts and the alarm line are reported, and nothing
changes; the named kinds are cleared, with enable and route kept; bit 15 names no kind and is BAD_VALUE. A refused
STATUS_READ reports the alarm line in byte 6 as every STATUS_READ does (R197); its flags and counts are free
(notes/assumptions/6.md). -/
def Obligations.StatusOrdersAnswer : Prop :=
  ∀ (tag : Byte) (kinds : BitVec 16) (s : State),
    let names := fun (k : EventKind) => kinds.getLsbD k.number.val
    (s.Ready tag (.statusRead kinds) →
      (kinds.getLsbD 15 = false → ∃ t, exec (.statusRead tag kinds) s = .next t ∧
        Answered s t tag
          (stated [14, 0, 128] ++ unstated 1 ++
            stated (bytesOfNat 2
              (allKinds.map fun k => if names k && (s.event k).isSet then 2 ^ k.number.val else 0).sum) ++
            stated [if s.alarmActive then 1 else 0] ++ unstated 1 ++
            stated (allKinds.map fun k => if names k then BitVec.ofNat 8 (s.event k).count else 0) ++ unstated 5) []) ∧
      (kinds.getLsbD 15 = true → ∃ t, exec (.statusRead tag kinds) s = .next t ∧
        Answered s t tag
          (stated [14, 3, 128] ++ unstated 3 ++ stated [if s.alarmActive then 1 else 0] ++ unstated 21) [])) ∧
    (s.Ready tag (.statusClear kinds) →
      (kinds.getLsbD 15 = false → ∃ t, exec (.statusClear tag kinds) s = .next t ∧
        Answered s t tag (stated ([15, 0, 128] ++ List.replicate 25 0)) [.events] ∧
        ∀ k, t.event k =
          if names k then { s.event k with isSet := false, count := 0, inst := none } else s.event k) ∧
      (kinds.getLsbD 15 = true → ∃ t, exec (.statusClear tag kinds) s = .next t ∧
        Answered s t tag (stated ([15, 3, 128] ++ List.replicate 25 0)) []))

/-- CLEAR_DYNAMIC (R36, R38, R78, R123, R140, R154, R174): every key returns to IDLE with its timers stopped, every grant and
party holder goes, every arbiter, reply list and probe queue is emptied, every talk flag is cleared, every enabled circuit
measures afresh, in STARTING or, with its port not UP or HOLDOVER, in LINK_LOST; a block in flight is answered ABORTED
first, with its order code, the final mark, the count handled so far and, for a FILL that has written a record, the index of
the last one written, which stands one step behind the next (R36, R43). The bytes of that reply which no rule states are
free (notes/assumptions/6.md). -/
def Obligations.ClearDynamicClears : Prop :=
  ∀ (tag : Byte) (s : State), s.Ready tag .clearDynamic →
    ∃ t, exec (.clearDynamic tag) s = .next t ∧ OrderTaken s t ∧ t.block = none ∧
      (s.block = none → Replied s t tag (stated ([16, 0, 128] ++ List.replicate 25 0))) ∧
      (∀ b, s.block = some b →
        let aborted :=
          match b.work with
          | .blockRead tn _ _ =>
            stated [3, 10, 128, tn.code] ++ unstated 2 ++ stated (bytesOfNat 2 b.handled) ++ unstated 20
          | .fill tn _ down _ =>
            let last := if down = true then b.next + 1 else b.next - 1
            stated [4, 10, 128, tn.code] ++ (if b.handled = 0 then unstated 2 else stated (bytesOfNat 2 last)) ++
              stated (bytesOfNat 2 b.handled) ++ unstated 20
          | .meterRead => stated [13, 10, BitVec.ofNat 8 (128 + b.handled)] ++ unstated 1 ++ stated (List.replicate 24 0)
          | .routeList _ _ => stated ([8, 10, 128, BitVec.ofNat 8 (min 255 b.handled)] ++ List.replicate 24 0)
        ∃ u, Replied s u b.tag aborted ∧ Replied u t tag (stated ([16, 0, 128] ++ List.replicate 25 0))) ∧
      (∀ k, t.key k =
        { s.key k with state := .idle, standing := .outside, resolved := none, winkTimer := none, latchTimer := none }) ∧
      (∀ d, t.entriesOf d = (s.entriesOf d).map fun e =>
        { e with grants := [], parties := []
                 state := if e.static = true ∨ e.taps ≠ [] then e.state else .releasing }) ∧
      (∀ d, t.arbiter d = { current := none, waiting := [] }) ∧ (∀ x, t.probeQueue x = []) ∧
      (∀ p, t.panel p = { s.panel p with replyList := [], lampPending := (t.panel p).lampPending }) ∧
      (∀ p, t.party p =
        { s.party p with members := (s.party p).members.map fun m => { m with talk := false } }) ∧
      (∀ c, (s.circuit c).state = .disabled → t.circuit c = s.circuit c) ∧
      (∀ c, (s.circuit c).state ≠ .disabled →
        let up : Prop := ∃ d, (s.station (s.circuit c).reporter).dest = some d ∧
          ((s.port (portOf d)).state = .up ∨ (s.port (portOf d)).state = .holdover)
        let cleared :=
          { s.circuit c with outstanding := [], estimate := none, last := none, previous := none, lostInARow := 0 }
        (up →
          t.circuit c =
            { cleared with
                state := .starting
                intervalTimer := some (s.timing.sample + BitVec.ofNat 32 (48 * (s.circuit c).probeInterval)) }) ∧
        (¬up → t.circuit c = { cleared with state := .linkLost, intervalTimer := none })) ∧
      Touches (commandFields (.clearDynamic tag)) s t

/-- RESTART (R39) marks the part and builds no reply, and no unit is taken after it; an unlisted order code (R28) is
BAD_VALUE. -/
def Obligations.RestartAndUnlisted : Prop :=
  ∀ (tag code : Byte) (s : State),
    (s.Ready tag .restart →
      ∃ t, exec (.restart tag) s = .next t ∧ t.restart = .marked ∧ OrderTaken s t ∧
        Touches [.orders, .lastUnit, .unitTaken, .restart] s t ∧
        ∀ u : State, u.restart = .marked → u.stepReady = false ∧ ∀ tag' o, u.orderReady tag' o = false) ∧
    (s.Ready tag (.unlisted code) → code.toNat = 0 ∨ 17 < code.toNat →
      ∃ t, exec (.unlistedOrderCode tag code) s = .next t ∧
        Answered s t tag (stated ([code, 3, 128] ++ List.replicate 25 0)) [])

/-! ## Record writes, table by table -/

/-- PORT_ENABLE, PORT_DISABLE and OUTGOING_WIDTH_WRITE (R13). The management port cannot be disabled. A port that is
disabled in DOWN or LOCKING is emptied; one in UP or HOLDOVER is lost with PORT_DOWN (R11): its ONLINE panels go OFFLINE
with their policies applied (R104, R105), its probing circuits enter LINK_LOST (R172), and if it is the selected reference
INTERNAL is active with REFERENCE_LOST raised (R18). That INTERNAL is active at once is the model's reading
(notes/assumptions/13.md). -/
def Obligations.PortWritesTakeEffect : Prop :=
  ∀ (tag : Byte) (index : BitVec 16) (mask : BitVec 32) (values : List Byte) (x : PortId) (s : State),
    WriteReady s .port tag index mask values → index.toNat = x.val →
    let l := writtenValues .port index mask values
    let w := widthField l 2 (s.port x).width
    (isPortEnable index.toNat l = true → w ≠ none →
      ∃ t, exec (.portEnable tag index mask values) s = .next t ∧ Wrote s t .port tag index .ok [.ports] ∧
        (∀ y, y ≠ x → t.port y = s.port y) ∧ some (t.port x).width = w ∧ (t.port x).enabled = true ∧
        (t.port x).state = if (s.port x).state = .disabled then .down else (s.port x).state) ∧
    (isPortDisable index.toNat l = true → w ≠ none →
      (s.straps.mgmt = x →
        ∃ t, exec (.portDisable tag index mask values) s = .next t ∧ Wrote s t .port tag index .inUse []) ∧
      (s.straps.mgmt ≠ x →
        ∃ t, exec (.portDisable tag index mask values) s = .next t ∧
          Wrote s t .port tag index .ok (.panels :: lossFields) ∧ some (t.port x).width = w ∧
          (t.port x).enabled = false ∧ (t.port x).state = .disabled ∧ (t.port x).lastSeq = none ∧
          (∀ i, (tget (t.port x).buffer i).stamp = none) ∧ (∀ y, y ≠ x → t.port y = s.port y) ∧
          ((s.port x).state.carries = true →
            (t.event .portDown).isSet = true ∧ PanelsFollow s t (fun y => y = x) ∧
            (∀ c,
              let r := s.circuit c
              let lost : Prop := r.Probes ∧ s.CircuitOn r (fun y => y = x)
              (lost → t.circuit c = { r with state := .linkLost, intervalTimer := none, outstanding := [] } ∧
                ∀ y, c ∉ t.probeQueue y) ∧
              (¬lost → t.circuit c = r ∧ ∀ y, c ∈ t.probeQueue y ↔ c ∈ s.probeQueue y)) ∧
            t.timing.selected = s.timing.selected ∧
            (s.timing.selected = .port x →
              t.timing.active = .internal ∧ t.timing.pending = none ∧ (t.event .referenceLost).isSet = true ∧
                (t.event .referenceLost).inst = none) ∧
            (s.timing.selected ≠ .port x →
              t.timing.active = s.timing.active ∧ t.timing.pending = s.timing.pending ∧
                t.event .referenceLost = s.event .referenceLost)) ∧
          ((s.port x).state.carries = false → Touches [.orders, .lastUnit, .unitTaken, .replies, .draws, .ports] s t))) ∧
    (isOutgoingWidthWrite index.toNat l = true → names l 1 = false → w ≠ none →
      ∃ t, exec (.outgoingWidthWrite tag index mask values) s = .next t ∧ Wrote s t .port tag index .ok [.ports] ∧
        (∀ y, y ≠ x → t.port y = s.port y) ∧ ∀ v, w = some v → t.port x = { s.port x with width := v }) ∧
    (isOutgoingWidthWrite index.toNat l = true → w = none →
      ∃ t, exec (.outgoingWidthWrite tag index mask values) s = .next t ∧ Wrote s t .port tag index .badValue [])

/-- REFERENCE_SELECT (R19): a present reference becomes selected and is taken up at the next boundary; an absent one is
selected too, INTERNAL is taken up, and REFERENCE_LOST is raised; a value that names no reference is BAD_VALUE. -/
def Obligations.ReferenceSelectTakesEffect : Prop :=
  ∀ (tag : Byte) (index : BitVec 16) (mask : BitVec 32) (values : List Byte) (v : Nat) (s : State),
    WriteReady s .port tag index mask values → index.toNat = 4 →
    (writtenValues .port index mask values).lookup 0 = some v →
    (∀ r, [RefSource.internal, .refclk, .port 0, .port 1, .port 2, .port 3][v]? = some r →
      ∃ t, exec (.referenceSelect tag index mask values) s = .next t ∧
        Wrote s t .port tag index .ok [.reference, .events, .notices] ∧ t.timing.selected = r ∧
        t.timing.active = s.timing.active ∧
        (s.refPresent r = true →
          t.timing.pending = (if s.timing.active = r then none else some r) ∧ t.events = s.events) ∧
        (s.refPresent r = false →
          t.timing.pending = (if s.timing.active = .internal then none else some .internal) ∧
            Raised s t .referenceLost none)) ∧
    (6 ≤ v →
      ∃ t, exec (.referenceSelect tag index mask values) s = .next t ∧ Wrote s t .port tag index .badValue [])

/-- SOURCE_WRITE (R46): enabled, trim (kept at 159) and gap counter take their values; no other source changes. That an
enabled byte other than 0 and 1 is BAD_VALUE is the model's reading (notes/assumptions/18.md). -/
def Obligations.SourceWritesTakeEffect : Prop :=
  ∀ (tag : Byte) (index : BitVec 16) (mask : BitVec 32) (values : List Byte) (n : SourceId) (s : State),
    WriteReady s .source tag index mask values → index.toNat = n.val →
    let l := writtenValues .source index mask values
    isSourceWrite index.toNat l = true →
    (∀ e, boolField l 0 (s.source n).enabled = some e →
      ∃ t, exec (.sourceWrite tag index mask values) s = .next t ∧ Wrote s t .source tag index .ok [.sources] ∧
        t.source n =
          { s.source n with
              enabled := e
              trim := levelField l 1 (s.source n).trim
              gapCounter := (l.lookup 5).getD (s.source n).gapCounter } ∧
        ∀ m, m ≠ n → t.source m = s.source m) ∧
    (boolField l 0 (s.source n).enabled = none →
      ∃ t, exec (.sourceWrite tag index mask values) s = .next t ∧ Wrote s t .source tag index .badValue [])

/-- DESTINATION_ENABLE_WRITE, OUTPUT_LEVEL_WRITE, DIM_CODE_WRITE, CLIP_COUNTER_WRITE and DESTINATION_KIND_WRITE (R52 to
R56): the named fields take their values; a new kind leaves an empty arbiter. A new kind is checked as R56 gives it: IN_USE
by an entry, a current or waiting key, an enabled tap of the monitor or an attached circuit; then WRONG_KIND by a station
that keeps the kind; then FULL by 64 IFB destinations. A value outside its range is BAD_VALUE (a yes/no byte by
notes/assumptions/18.md). A refused write changes nothing. -/
def Obligations.DestinationWritesTakeEffect : Prop :=
  ∀ (tag : Byte) (index : BitVec 16) (mask : BitVec 32) (values : List Byte) (d : DestId) (s : State),
    WriteReady s .destination tag index mask values → index.toNat = d.val →
    let l := writtenValues .destination index mask values
    let rows : List (Instr × Bool) :=
      [(.destinationEnableWrite tag index mask values, isDestinationEnableWrite index.toNat l),
        (.outputLevelWrite tag index mask values, isOutputLevelWrite index.toNat l),
        (.dimCodeWrite tag index mask values, isDimCodeWrite index.toNat l),
        (.clipCounterWrite tag index mask values, isClipCounterWrite index.toNat l),
        (.destinationKindWrite tag index mask values, isDestinationKindWrite index.toNat l)]
    ∀ c, (c, true) ∈ rows →
    let refused := fun (r : Result) => ∃ t, exec c s = .next t ∧ Wrote s t .destination tag index r []
    (boolField l 0 (s.dest d).enabled = none ∨ enumField l 1 destKinds (s.dest d).kind = none → refused .badValue) ∧
    ∀ (e : Bool) (k : DestKind),
      boolField l 0 (s.dest d).enabled = some e → enumField l 1 destKinds (s.dest d).kind = some k →
      let stored :=
        { s.dest d with
            enabled := e
            kind := k
            outputLevel := levelField l 2 (s.dest d).outputLevel
            dimCode := levelField l 4 (s.dest d).dimCode
            clipCounter := (l.lookup 6).getD (s.dest d).clipCounter }
      let used : Prop :=
        s.entriesOf d ≠ [] ∨ (s.arbiter d).current ≠ none ∨ (s.arbiter d).waiting ≠ [] ∨
          (∃ x, (s.tap x).enabled = true ∧ (s.tap x).monitor = d) ∨ (s.dest d).circuit ≠ none
      let wrong : Prop :=
        (k = .monitor ∧ ∃ x, (s.station x).dest = some d) ∨
          ((s.dest d).kind = .ifb ∧ ∃ x, (s.station x).kind = .reporter ∧ (s.station x).dest = some d)
      let full : Prop := k = .ifb ∧ 64 ≤ ((allOf 256).filter fun m => (s.dest m).kind == .ifb).length
      (k = (s.dest d).kind ∨ (¬used ∧ ¬wrong ∧ ¬full) →
        ∃ t, exec c s = .next t ∧ Wrote s t .destination tag index .ok [.dests, .arbiters] ∧ t.dest d = stored ∧
          (∀ m, m ≠ d → t.dest m = s.dest m ∧ t.arbiter m = s.arbiter m) ∧
          t.arbiter d = if k = (s.dest d).kind then s.arbiter d else { current := none, waiting := [] }) ∧
      (k ≠ (s.dest d).kind →
        (used → refused .inUse) ∧ (¬used → wrong → refused .wrongKind) ∧ (¬used → ¬wrong → full → refused .full))

/-- STATION_WRITE (R58 to R60): a station not in use takes its new record; one in use is IN_USE. -/
def Obligations.StationWritesTakeEffect : Prop :=
  ∀ (tag : Byte) (index : BitVec 16) (mask : BitVec 32) (values : List Byte) (x : StationId) (r : Station) (s : State),
    WriteReady s .station tag index mask values → index.toNat = x.val →
    let l := writtenValues .station index mask values
    isStationWrite index.toNat l = true → enumField l 0 stationKinds (s.station x).kind = some r.kind →
    optionalField l 1 65535 (s.station x).source = some r.source →
    optionalField l 2 65535 (s.station x).dest = some r.dest →
    let refused := fun (res : Result) =>
      ∃ t, exec (.stationWrite tag index mask values) s = .next t ∧ Wrote s t .station tag index res []
    (r.kind = .unused ∧ (r.source ≠ none ∨ r.dest ≠ none) ∨ r.kind = .reporter ∧ r.dest = none → refused .badValue) ∧
    (¬(r.kind = .unused ∧ (r.source ≠ none ∨ r.dest ≠ none)) → ¬(r.kind = .reporter ∧ r.dest = none) →
      (s.stationInUse x = true → refused .inUse) ∧
      (s.stationInUse x = false →
        ((∃ d, r.dest = some d ∧ ((s.dest d).kind = .monitor ∨ r.kind = .reporter ∧ (s.dest d).kind ≠ .ifb)) →
          refused .wrongKind) ∧
        ((∀ d, r.dest = some d → (s.dest d).kind ≠ .monitor ∧ (r.kind = .reporter → (s.dest d).kind = .ifb)) →
          ∃ t, exec (.stationWrite tag index mask values) s = .next t ∧
            Wrote s t .station tag index .ok [.stations, .panels] ∧ t.station x = r ∧
            (∀ y, y ≠ x → t.station y = s.station y) ∧ PanelsButLamps s t)))

/-- PANEL_CONFIGURE, PANEL_UNCONFIGURE and PANEL_SETTINGS_WRITE (R100, R101). A panel configured enters OFFLINE; one
unconfigured has its keys released to IDLE with their actions given up as under DROP_ALL, their marks and timers, its reply
list and its lamps emptied, and enters UNCONFIGURED; the other fields are stored. The checks of R100 come in its order:
BAD_VALUE by an encoder's limits, IN_USE by an ONLINE panel or by a key in an on state of an OFFLINE one, DUPLICATE by
another panel of the same port and node; a refused write changes nothing. A value outside its field's range is BAD_VALUE
before them (of the yes/no field configured by the model's reading, notes/assumptions/18.md). The keys' release rests on the invariants of the
store and of the arbiters (`StoreKept`, `QueuesKept`), and on a configured panel's not being UNCONFIGURED (`SettledKept`). -/
def Obligations.PanelWritesTakeEffect : Prop :=
  ∀ (tag : Byte) (index : BitVec 16) (mask : BitVec 32) (values : List Byte) (p : PanelId) (s : State),
    WriteReady s .panel tag index mask values → index.toNat = p.val →
    let l := writtenValues .panel index mask values
    let rows : List (Instr × Bool) :=
      [(.panelConfigure tag index mask values, isPanelConfigure index.toNat l),
        (.panelUnconfigure tag index mask values, isPanelUnconfigure index.toNat l),
        (.panelSettingsWrite tag index mask values, isPanelSettingsWrite index.toNat l)]
    ∀ c, (c, true) ∈ rows →
    let refused := fun (r : Result) => ∃ t, exec c s = .next t ∧ Wrote s t .panel tag index r []
    let old := s.panel p
    let policies : List LossPolicy := [.keepLatched, .dropAll, .keepAll]
    let modes : List EncoderMode := [.x1, .x2, .x4]
    let targetCode := fun (n : Option (Fin 32)) => match n with
      | some n => n.val + 1
      | none => 0
    (old.updated l = none ↔
      Exceeds l 0 1 ∨ Exceeds l 1 3 ∨ Exceeds l 2 63 ∨ Exceeds l 3 191 ∨ Exceeds l 4 2 ∨
        ∃ i < 4, Exceeds l (8 + i) 2 ∨ Exceeds l (12 + i) 32) ∧
    (old.updated l = none → refused .badValue) ∧
    ∀ r, old.updated l = some r →
      (r = { old with
               configured := r.configured, port := r.port, node := r.node, ownStation := r.ownStation
               lossPolicy := r.lossPolicy, latchWindow := r.latchWindow, replyExpiry := r.replyExpiry
               encoders := r.encoders } ∧
        (r.configured = true ↔ numberOf l 0 (if old.configured then 1 else 0) = 1) ∧
        r.port.val = numberOf l 1 old.port.val ∧ r.node.toNat = numberOf l 2 old.node.toNat ∧
        r.ownStation.val = numberOf l 3 old.ownStation.val ∧
        policies.idxOf r.lossPolicy = numberOf l 4 (policies.idxOf old.lossPolicy) ∧
        r.latchWindow = timeOf l 5 old.latchWindow 10 100 1000 ∧ r.replyExpiry = timeOf l 6 old.replyExpiry 1 2 60 ∧
        ∀ i : Fin 4,
          let e := tget old.encoders i
          let q := tget r.encoders i
          modes.idxOf q.mode = numberOf l (8 + i) (modes.idxOf e.mode) ∧
            targetCode q.target = numberOf l (12 + i) (targetCode e.target) ∧
            q.minimum.val = levelOf l (16 + i) e.minimum ∧ q.maximum.val = levelOf l (20 + i) e.maximum ∧
            q.residue = if names l (8 + i) = true ∨ names l (12 + i) = true then 0 else e.residue) ∧
      let place : Prop := names l 1 = true ∨ names l 2 = true ∨ names l 3 = true
      let crossed : Prop := ∃ i, (tget r.encoders i).maximum < (tget r.encoders i).minimum
      let used : Prop :=
        (old.online = .online ∧ (names l 0 = true ∨ place)) ∨
          (old.online = .offline ∧ place ∧ ∃ k, keyPanel k = p ∧
            ((s.key k).state = .pressed ∨ (s.key k).state = .momentaryOn ∨ (s.key k).state = .latched))
      let double : Prop :=
        r.configured = true ∧ ∃ q, q ≠ p ∧ (s.panel q).configured = true ∧ (s.panel q).port = r.port ∧
          (s.panel q).node = r.node
      (crossed → refused .badValue) ∧
      (¬crossed → used → refused .inUse) ∧
      (¬crossed → ¬used → double → refused .duplicate) ∧
      (¬crossed → ¬used → ¬double →
        (old.configured = false → r.configured = true →
          ∃ t, exec c s = .next t ∧ Wrote s t .panel tag index .ok [.panels] ∧
            t.panel p = { r with configured := true, online := .offline, lampPending := (t.panel p).lampPending } ∧
            ∀ q, q ≠ p → t.panel q = s.panel q) ∧
        (r.configured = old.configured →
          ∃ t, exec c s = .next t ∧ Wrote s t .panel tag index .ok [.panels] ∧
            t.panel p = { r with lampPending := (t.panel p).lampPending } ∧ ∀ q, q ≠ p → t.panel q = s.panel q) ∧
        (old.configured = true → r.configured = false →
          ∃ t, exec c s = .next t ∧ Wrote s t .panel tag index .ok keyFields ∧
            t.panel p =
              { r with configured := false, online := .unconfigured, replyList := [], lampPending := 0,
                       cadencePending := false, silenceTimer := none } ∧
            (∀ q, q ≠ p → t.panel q = { s.panel q with lampPending := (t.panel q).lampPending }) ∧
            (∀ k, keyPanel k = p →
              (t.key k).down = false ∧ (t.key k).winkTimer = none ∧ (t.key k).latchTimer = none ∧
                (t.key k).lastLamp = .off) ∧
            (StoreInv s → ArbiterInv s → old.online ≠ .unconfigured → ∀ k, keyPanel k = p →
              (t.key k).state = .idle ∧ (t.key k).standing = .outside ∧
                (∀ d, (t.arbiter d).current ≠ some k ∧ ∀ w ∈ (t.arbiter d).waiting, w.key ≠ k) ∧
                ∀ a b, s.grantPair k = some (a, b) → ∀ e ∈ t.entriesOf b, e.source = a → k ∉ e.grants) ∧
            let u := applyPolicy .dropAll p (takeHead s)
            (old.online ≠ .unconfigured →
              t.entries = u.entries ∧ t.parties = u.parties ∧ t.arbiters = u.arbiters ∧ t.events = u.events)))

/-- KEY_WRITE (R108, R109): an IDLE key takes its new function, target, mode, priority and talk level; a target outside its
function's range is BAD_VALUE, and a key that is not IDLE is IN_USE. -/
def Obligations.KeyWritesTakeEffect : Prop :=
  ∀ (tag : Byte) (index : BitVec 16) (mask : BitVec 32) (values : List Byte) (k : KeyId) (f : KeyFunction)
    (target : Option (Fin 256)) (m : KeyMode) (q : Priority) (s : State),
    WriteReady s .key tag index mask values → index.toNat = k.val →
    let l := writtenValues .key index mask values
    isKeyWrite index.toNat l = true → enumField l 0 keyFunctions (s.key k).function = some f →
    optionalField l 1 65535 (s.key k).target = some target → enumField l 2 keyModes (s.key k).mode = some m →
    enumField l 3 priorities (s.key k).priority = some q →
    let inRange :=
      match f with
      | .unassigned | .reply => True
      | .talkStation | .listenStation | .callStation => ∃ n, target = some n ∧ n.val < 192
      | .talkParty => ∃ n, target = some n ∧ n.val < 16
      | .ifb => target ≠ none
    (¬inRange → ∃ t, exec (.keyWrite tag index mask values) s = .next t ∧ Wrote s t .key tag index .badValue []) ∧
    (inRange → (s.key k).state ≠ .idle →
      ∃ t, exec (.keyWrite tag index mask values) s = .next t ∧ Wrote s t .key tag index .inUse []) ∧
    (inRange → (s.key k).state = .idle →
      ∃ t, exec (.keyWrite tag index mask values) s = .next t ∧ Wrote s t .key tag index .ok [.keys, .panels] ∧
        t.key k =
          { s.key k with function := f, target := target, mode := m, priority := q,
                         talkLevel := levelField l 4 (s.key k).talkLevel } ∧
        (∀ j, j ≠ k → t.key j = s.key j) ∧ PanelsButLamps s t)

/-- PARTY_ENABLE, PARTY_DISABLE and PARTY_LEVEL_WRITE (R126 to R128, R132): an enable requests every wanted pair; a disable
withdraws the party from every entry; a level alone changes no entry. -/
def Obligations.PartyWritesTakeEffect : Prop :=
  ∀ (tag : Byte) (index : BitVec 16) (mask : BitVec 32) (values : List Byte) (p : PartyId) (e : Bool) (s : State),
    WriteReady s .party tag index mask values → index.toNat = p.val → StoreInv s → PartyInv s →
    let l := writtenValues .party index mask values
    boolField l 0 (s.party p).enabled = some e →
    let done := fun (c : Instr) (effect : State → Prop) =>
      ∃ t, exec c s = .next t ∧ Wrote s t .party tag index .ok (.panels :: partyFields) ∧
        t.party p = { s.party p with enabled := e, level := levelField l 1 (s.party p).level } ∧
        (∀ q, q ≠ p → t.party q = s.party q) ∧ PanelsButLamps s t ∧ effect t
    (isPartyEnable index.toNat l = true → (s.party p).enabled = false →
      done (.partyEnable tag index mask values) fun t =>
        ∀ src d, Wanted t p src d →
          (∃ x ∈ t.entriesOf d, x.source = src ∧ p ∈ x.parties) ∨ (t.event .grantRefused).isSet = true) ∧
    (isPartyDisable index.toNat l = true →
      done (.partyDisable tag index mask values) fun t => ∀ d, ∀ x ∈ t.entriesOf d, p ∉ x.parties) ∧
    (isPartyLevelWrite index.toNat l = true → e = (s.party p).enabled →
      done (.partyLevelWrite tag index mask values) fun t => t.entries = s.entries)

/-- CIRCUIT_ENABLE, CIRCUIT_DISABLE and CIRCUIT_SETTINGS_WRITE (R158 to R160): an enable attaches the circuit to its
reporter's destination and starts it, in STARTING or, with its port not UP or HOLDOVER, in LINK_LOST; a disable takes both
back. The checks come in the order of R158 and R159: BAD_VALUE by an upper limit not above the lower one, IN_USE by a mask
naming the reporter or the gateway of a circuit not DISABLED, and of an enable WRONG_KIND by a station that is no reporter,
then IN_USE by a destination with a circuit; a refused write changes nothing. A value outside its field's range is BAD_VALUE
before them (of the yes/no field enabled by the model's reading, notes/assumptions/18.md). A write that names the stray echo counter and
changes enabled leaves the counter 0, which is the model's choice (notes/assumptions/32.md). -/
def Obligations.CircuitWritesTakeEffect : Prop :=
  ∀ (tag : Byte) (index : BitVec 16) (mask : BitVec 32) (values : List Byte) (c : CircuitId) (s : State),
    WriteReady s .circuit tag index mask values → index.toNat = c.val →
    let l := writtenValues .circuit index mask values
    let rows : List (Instr × Bool) :=
      [(.circuitEnable tag index mask values, isCircuitEnable index.toNat l),
        (.circuitDisable tag index mask values, isCircuitDisable index.toNat l),
        (.circuitSettingsWrite tag index mask values, isCircuitSettingsWrite index.toNat l)]
    ∀ i, (i, true) ∈ rows →
    let refused := fun (r : Result) => ∃ t, exec i s = .next t ∧ Wrote s t .circuit tag index r []
    let old := s.circuit c
    (old.updated l = none ↔
      Exceeds l 0 1 ∨ Exceeds l 2 191 ∨ Exceeds l 3 63 ∨ Exceeds l 6 65535 ∨ Exceeds l 7 65535 ∨ Exceeds l 9 8388608 ∨
        Exceeds l 15 65535) ∧
    (old.updated l = none → refused .badValue) ∧
    ∀ r, old.updated l = some r →
      (r = { old with
               enabled := r.enabled, reporter := r.reporter, gateway := r.gateway, probeInterval := r.probeInterval
               probeTimeout := r.probeTimeout, upperLimit := r.upperLimit, lowerLimit := r.lowerLimit
               degradeCode := r.degradeCode, silenceThreshold := r.silenceThreshold, silenceTime := r.silenceTime
               strayEchoes := r.strayEchoes } ∧
        (r.enabled = true ↔ numberOf l 0 (if old.enabled then 1 else 0) = 1) ∧
        r.reporter.val = numberOf l 2 old.reporter.val ∧ r.gateway.toNat = numberOf l 3 old.gateway.toNat ∧
        r.probeInterval = timeOf l 4 old.probeInterval 1 100 5000 ∧
        r.probeTimeout = timeOf l 5 old.probeTimeout 1 200 1365 ∧ r.upperLimit = numberOf l 6 old.upperLimit ∧
        r.lowerLimit = numberOf l 7 old.lowerLimit ∧ r.degradeCode.val = levelOf l 8 old.degradeCode ∧
        r.silenceThreshold = numberOf l 9 old.silenceThreshold ∧
        r.silenceTime = timeOf l 10 old.silenceTime 1 1000 60000 ∧ r.strayEchoes = numberOf l 15 old.strayEchoes) ∧
      let x := s.station r.reporter
      let others := fun (t : State) => ∀ q, q ≠ c → t.circuit q = s.circuit q
      let afresh :=
        { r with tagGenerator := BitVec.ofNat 15 (c.val + 1), estimate := none, last := none, previous := none,
                 outstanding := [], lostInARow := 0, strayEchoes := 0, silent := false, silentMs := 0 }
      let bound : Prop := (names l 2 = true ∨ names l 3 = true) ∧ old.state ≠ .disabled
      (r.upperLimit ≤ r.lowerLimit → refused .badValue) ∧
      (r.lowerLimit < r.upperLimit → bound → refused .inUse) ∧
      (r.lowerLimit < r.upperLimit → ¬bound →
        (old.enabled = false → r.enabled = true →
          (x.kind ≠ .reporter → refused .wrongKind) ∧
          (x.kind = .reporter → ∀ d, x.dest = some d →
            ((s.dest d).circuit ≠ none → refused .inUse) ∧
            ((s.dest d).circuit = none →
              ∃ t, exec i s = .next t ∧ Wrote s t .circuit tag index .ok [.circuits, .dests] ∧ others t ∧
                t.dest d = { s.dest d with circuit := some c } ∧ (∀ m, m ≠ d → t.dest m = s.dest m) ∧
                ((s.port (portOf d)).state.carries = true →
                  t.circuit c =
                    { afresh with
                        state := .starting
                        intervalTimer := some (s.timing.sample + BitVec.ofNat 32 (48 * r.probeInterval)) }) ∧
                ((s.port (portOf d)).state.carries = false →
                  t.circuit c = { afresh with state := .linkLost, intervalTimer := none })))) ∧
        (old.enabled = true → r.enabled = false →
          ∃ t, exec i s = .next t ∧ Wrote s t .circuit tag index .ok [.circuits, .dests, .probeQueues] ∧ others t ∧
            t.circuit c = { afresh with state := .disabled, intervalTimer := none } ∧
            (∀ d, t.dest d = if x.dest = some d then { s.dest d with circuit := none } else s.dest d) ∧
            ∀ y, t.probeQueue y = (s.probeQueue y).filter fun q => q != c) ∧
        (r.enabled = old.enabled →
          ∃ t, exec i s = .next t ∧ Wrote s t .circuit tag index .ok [.circuits] ∧ others t ∧ t.circuit c = r))

/-- TAP_ENABLE, TAP_DISABLE, TAP_LEVEL_WRITE and TAP_SETTINGS_WRITE (R177 to R183): the settings of an enabled tap cannot be
written; an enabled SOURCE-side tap holds every matched source's entry on its monitor and isolates the sources it does
not forward; a disable gives both back; a level acts on the entries at once. An enable is checked as R178 to R180 give it:
BAD_VALUE by more than 5 or 2 bits of the mask or by a monitor among its own feeds, then WRONG_KIND by a monitor not of
MONITOR kind, then FULL by want of room for the missing entries or for the feeds; a refused write changes nothing. A value
outside its field's range is BAD_VALUE before all of these (of the yes/no fields enabled and forward by the model's reading,
notes/assumptions/18.md). -/
def Obligations.TapWritesTakeEffect : Prop :=
  ∀ (tag : Byte) (index : BitVec 16) (mask : BitVec 32) (values : List Byte) (x : TapId) (s : State),
    WriteReady s .tap tag index mask values → index.toNat = x.val → StoreInv s →
    let l := writtenValues .tap index mask values
    let rows : List (Instr × Bool) :=
      [(.tapEnable tag index mask values, isTapEnable index.toNat l),
        (.tapDisable tag index mask values, isTapDisable index.toNat l),
        (.tapLevelWrite tag index mask values, isTapLevelWrite index.toNat l),
        (.tapSettingsWrite tag index mask values, isTapSettingsWrite index.toNat l)]
    ∀ c, (c, true) ∈ rows →
    let refused := fun (r : Result) => ∃ t, exec c s = .next t ∧ Wrote s t .tap tag index r []
    let old := s.tap x
    let settings : Prop := ∃ f ∈ [1, 2, 3, 4, 6], names l f = true
    let sides : List TapSide := [.source, .destination]
    (old.updated l = none ↔
      Exceeds l 0 1 ∨ Exceeds l 1 1 ∨ Exceeds l 2 255 ∨ Exceeds l 3 255 ∨ Exceeds l 4 255 ∨ Exceeds l 6 1) ∧
    (old.updated l = none → refused .badValue) ∧
    ∀ r, old.updated l = some r →
      ((r.enabled = true ↔ numberOf l 0 (if old.enabled then 1 else 0) = 1) ∧
        sides.idxOf r.side = numberOf l 1 (sides.idxOf old.side) ∧ r.base.toNat = numberOf l 2 old.base.toNat ∧
        r.mask.toNat = numberOf l 3 old.mask.toNat ∧ r.monitor.val = numberOf l 4 old.monitor.val ∧
        r.level.val = levelOf l 5 old.level ∧ (r.forward = true ↔ numberOf l 6 (if old.forward then 1 else 0) = 1) ∧
        r.applied = if namesAny l [1, 2, 3, 4] = true then 0 else old.applied) ∧
      let frame := fun (t : State) => t.tap x = r ∧ (∀ y, y ≠ x → t.tap y = s.tap y) ∧ PanelsButLamps s t
      let isolated := fun (t : State) (up : Bool) =>
        ∀ n, t.source n =
          if r.forward = false ∧ r.side = .source ∧ n ∈ r.matched then
            { s.source n with
                isolation := if up then (s.source n).isolation + 1 else (s.source n).isolation - 1 }
          else s.source n
      let bits := ((List.range 8).filter fun i => r.mask.getLsbD i).length
      let feeds := (((allOf 8).filter fun y =>
        (s.tap y).enabled && (s.tap y).side == .destination && (s.tap y).monitor == r.monitor).map fun y =>
          (s.tap y).matched.length).sum
      let count := (s.entriesOf r.monitor).length + feeds
      let missing := (r.matched.filter fun n => (s.findEntry n r.monitor).isNone).length
      let bad : Prop :=
        (r.side = .source ∧ 5 < bits) ∨ (r.side = .destination ∧ (2 < bits ∨ r.monitor ∈ r.matched))
      let full : Prop :=
        (r.side = .source ∧ missing ≠ 0 ∧
          (32 < count + missing ∨ 2048 < (s.entries.toList.map List.length).sum + missing)) ∨
        (r.side = .destination ∧ 32 < count + r.matched.length)
      (old.enabled = true → settings → refused .inUse) ∧
      (old.enabled = false → r.enabled = true →
        (bad → refused .badValue) ∧
        (¬bad → (s.dest r.monitor).kind ≠ .monitor → refused .wrongKind) ∧
        (¬bad → (s.dest r.monitor).kind = .monitor → full → refused .full) ∧
        (¬bad → (s.dest r.monitor).kind = .monitor → ¬full →
          ∃ t, exec c s = .next t ∧ Wrote s t .tap tag index .ok (.panels :: tapFields) ∧ frame t ∧ isolated t true ∧
            (r.side = .source → ∀ n ∈ r.matched, ∃ e ∈ t.entriesOf r.monitor, e.source = n ∧ x ∈ e.taps) ∧
            (r.side = .destination → t.entries = s.entries))) ∧
      (old.enabled = true → ¬settings → r.enabled = false →
        ∃ t, exec c s = .next t ∧ Wrote s t .tap tag index .ok (.panels :: tapFields) ∧ frame t ∧ isolated t false ∧
          (r.side = .source → ∀ n ∈ r.matched, ∀ e ∈ t.entriesOf r.monitor, e.source = n → x ∉ e.taps) ∧
          (r.side = .destination → t.entries = s.entries)) ∧
      (old.enabled = true → ¬settings → r.enabled = true →
        ∃ t, exec c s = .next t ∧ Wrote s t .tap tag index .ok [.taps, .entries] ∧ frame t ∧
          ∀ d, t.entriesOf d = (s.entriesOf d).map fun e =>
            if names l 5 = true ∧ r.side = .source ∧ d = r.monitor ∧ e.source ∈ r.matched then
              { e with level := if r.level = 0 then 1 else r.level }
            else e) ∧
      (old.enabled = false → r.enabled = false →
        ∃ t, exec c s = .next t ∧ Wrote s t .tap tag index .ok [.taps] ∧ frame t ∧
          (namesAny l [1, 2, 3, 4] = true → r.applied = 0))

/-- CADENCE_WRITE (R190): the period is settled, then the bright time within it, then the dim time within what is left; an
entry below 6 marks the cadence of every ONLINE panel. -/
def Obligations.CadenceWritesTakeEffect : Prop :=
  ∀ (tag : Byte) (index : BitVec 16) (mask : BitVec 32) (values : List Byte) (c : CadenceId) (s : State),
    WriteReady s .cadence tag index mask values → index.toNat = c.val →
    let l := writtenValues .cadence index mask values
    let old := s.cadence c
    let time := fun (f kept top : Nat) => match l.lookup f with
      | some v => min top (v / 10 * 10)
      | none => kept
    let period := match l.lookup 0 with
      | some v => max 100 (min 2550 (v / 10 * 10))
      | none => old.period
    let bright := time 1 old.bright period
    let dim := time 2 old.dim (period - bright)
    let bl := (l.lookup 3).getD old.brightLevel
    let dl := (l.lookup 4).getD old.dimLevel
    isCadenceWrite index.toNat l = true →
    (bright ≤ period → dim ≤ period - bright → (∀ v, l.lookup 3 = some v → v ≤ 15) →
      (∀ v, l.lookup 4 = some v → v ≤ 15) →
      ∃ t, exec (.cadenceWrite tag index mask values) s = .next t ∧
        Wrote s t .cadence tag index .ok [.cadences, .panels] ∧
        t.cadence c = { period := period, bright := bright, dim := dim, brightLevel := bl, dimLevel := dl } ∧
        (∀ q, q ≠ c → t.cadence q = s.cadence q) ∧
        ∀ p, t.panel p =
          if c.val < 6 ∧ (s.panel p).online = .online then { s.panel p with cadencePending := true } else s.panel p) ∧
    (period < bright ∨ period - bright < dim ∨ (∃ v, l.lookup 3 = some v ∧ 15 < v) ∨
        (∃ v, l.lookup 4 = some v ∧ 15 < v) →
      ∃ t, exec (.cadenceWrite tag index mask values) s = .next t ∧ Wrote s t .cadence tag index .badValue [])

/-- EVENT_WRITE (R194, R197, R198): enable and route take their values, nothing is raised, and the alarm line follows; a
route above 2 is BAD_VALUE. That an enable byte other than 0 and 1 is BAD_VALUE too is the model's reading
(notes/assumptions/18.md). -/
def Obligations.EventWritesTakeEffect : Prop :=
  ∀ (tag : Byte) (index : BitVec 16) (mask : BitVec 32) (values : List Byte) (k : EventKind) (s : State),
    WriteReady s .event tag index mask values → index.toNat = k.number.val →
    let l := writtenValues .event index mask values
    isEventWrite index.toNat l = true →
    (∀ e x, boolField l 3 (s.event k).enable = some e → enumField l 4 eventRoutes (s.event k).route = some x →
      ∃ t, exec (.eventWrite tag index mask values) s = .next t ∧ Wrote s t .event tag index .ok [.events] ∧
        t.event k = { s.event k with enable := e, route := x } ∧ (∀ j, j ≠ k → t.event j = s.event j) ∧
        ((s.event k).isSet = true → e = true → x ≠ .notice → t.alarmActive = true)) ∧
    (boolField l 3 (s.event k).enable = none ∨ enumField l 4 eventRoutes (s.event k).route = none →
      ∃ t, exec (.eventWrite tag index mask values) s = .next t ∧ Wrote s t .event tag index .badValue [])

/-! ## Timers -/

/-- LATCH_WINDOW_EXPIRY and WINK_TIMER_EXPIRY (R113, R114, R188): the key enters MOMENTARY_ON and keeps its action; the wink
ends and changes no state; the key's lamp is derived again.
REPLY_EXPIRY (R138): the station leaves the panel's reply list; the entries behind it close up. -/
def Obligations.KeyUnitTimersExpire : Prop :=
  (∀ (k : KeyId) (s : State), s.awake = true → Settled s →
      let lamps := fun (t : State) => ∀ p, t.panel p =
        if p = keyPanel k ∧ t.deriveLamp k ≠ (t.key k).lastLamp then
          { s.panel p with lampPending := withLamp (s.panel p).lampPending (keyNumber k) }
        else s.panel p
      ((s.key k).state = .pressed → s.timerDue (s.key k).latchTimer = true →
        ∃ t, exec (.latchWindowExpiry k) s = .next t ∧
          t.key k = { s.key k with state := .momentaryOn, latchTimer := none } ∧ (∀ j, j ≠ k → t.key j = s.key j) ∧
          lamps t ∧ Touches [.keys, .panels] s t) ∧
      (s.timerDue (s.key k).winkTimer = true →
        ∃ t, exec (.winkTimerExpiry k) s = .next t ∧
          t.key k = { s.key k with winkTimer := none } ∧ (∀ j, j ≠ k → t.key j = s.key j) ∧
          lamps t ∧ Touches [.keys, .panels] s t)) ∧
  (∀ (q : PanelId) (x : StationId) (s : State), s.awake = true → Settled s →
      (∃ e ∈ (s.panel q).replyList, e.station = x ∧ s.due e.expiresAt = true) →
      ∃ t, exec (.replyExpiry q x) s = .next t ∧ Touches [.panels] s t ∧
        (t.panel q).replyList = ((s.panel q).replyList.filter fun e => e.station != x) ∧
        ∀ p, t.panel p =
          { s.panel p with replyList := (t.panel p).replyList, lampPending := (t.panel p).lampPending } ∧
          (p ≠ q → t.panel p = s.panel p))

/-- SILENCE_TIMER_EXPIRY (R104, R105): the panel goes OFFLINE with its timer stopped, its loss policy is applied in
ascending key order, and PANEL_OFFLINE is raised. DROP_ALL releases every key that is not IDLE, KEEP_LATCHED every key that
is neither IDLE nor LATCHED: each ends IDLE, with its latch window stopped, its physical-down flag kept, in no arbiter and
without its grant. KEEP_ALL changes no key and no entry. A kept key, and a key of another panel, stays as it is; one that
waits for an ear may be served or dropped by a release, and a LATCHED key dropped before its turn is released then, as the
model reads R105 (notes/assumptions/31.md). The releases rest on the invariants of the store and of the arbiters.
R103, R107: a KEY_MAP at an OFFLINE panel brings it ONLINE: its silence timer runs for 1000 ms, its encoders' residues
are 0, every key's physical-down flag reads as the map, every lamp and the cadence are to be sent, and PANEL_ONLINE is
raised.
R121, R122: an encoder of an ONLINE panel turns: its counts, with the residue, make whole steps, and the rest is the new
residue; the steps move the output level of the own station's destination or a key's talk level within minimum and
maximum, and with the talk level the entry of the key's grant. -/
def Obligations.PanelPresence : Prop :=
  (∀ (p : PanelId) (s : State), s.awake = true → Settled s → (s.panel p).online = .online →
      s.timerDue (s.panel p).silenceTimer = true →
      let u := applyPolicy (s.panel p).lossPolicy p
        (s.setPanel p { s.panel p with online := .offline, silenceTimer := none })
      ∃ t, exec (.silenceTimerExpiry p) s = .next t ∧ Raised u t .panelOffline (some p.val) ∧
        Touches [.events, .notices] u t ∧ (t.panel p).online = .offline ∧ (t.panel p).silenceTimer = none ∧
        ((s.panel p).lossPolicy = .keepAll → Touches [.panels] s u) ∧
        (StoreInv s → ArbiterInv s → ∀ k,
          let released : Prop := keyPanel k = p ∧ (s.key k).state ≠ .idle ∧
            ((s.panel p).lossPolicy = .dropAll ∨ ((s.panel p).lossPolicy = .keepLatched ∧ (s.key k).state ≠ .latched))
          (released →
            (t.key k).state = .idle ∧ (t.key k).latchTimer = none ∧ (t.key k).down = (s.key k).down ∧
              (t.key k).standing = .outside ∧
              (∀ d, (t.arbiter d).current ≠ some k ∧ ∀ w ∈ (t.arbiter d).waiting, w.key ≠ k) ∧
              ∀ a b, s.grantPair k = some (a, b) → ∀ e ∈ t.entriesOf b, e.source = a → k ∉ e.grants) ∧
          (¬released → (s.key k).standing ≠ .waiting → t.key k = s.key k))) ∧
  (∀ (p : PanelId) (map : BitVec 32) (s : State),
      let t := panelOnline p map s
      (t.panel p).online = .online ∧ (t.panel p).silenceTimer = some (s.timing.sample + 48000) ∧
      (∀ i, (tget (t.panel p).encoders i).residue = 0) ∧ (t.panel p).lampPending = BitVec.allOnes 32 ∧
      (t.panel p).cadencePending = true ∧ (∀ n, (t.key (keyIndex p n)).down = map.getLsbD n.val) ∧
      (t.event .panelOnline).isSet = true ∧ (t.event .panelOnline).inst = some p.val) ∧
  (∀ (p : PanelId) (i : Fin 4) (delta : Int) (s : State),
      let e := tget (s.panel p).encoders i
      let c : Int := match e.mode with
        | .x1 => 4
        | .x2 => 2
        | .x4 => 1
      let r := e.residue + delta
      let steps := Int.tdiv r c
      let moved := fun (l l' : Level) =>
        (l'.val : Int) = max (e.minimum.val : Int) (min (e.maximum.val : Int) ((l.val : Int) + steps))
      let t := turnEncoder p i delta s
      t.panel p = { s.panel p with encoders := tset (s.panel p).encoders i { e with residue := r - steps * c } } ∧
      (∀ q, q ≠ p → t.panel q = s.panel q) ∧
      (steps = 0 → Touches [.panels] s t) ∧
      (steps ≠ 0 → e.target = none →
        Touches [.panels, .dests] s t ∧
        ((s.station (s.panel p).ownStation).dest = none → t.dests = s.dests) ∧
        ∀ d, (s.station (s.panel p).ownStation).dest = some d →
          (∀ m, m ≠ d → t.dest m = s.dest m) ∧
          ∃ l, moved (s.dest d).outputLevel l ∧ t.dest d = { s.dest d with outputLevel := l }) ∧
      (steps ≠ 0 → ∀ n, e.target = some n →
        Touches [.panels, .keys, .entries] s t ∧ (∀ j, j ≠ keyIndex p n → t.key j = s.key j) ∧
        ∃ l, moved (s.key (keyIndex p n)).talkLevel l ∧
          t.key (keyIndex p n) = { s.key (keyIndex p n) with talkLevel := l } ∧
          (s.grantPair (keyIndex p n) = none → t.entries = s.entries) ∧
          ∀ a b, s.grantPair (keyIndex p n) = some (a, b) →
            (∀ d, d ≠ b → t.entriesOf d = s.entriesOf d) ∧
            t.entriesOf b = (s.entriesOf b).map fun x =>
              if x.source = a then { x with level := if l = 0 then 1 else l } else x))

/-- INTERVAL_TIMER_EXPIRY and PROBE_TIMEOUT (R161, R164, R167): the interval restarts and a probe request is placed unless
one waits; a probe that times out is lost and leaves the list, and the third loss in a row raises PROBE_LOST.
R163: a probe departs with the next tag of its circuit and the frame's departure as its sent count, its timeout runs from
there, and it takes its place at the tail of the outstanding list; of four outstanding probes the oldest is lost first. It
departs within a boundary, where which period a notice carries is free (notes/assumptions/7.md); what the third loss leaves
of PROBE_LOST's record is the same there. -/
def Obligations.CircuitTimersExpire : Prop :=
  (∀ (c : CircuitId) (tag : BitVec 15) (s : State), s.awake = true → Settled s →
    (s.timerDue (s.circuit c).intervalTimer = true →
      ∃ t, exec (.intervalTimerExpiry c) s = .next t ∧
        t.circuit c =
          { s.circuit c with
              intervalTimer := some (s.timing.sample + BitVec.ofNat 32 (48 * (s.circuit c).probeInterval)) } ∧
        (∀ q, q ≠ c → t.circuit q = s.circuit q) ∧
        (∀ x, t.probeQueue x =
          if s.circuitPort c = some x ∧ c ∉ s.probeQueue x then s.probeQueue x ++ [c] else s.probeQueue x) ∧
        Touches [.circuits, .probeQueues] s t) ∧
    (s.probeDue c tag = true →
      ∃ t, exec (.probeTimeout c tag) s = .next t ∧
        t.circuit c =
          { s.circuit c with
              lostInARow := satInc 255 (s.circuit c).lostInARow
              outstanding := (s.circuit c).outstanding.filter fun p => p.tag != tag } ∧
        (∀ q, q ≠ c → t.circuit q = s.circuit q) ∧
        ((s.circuit c).lostInARow = 2 → Raised s t .probeLost (some c.val)) ∧
        ((s.circuit c).lostInARow ≠ 2 → t.events = s.events ∧ t.notices = s.notices) ∧
        Touches [.circuits, .events, .notices] s t)) ∧
  ∀ (c : CircuitId) (sent : Count) (s : State),
    let r := s.circuit c
    let t := departProbe c sent s
    let third : Prop :=
      t.event .probeLost =
          { s.event .probeLost with
              isSet := true, count := satInc 255 (s.event .probeLost).count, inst := some c.val } ∧
        (s.timing.atBoundary = false → Raised s t .probeLost (some c.val))
    let probe : Probe :=
      { tag := nextTag r.tagGenerator, sent := sent, expiresAt := sent + BitVec.ofNat 32 (48 * r.probeTimeout) }
    (∀ q, q ≠ c → t.circuit q = s.circuit q) ∧ (∀ k, k ≠ .probeLost → t.event k = s.event k) ∧
    Touches [.circuits, .events, .notices, .draws] s t ∧
    (r.outstanding.length < 4 →
      t.circuit c = { r with tagGenerator := nextTag r.tagGenerator, outstanding := r.outstanding ++ [probe] } ∧
        t.events = s.events ∧ t.notices = s.notices) ∧
    (4 ≤ r.outstanding.length →
      t.circuit c =
        { r with tagGenerator := nextTag r.tagGenerator, outstanding := r.outstanding.drop 1 ++ [probe]
                 lostInARow := satInc 255 r.lostInARow } ∧
        (r.lostInARow = 2 → third) ∧ (r.lostInARow ≠ 2 → t.events = s.events ∧ t.notices = s.notices))

/-! ## The blocks the commands reach -/

/-- R65, R67: a holder that arrives on a pair is recorded on its one entry, whose other holders stay; a new entry is ACTIVE,
at the tail, with applied factor 0, the creator's level and class, and needs room; a grant beyond 32 is refused with
nothing changed; no other entry changes.
R66: a holder that departs leaves its one entry; the entry keeps level, class and applied factor, and becomes
RELEASING when no holder is left; a holder the entry does not record changes nothing. -/
def Obligations.HoldersArriveAndDepart : Prop :=
  (∀ (h : Holder) (level : Level) (cls : EntryClass) (src : SourceId) (d : DestId) (s : State), StoreInv s →
      let u := arrive h level cls src d s
      (∀ d', d' ≠ d → u.1.entriesOf d' = s.entriesOf d') ∧
      (∀ n, n ≠ src → u.1.findEntry n d = s.findEntry n d) ∧
      (s.findEntry src d = none →
        (s.hasRoom d 1 = false → u = (s, false)) ∧
        (s.hasRoom d 1 = true → u.2 = true ∧
          ∃ e, u.1.entriesOf d = s.entriesOf d ++ [e] ∧ e.source = src ∧ e.dest = d ∧ e.state = .active ∧
            e.applied = 0 ∧ e.cls = cls ∧ e.level = (if level = 0 then 1 else level) ∧
            e.static = decide (h = .static) ∧ (∀ k, k ∈ e.grants ↔ h = .grant k) ∧ (∀ p, p ∈ e.parties ↔ h = .party p) ∧
            ∀ t, t ∈ e.taps ↔ h = .tap t)) ∧
      (∀ e, s.findEntry src d = some e → (∀ k, h = .grant k → k ∈ e.grants ∨ e.grants.length < 32) →
        u.2 = true ∧ ∃ e', u.1.findEntry src d = some e' ∧ e'.holds h = true ∧ e'.state = .active ∧
          e'.applied = e.applied ∧ (h ≠ .static → e'.level = e.level ∧ e'.cls = e.cls) ∧
          (h = .static → e.static = false → e'.level = (if level = 0 then 1 else level) ∧ e'.cls = cls) ∧
          ∀ g, g ≠ h → e'.holds g = e.holds g) ∧
      (∀ e k, s.findEntry src d = some e → h = .grant k → k ∉ e.grants → 32 ≤ e.grants.length → u = (s, false))) ∧
  (∀ (h : Holder) (src : SourceId) (d : DestId) (s : State), StoreInv s →
      let u := depart h src d s
      (∀ d', d' ≠ d → u.entriesOf d' = s.entriesOf d') ∧
      (∀ n, n ≠ src → u.findEntry n d = s.findEntry n d) ∧
      ((∀ e, s.findEntry src d = some e → e.holds h = false) → u = s) ∧
      (∀ e, s.findEntry src d = some e → e.holds h = true →
        ∃ e', u.findEntry src d = some e' ∧ e'.holds h = false ∧ e'.level = e.level ∧ e'.cls = e.cls ∧
          e'.applied = e.applied ∧ (e'.held = true → e'.state = .active) ∧ (e'.held = false → e'.state = .releasing) ∧
          ∀ g, g ≠ h → e'.holds g = e.holds g))

/-- R70, R88: the assembly of a destination removes its RELEASING entries, leaves the others in their order, and takes
every applied factor to its target.
R84 to R86: the target of an entry is 0 while it is RELEASING or while its source is isolated from a destination that is no
MONITOR; else it is the factor of its level combined with its source's trim and, for a PROGRAMME entry of an IFB
destination with a current key or a DEGRADED circuit, with the dim code, the degrade code, or the lower of the two.
R20: a source's samples are the slot of the frame stamped for the running period, or silence where there is none, the
slot was not carried, or the source is disabled.
R89: the contributions are the entries in their order, then one feed for each destination that an enabled DESTINATION-side
tap of the monitor matches, in ascending order, with that destination's output of the period before. -/
def Obligations.AssemblyClosesEntries : Prop :=
  (∀ (before s : State) (d : DestId),
    let t := assembleDest before d s
    t.entriesOf d = ((s.entriesOf d).filter fun e => e.state == .active).map
      (fun e => { e with applied := s.entryTarget d e }) ∧
    (∀ m, m ≠ d → t.entriesOf m = s.entriesOf m ∧ t.dest m = s.dest m) ∧
    (∀ x, t.tap x =
      if (s.tap x).side = .destination ∧ (s.tap x).monitor = d then
        { s.tap x with applied := if (s.tap x).enabled then factor (s.tap x).level else 0 }
      else s.tap x) ∧
    ((s.dest d).enabled = true → (∃ z ∈ s.destZ before d, 8388607 < z ∨ z < -8388608) →
      (t.event .clip).isSet = true ∧ (t.event .clip).inst = some d.val) ∧
    ((s.dest d).enabled = false → t.events = s.events)) ∧
  (∀ (s : State) (d : DestId) (e : Entry),
    let code := combine e.level (s.source e.source).trim
    let silent : Prop :=
      e.state = .releasing ∨ (0 < (s.source e.source).isolation ∧ (s.dest d).kind ≠ .monitor)
    let dims : Prop := e.cls = .programme ∧ (s.dest d).kind = .ifb
    let talker : Prop := (s.arbiter d).current ≠ none
    let degraded := fun (c : CircuitId) => (s.dest d).circuit = some c ∧ (s.circuit c).state = .degraded
    let dim := (s.dest d).dimCode
    (silent → s.entryTarget d e = 0) ∧
    (¬silent → ¬dims ∨ (¬talker ∧ ∀ c, ¬degraded c) → s.entryTarget d e = factor code) ∧
    (¬silent → dims → talker → (∀ c, ¬degraded c) → s.entryTarget d e = factor (combine code dim)) ∧
    ∀ c, ¬silent → dims → degraded c →
      s.entryTarget d e =
        factor (combine code
          (if (s.arbiter d).current = none ∨ (s.circuit c).degradeCode < dim then (s.circuit c).degradeCode else dim))) ∧
  (∀ (s : State) (n : SourceId),
    let b := tget (s.port (portOf n)).buffer s.timing.position
    let heard : Prop :=
      (s.source n).enabled = true ∧ b.stamp = some s.timing.period ∧ (slotOf n).val < b.slotCount
    (heard → s.sourceSamples n = b.slots.getD (slotOf n).val silence) ∧
    (¬heard → s.sourceSamples n = List.replicate 48 0)) ∧
  ∀ (before s : State) (d : DestId),
    s.contributions before d =
      ((s.entriesOf d).map fun e =>
        { applied := e.applied, target := s.entryTarget d e, samples := s.sourceSamples e.source }) ++
      ((allOf 8).filter fun x =>
        (s.tap x).enabled && (s.tap x).side == .destination && (s.tap x).monitor == d).flatMap fun x =>
          (s.tap x).matched.map fun m =>
            { applied := (s.tap x).applied, target := factor (s.tap x).level, samples := (before.dest m).previousOutput }

/-- R110, R114, R117: a press of an IDLE TALK_STATION key. With room it is granted: the pair's new entry is held by the key
at its talk level, and the key enters the state of its mode. With none it is refused: GRANT_REFUSED, REFUSED_HELD, and
the wink timer runs for 2000 ms.
R110, R115: the release of a TALK_STATION key in MOMENTARY_ON gives up its grant and returns it to IDLE; a release in
PRESSED latches it and keeps the grant.

R106, R110 to R114: a position that the flag already has changes nothing. A press in IDLE acquires the action of the key's
function: granted, the key enters the state of its mode, refused REFUSED_HELD with its wink started. A press in LATCHED
gives up the action and enters UNLATCHING. A release in MOMENTARY_ON gives up the action; it and a release in UNLATCHING or
REFUSED_HELD return the key to IDLE; a release in PRESSED latches. Every other pairing, and a press of a key of function
NONE, moves the flag alone.
R116 to R118: what TALK_STATION, LISTEN_STATION and REPLY acquire: a grant on their pair, refused without an event where a
side is missing, and with GRANT_REFUSED where the store is full; a REPLY takes the head of its panel's reply list from it
whether granted or not.
R133, R137, R144: what TALK_PARTY, CALL_STATION and IFB acquire: the talk flag of the own station's membership, with the
pairs requested that it makes wanted; a place at the head of the reply list of every other configured panel of the target
station, the tail of a full list dropped; a request at the target's arbiter (`ArbiterServesKeys`).
R115, R134: what each gives up. -/
def Obligations.TalkKeyMoves : Prop :=
  (∀ (k : KeyId) (x : StationId) (a : SourceId) (d : DestId) (s : State), Settled s →
      (s.key k).function = .talkStation → (s.key k).targetStation = some x → s.ownSource k = some a →
      (s.station x).dest = some d → (s.key k).state = .idle → (s.key k).down = false → s.findEntry a d = none →
      let t := keyPosition k true s
      (∀ j, j ≠ k → t.key j = s.key j) ∧ (t.key k).down = true ∧
      (s.hasRoom d 1 = true →
        (t.key k).state =
          (match (s.key k).mode with | .momentary => .momentaryOn | .latching => .latched | .auto => .pressed) ∧
        ((s.key k).mode = .auto →
          (t.key k).latchTimer =
            some (s.timing.sample + BitVec.ofNat 32 (48 * (s.panel (keyPanel k)).latchWindow))) ∧
        ∃ e, t.entriesOf d = s.entriesOf d ++ [e] ∧ e.source = a ∧ e.grants = [k] ∧ e.cls = .talk ∧
          e.state = .active ∧ e.level = (if (s.key k).talkLevel = 0 then 1 else (s.key k).talkLevel)) ∧
      (s.hasRoom d 1 = false →
        (t.key k).state = .refusedHeld ∧ (t.key k).winkTimer = some (s.timing.sample + 96000) ∧
        t.entries = s.entries ∧ Raised s t .grantRefused (some d.val))) ∧
  (∀ (k : KeyId) (x : StationId) (a : SourceId) (d : DestId) (s : State), StoreInv s → Settled s →
      (s.key k).function = .talkStation → (s.key k).targetStation = some x → s.ownSource k = some a →
      (s.station x).dest = some d → (s.key k).down = true →
      let t := keyPosition k false s
      ((s.key k).state = .momentaryOn →
        (t.key k).state = .idle ∧ ∀ e ∈ t.entriesOf d, e.source = a → k ∉ e.grants) ∧
      ((s.key k).state = .pressed →
        (t.key k).state = .latched ∧ (t.key k).latchTimer = none ∧ t.entries = s.entries)) ∧
  (∀ (k : KeyId) (s : State),
      let r := s.key k
      let pressed := s.setKey k { r with down := true }
      let released := s.setKey k { r with down := false }
      let moved := fun (u t : State) (x : Key) =>
        t.key k = x ∧ (∀ j, j ≠ k → t.key j = u.key j) ∧ PanelsButLamps u t ∧ Touches [.keys, .panels, .lampDirty] u t
      let flagAlone := fun (b : Bool) => moved s (keyPosition k b s) { r with down := b }
      (∀ b, r.down = b → keyPosition k b s = s) ∧
      (r.down = false →
        let t := keyPosition k true s
        let u := (acquire k pressed).1
        let v := giveUp k pressed
        (r.function = .unassigned → flagAlone true) ∧
        (r.function ≠ .unassigned →
          (r.state = .idle → (acquire k pressed).2 = true →
            moved u t
              { u.key k with
                  state := match r.mode with
                    | .momentary => .momentaryOn
                    | .latching => .latched
                    | .auto => .pressed
                  latchTimer :=
                    if r.mode = .auto then
                      some (s.timing.sample + BitVec.ofNat 32 (48 * (s.panel (keyPanel k)).latchWindow))
                    else none }) ∧
          (r.state = .idle → (acquire k pressed).2 = false →
            moved u t
              { u.key k with
                  state := .refusedHeld, latchTimer := none, winkTimer := some (s.timing.sample + 96000) }) ∧
          (r.state = .latched → moved v t { v.key k with state := .unlatching, latchTimer := none }) ∧
          (r.state ≠ .idle → r.state ≠ .latched → flagAlone true))) ∧
      (r.down = true →
        let t := keyPosition k false s
        let v := giveUp k released
        (r.state = .pressed → moved s t { r with down := false, state := .latched, latchTimer := none }) ∧
        (r.state = .momentaryOn → moved v t { v.key k with state := .idle, latchTimer := none }) ∧
        (r.state = .unlatching ∨ r.state = .refusedHeld →
          moved s t { r with down := false, state := .idle, latchTimer := none }) ∧
        (r.state = .idle ∨ r.state = .latched → flagAlone false))) ∧
  (∀ (k : KeyId) (x : StationId) (s : State), s.timing.atBoundary = false →
      let r := s.key k
      let own := s.station (s.panel (keyPanel k)).ownStation
      let u := acquire k s
      let granted := fun (a : SourceId) (b : DestId) => arrive (.grant k) r.talkLevel .talk a b s
      ∀ src dst,
        ((r.function = .talkStation ∧ r.targetStation = some x ∧ src = own.source ∧ dst = (s.station x).dest) ∨
            (r.function = .listenStation ∧ r.targetStation = some x ∧ src = (s.station x).source ∧ dst = own.dest) →
          (src = none ∨ dst = none → u = (s, false)) ∧
          ∀ a b, src = some a → dst = some b →
            ((granted a b).2 = true → u = ((granted a b).1, true)) ∧
            ((granted a b).2 = false →
              u.2 = false ∧ Raised s u.1 .grantRefused (some b.val) ∧ Touches [.events, .notices] s u.1)) ∧
        (r.function = .reply →
          ((s.panel (keyPanel k)).replyList = [] → u = (s, false)) ∧
          ∀ e rest, (s.panel (keyPanel k)).replyList = e :: rest → e.station = x →
            src = own.source → dst = (s.station x).dest →
            (∀ p, u.1.panel p =
              if p = keyPanel k then { s.panel p with replyList := rest.filter fun f => f.station != x } else s.panel p) ∧
            (src = none ∨ dst = none → u.2 = false ∧ Touches [.panels, .lampDirty] s u.1) ∧
            ∀ a b, src = some a → dst = some b →
              ((granted a b).2 = true →
                u.2 = true ∧ u.1.entries = (granted a b).1.entries ∧ u.1.key k = { r with resolved := some x } ∧
                  (∀ j, j ≠ k → u.1.key j = s.key j) ∧
                  Touches [.panels, .keys, .entries, .nextSerial, .lampDirty] s u.1) ∧
              ((granted a b).2 = false →
                u.2 = false ∧ Raised s u.1 .grantRefused (some b.val) ∧
                  Touches [.panels, .events, .notices, .lampDirty] s u.1))) ∧
  (∀ (k : KeyId) (x : StationId) (s : State), (s.key k).function = .callStation → (s.key k).targetStation = some x →
      let c := (s.panel (keyPanel k)).ownStation
      let called := fun (q : PanelId) =>
        q ≠ keyPanel k ∧ (s.panel q).configured = true ∧ (s.panel q).ownStation = x
      let u := acquire k s
      giveUp k s = s ∧
      (x = c ∨ (∀ q, ¬called q) → u = (s, false)) ∧
      (x ≠ c → (∃ q, called q) →
        u.2 = true ∧ Touches [.panels, .lampDirty] s u.1 ∧
        ∀ q,
          (called q → u.1.panel q =
            { s.panel q with
                replyList :=
                  ({ station := c
                     expiresAt := s.timing.sample + BitVec.ofNat 32 (48000 * (s.panel q).replyExpiry) } ::
                    (s.panel q).replyList.filter fun e => e.station != c).take 4 }) ∧
          (¬called q → u.1.panel q = s.panel q))) ∧
  (∀ (k : KeyId) (p : PartyId) (s : State), (s.key k).function = .talkParty → (s.key k).targetParty = some p →
      let c := (s.panel (keyPanel k)).ownStation
      let source := (s.station c).source
      let u := acquire k s
      let v := giveUp k s
      let held : Prop := ∃ j, j ≠ k ∧ (s.panel (keyPanel j)).ownStation = c ∧ (s.key j).targetParty = some p ∧
        ((s.key j).state = .pressed ∨ (s.key j).state = .momentaryOn ∨ (s.key j).state = .latched)
      let talks := fun (b : Bool) =>
        { s.party p with members := (s.party p).members.map fun m => if m.station = c then { m with talk := b } else m }
      ((s.party p).find c = none ∨ source = none → u = (s, false)) ∧
      ((s.party p).find c = none ∨ held → v = s) ∧
      ∀ m, (s.party p).find c = some m →
        (source ≠ none → m.talk = true → u = (s, true)) ∧
        (source ≠ none → m.talk = false →
          u.2 = true ∧ u.1.party p = talks true ∧ (∀ q, q ≠ p → u.1.party q = s.party q) ∧ Touches partyFields s u.1 ∧
          ((∀ m' ∈ (s.party p).members, m'.station = c → m'.talk = false) → (s.party p).enabled = true →
            ∀ a y b, source = some a → y ∈ (s.party p).members → y.listen = true → y.station ≠ c →
              (s.station y.station).dest = some b →
              (∃ e ∈ u.1.entriesOf b, e.source = a ∧ p ∈ e.parties) ∨ (u.1.event .grantRefused).isSet = true)) ∧
        (m.talk = false → v = s) ∧
        (¬held → m.talk = true →
          v.party p = talks false ∧ (∀ q, q ≠ p → v.party q = s.party q) ∧ Touches partyFields s v ∧
            (StoreInv s → PartyInv s → ∀ d, ∀ e ∈ v.entriesOf d, p ∈ e.parties → Wanted v p e.source d))) ∧
  (∀ (k : KeyId) (d : DestId) (s : State), (s.key k).function = .ifb → (s.key k).target = some d →
      let source := (s.station (s.panel (keyPanel k)).ownStation).source
      giveUp k s = leaveArbiter k s ∧
      ((s.dest d).kind ≠ .ifb ∨ source = none → acquire k s = (s, false)) ∧
      ∀ a, (s.dest d).kind = .ifb → source = some a → acquire k s = requestArbiter k a d s) ∧
  ∀ (k : KeyId) (x : StationId) (a : SourceId) (b : DestId) (s : State),
      let r := s.key k
      let own := s.station (s.panel (keyPanel k)).ownStation
      (r.state = .pressed ∨ r.state = .momentaryOn ∨ r.state = .latched) →
      (r.function = .talkStation ∧ r.targetStation = some x ∧ own.source = some a ∧ (s.station x).dest = some b) ∨
        (r.function = .listenStation ∧ r.targetStation = some x ∧ (s.station x).source = some a ∧ own.dest = some b) ∨
        (r.function = .reply ∧ r.resolved = some x ∧ own.source = some a ∧ (s.station x).dest = some b) →
      s.grantPair k = some (a, b) ∧ (giveUp k s).entries = (depart (.grant k) a b s).entries ∧
        (∀ j, j ≠ k → (giveUp k s).key j = s.key j) ∧
        ((giveUp k s).key k = if r.function = .reply then { r with resolved := none } else r) ∧
        Touches [.keys, .entries, .lampDirty] s (giveUp k s)

/-- R145 to R148: a request at an arbiter with no current key makes the key current where the store has room and is refused
with GRANT_REFUSED where it has none. A HIGH request the store grants pre-empts a LOW current key, whose grant departs and
which waits after every HIGH key. Every other request waits by rank, a HIGH one after the HIGH keys and a LOW one at the
tail, GRANT_REFUSED raised where a pre-emption was refused. With four keys waiting the last of the five is dropped: the
request itself, which is refused, or another key.
R149, R150: when the current key leaves, its grant departs and its standing is NONE; each key at the head of the list that
the store refuses is dropped with GRANT_REFUSED, the first that it grants becomes current, and with none left the ear is
free. A waiting key that leaves makes the keys behind it close up, and nothing else changes. -/
def Obligations.ArbiterServesKeys : Prop :=
  (∀ (k : KeyId) (src : SourceId) (d : DestId) (s : State),
      let u := requestArbiter k src d s
      let store := requestGrant k src d s
      let waiting := (s.arbiter d).waiting
      let ranked := fun (w : Waiter) => waiting.takeWhile (fun x => x.high) ++ w :: waiting.dropWhile (fun x => x.high)
      let only := fun (l : List KeyId) => ∀ j, j ∉ l → u.1.key j = s.key j
      (∀ m, m ≠ d → u.1.arbiter m = s.arbiter m) ∧
      Touches [.arbiters, .keys, .entries, .nextSerial, .events, .notices, .draws, .lampDirty] s u.1 ∧
      ((s.arbiter d).current = none →
        (store.2 = true →
          u.2 = true ∧ u.1.arbiter d = { s.arbiter d with current := some k } ∧
            u.1.key k = { s.key k with standing := .current } ∧ only [k] ∧ u.1.entries = store.1.entries ∧
            u.1.events = s.events) ∧
        (store.2 = false →
          u.2 = false ∧ u.1.arbiters = s.arbiters ∧ u.1.keys = s.keys ∧ u.1.entries = s.entries ∧
            (u.1.event .grantRefused).isSet = true ∧ (u.1.event .grantRefused).inst = some d.val)) ∧
      ∀ c, (s.arbiter d).current = some c →
        let outranks : Prop := (s.key k).priority = .high ∧ (s.key c).priority = .low
        (¬outranks ∨ store.2 = false →
          u.1.entries = s.entries ∧ (u.1.arbiter d).current = some c ∧
          (outranks → (u.1.event .grantRefused).isSet = true ∧ (u.1.event .grantRefused).inst = some d.val) ∧
          (¬outranks → u.1.events = s.events) ∧
          (waiting.length < 4 →
            u.2 = true ∧ u.1.key k = { s.key k with standing := .waiting } ∧ only [k] ∧
              (u.1.arbiter d).waiting =
                if (s.key k).priority = .high then ranked { key := k, high := true }
                else waiting ++ [{ key := k, high := false }]) ∧
          (waiting.length = 4 → (∀ w ∈ waiting, w.key ≠ k) →
            ((s.key k).priority = .low ∨ (∀ w ∈ waiting, w.high = true) →
              u.2 = false ∧ u.1.arbiters = s.arbiters ∧ u.1.keys = s.keys) ∧
            ((s.key k).priority = .high → (∃ w ∈ waiting, w.high = false) → ∀ last, waiting.getLast? = some last →
              u.2 = true ∧ u.1.key k = { s.key k with standing := .waiting } ∧ KeyDropped s u.1 last.key ∧
                only [k, last.key] ∧ (u.1.arbiter d).waiting = (ranked { key := k, high := true }).take 4))) ∧
        (outranks → store.2 = true → c ≠ k →
          u.2 = true ∧ (u.1.arbiter d).current = some k ∧ u.1.events = s.events ∧
          (∀ b, s.ownSource c = some b → u.1.entries = (depart (.grant c) b d store.1).entries) ∧
          (s.ownSource c = none → u.1.entries = store.1.entries) ∧
          (waiting.length < 4 →
            u.1.key k = { s.key k with standing := .current } ∧ u.1.key c = { s.key c with standing := .waiting } ∧
              only [k, c] ∧ (u.1.arbiter d).waiting = ranked { key := c, high := false }) ∧
          (waiting.length = 4 → (∀ w ∈ waiting, w.key ≠ k ∧ w.key ≠ c) →
            u.1.key k = { s.key k with standing := .current } ∧
            ((∀ w ∈ waiting, w.high = true) →
              KeyDropped s u.1 c ∧ only [k, c] ∧ (u.1.arbiter d).waiting = waiting) ∧
            ((∃ w ∈ waiting, w.high = false) → ∀ last, waiting.getLast? = some last →
              KeyDropped s u.1 last.key ∧ u.1.key c = { s.key c with standing := .waiting } ∧ only [k, c, last.key] ∧
                (u.1.arbiter d).waiting = (ranked { key := c, high := false }).take 4)))) ∧
  (∀ (k : KeyId) (d : DestId) (s : State), (s.key k).target = some d → (s.arbiter d).current = some k →
      let t := leaveArbiter k s
      let left := match s.ownSource k with
        | some a => depart (.grant k) a d s
        | none => s
      let grant := fun (w : Waiter) (b : SourceId) => requestGrant w.key b d left
      (∀ m, m ≠ d → t.arbiter m = s.arbiter m) ∧
      (∀ j, j ≠ k → (∀ w ∈ (s.arbiter d).waiting, w.key ≠ j) → t.key j = s.key j) ∧
      Touches [.arbiters, .keys, .entries, .nextSerial, .events, .notices, .draws, .lampDirty] s t ∧
      ∀ dropped rest, (s.arbiter d).waiting = dropped ++ rest →
        ((s.arbiter d).waiting.map Waiter.key).Nodup → (∀ w ∈ (s.arbiter d).waiting, w.key ≠ k) →
        (∀ w ∈ dropped, ∃ b, s.ownSource w.key = some b ∧ (grant w b).2 = false) →
        let refused : Prop :=
          t.key k = { s.key k with standing := .outside } ∧ (∀ w ∈ dropped, KeyDropped s t w.key) ∧
            (dropped = [] → t.events = s.events) ∧
            (dropped ≠ [] → (t.event .grantRefused).isSet = true ∧ (t.event .grantRefused).inst = some d.val)
        (rest = [] →
          refused ∧ t.arbiter d = { current := none, waiting := [] } ∧ t.entries = left.entries) ∧
        ∀ w ws b, rest = w :: ws → s.ownSource w.key = some b → (grant w b).2 = true →
          refused ∧ t.arbiter d = { current := some w.key, waiting := ws } ∧
            t.key w.key = { s.key w.key with standing := .current } ∧ t.entries = (grant w b).1.entries ∧
            ∀ x ∈ ws, t.key x.key = s.key x.key) ∧
  ∀ (k : KeyId) (d : DestId) (s : State), (s.key k).target = some d → (s.arbiter d).current ≠ some k →
      let t := leaveArbiter k s
      ((∃ w ∈ (s.arbiter d).waiting, w.key = k) →
        t.arbiter d =
            { s.arbiter d with waiting := (s.arbiter d).waiting.filter fun w => decide (w.key ≠ k) } ∧
          (∀ m, m ≠ d → t.arbiter m = s.arbiter m) ∧ t.key k = { s.key k with standing := .outside } ∧
          (∀ j, j ≠ k → t.key j = s.key j) ∧ Touches [.arbiters, .keys, .lampDirty] s t) ∧
      ((∀ w ∈ (s.arbiter d).waiting, w.key ≠ k) → t = s)

/-- R166 to R169: an echo of an outstanding probe measures the circuit: the older probes are lost, the estimate moves an
eighth of the way, and the state follows the limits with FIELD_DEGRADED or FIELD_NORMAL raised. PROBE_LOST is raised where
the older losses take the count in a row past 3. An echo of no outstanding probe is stray and only counted.
R171: a return frame below the silence threshold adds a millisecond to the silent accumulator; at the silence time the flag
is set and RETURN_SILENT raised; a louder frame clears both.
R172, R173: with its port a probing circuit loses its link: it enters LINK_LOST with its timer stopped, its request
withdrawn and its probes forgotten, its measurements kept. A circuit in LINK_LOST whose port enters UP starts afresh. -/
def Obligations.EchoMeasures : Prop :=
  (∀ (c : CircuitId) (p : Probe) (older rest : List Probe) (arrival : Count) (s : State), s.timing.atBoundary = false →
    (s.circuit c).outstanding = older ++ p :: rest → (∀ q ∈ older, q.tag ≠ p.tag) →
    let r := s.circuit c
    let m := (arrival - p.sent).toNat
    let e : Nat := match r.estimate with
      | none => m
      | some e => ((e : Int) + Int.tdiv ((m : Int) - (e : Int)) 8).toNat
    let t := acceptEcho c p.tag arrival s
    let third : Prop := r.lostInARow ≤ 2 ∧ 2 < r.lostInARow + older.length
    t.circuit c =
      { r with last := some m, previous := r.last, estimate := some e, lostInARow := 0, outstanding := rest
               state := (t.circuit c).state } ∧
      (∀ q, q ≠ c → t.circuit q = s.circuit q) ∧ Touches [.circuits, .events, .notices] s t ∧
      (third → (t.event .probeLost).isSet = true ∧ (t.event .probeLost).inst = some c.val) ∧
      (¬third → t.event .probeLost = s.event .probeLost) ∧
      (r.state = .starting ∨ r.state = .normal →
        (r.upperLimit < e →
          (t.circuit c).state = .degraded ∧ (t.event .fieldDegraded).isSet = true ∧
            (t.event .fieldDegraded).inst = some c.val ∧ (¬third → Raised s t .fieldDegraded (some c.val))) ∧
        (e ≤ r.upperLimit → (t.circuit c).state = .normal ∧
          (third → Raised s t .probeLost (some c.val)) ∧ (¬third → t.events = s.events ∧ t.notices = s.notices))) ∧
      (r.state = .degraded →
        (e < r.lowerLimit →
          (t.circuit c).state = .normal ∧ (t.event .fieldNormal).isSet = true ∧
            (t.event .fieldNormal).inst = some c.val ∧ (¬third → Raised s t .fieldNormal (some c.val))) ∧
        (r.lowerLimit ≤ e → (t.circuit c).state = .degraded ∧
          (third → Raised s t .probeLost (some c.val)) ∧ (¬third → t.events = s.events ∧ t.notices = s.notices))) ∧
      (r.state = .linkLost → (t.circuit c).state = .linkLost)) ∧
  (∀ (c : CircuitId) (tag : BitVec 15) (arrival : Count) (s : State),
    (∀ p ∈ (s.circuit c).outstanding, p.tag ≠ tag) →
    acceptEcho c tag arrival s =
      s.setCircuit c { s.circuit c with strayEchoes := satInc 65535 (s.circuit c).strayEchoes }) ∧
  (∀ (c : CircuitId) (peak : Nat) (s : State), s.timing.atBoundary = false →
    let r := s.circuit c
    let ms := satInc 65535 r.silentMs
    let t := returnFrame c peak s
    (r.silenceThreshold ≤ peak → t = s.setCircuit c { r with silentMs := 0, silent := false }) ∧
    (peak < r.silenceThreshold → r.silent = true ∨ ms < r.silenceTime → t = s.setCircuit c { r with silentMs := ms }) ∧
    (peak < r.silenceThreshold → r.silent = false → r.silenceTime ≤ ms →
      t.circuit c = { r with silentMs := ms, silent := true } ∧ (∀ q, q ≠ c → t.circuit q = s.circuit q) ∧
        Raised s t .returnSilent (some c.val) ∧ Touches [.circuits, .events, .notices] s t)) ∧
  ∀ (x : PortId) (c : CircuitId) (s : State),
    let r := s.circuit c
    let on : Prop := ∃ d, (s.station r.reporter).dest = some d ∧ portOf d = x
    let lost : Prop := (r.state = .starting ∨ r.state = .normal ∨ r.state = .degraded) ∧ on
    let back : Prop := r.state = .linkLost ∧ on
    let t := fieldPortLost x s
    let u := fieldPortUp x s
    Touches [.circuits, .probeQueues] s t ∧ Touches [.circuits] s u ∧
      (lost → t.circuit c = { r with state := .linkLost, intervalTimer := none, outstanding := [] } ∧
        ∀ y, c ∉ t.probeQueue y) ∧
      (¬lost → t.circuit c = r ∧ ∀ y, c ∈ t.probeQueue y ↔ c ∈ s.probeQueue y) ∧
      (back →
        u.circuit c =
          { r with state := .starting, estimate := none, last := none, previous := none, lostInARow := 0
                   intervalTimer := some (s.timing.sample + BitVec.ofNat 32 (48 * r.probeInterval)) }) ∧
      (¬back → u.circuit c = r)

/-- R191, R192: a lamp cell serves the panel with something pending that comes next in the rotation: the lowest of the
port's above its service position, or, with none above, the lowest of all. The position moves to it. A pending cadence goes
first, in a CADENCE cell with entries 0 to 5; else a LAMP cell carries up to eight keys, lowest first, which leave the
pending set with the state sent as their last-sent lamp (R44).
R26: the lane of a port holds at most eight cells, in this order: its probes, oldest first, each departing as it is placed
(R163; `CircuitTimersExpire`) with the tag and the circuit number in its cell and its gateway in the header (R44); at most
two lamp cells; on the management port in UP or HOLDOVER the replies and then the notices, oldest first; lamp cells again.
What is placed leaves its queue, and where a place stays free nothing that could take it is left. -/
def Obligations.LampCellsServe : Prop :=
  (∀ (x : PortId) (s : State),
    let candidate := fun (p : PanelId) =>
      (s.panel p).configured = true ∧ (s.panel p).port = x ∧ (s.panel p).online = .online ∧
        ((s.panel p).lampPending ≠ 0 ∨ (s.panel p).cadencePending = true)
    let above := fun (p : PanelId) => ∀ q, s.lampPosition x = some q → q < p
    let next := fun (p : PanelId) =>
      candidate p ∧
        ((above p ∧ ∀ q, candidate q → above q → p ≤ q) ∨
          ((∀ q, candidate q → ¬above q) ∧ ∀ q, candidate q → p ≤ q))
    ((∀ p, ¬candidate p) → lampCell x s = none) ∧
    ∀ p, next p →
      let header := fun (kind : Byte) => [kind, (s.panel p).node.setWidth 8, 0, 28]
      ∃ cell t, lampCell x s = some (cell, t) ∧ t.lampPosition x = some p ∧
        (∀ y, y ≠ x → t.lampPosition y = s.lampPosition y) ∧ (∀ q, q ≠ p → t.panel q = s.panel q) ∧
        Touches [.panels, .keys, .lampPositions, .draws] s t ∧
        ((s.panel p).cadencePending = true →
          (∃ body, cell = header 0x19 ++ body ∧
            Spells body
              (stated (([0, 1, 2, 3, 4, 5] : List CadenceId).flatMap fun c =>
                let r := s.cadence c
                [BitVec.ofNat 8 (r.period / 10), BitVec.ofNat 8 (r.bright / 10), BitVec.ofNat 8 (r.dim / 10),
                  BitVec.ofNat 8 (16 * r.brightLevel + r.dimLevel)]) ++ unstated 4)) ∧
          t.panel p = { s.panel p with cadencePending := false } ∧ t.keys = s.keys) ∧
        ((s.panel p).cadencePending = false →
          let sent := ((allOf 32).filter fun n => (s.panel p).lampPending.getLsbD n.val).take 8
          let states : List LampState := [.off, .on, .dim, .flashCall, .flashBusy, .wink]
          (∃ body, cell = header 0x18 ++ body ∧
            Spells body
              (stated (BitVec.ofNat 8 sent.length :: sent.flatMap fun n =>
                [BitVec.ofNat 8 n.val, BitVec.ofNat 8 (states.idxOf (s.deriveLamp (keyIndex p n)))]) ++
                unstated (27 - 2 * sent.length))) ∧
          t.panel p = { s.panel p with lampPending := (t.panel p).lampPending } ∧
          (∀ n : Fin 32, (t.panel p).lampPending.getLsbD n.val =
            ((s.panel p).lampPending.getLsbD n.val && !sent.contains n)) ∧
          (∀ n : Fin 32, t.key (keyIndex p n) =
            if sent.contains n then { s.key (keyIndex p n) with lastLamp := s.deriveLamp (keyIndex p n) }
            else s.key (keyIndex p n)) ∧
          ∀ k, keyPanel k ≠ p → t.key k = s.key k)) ∧
  (∀ (x : PortId) (sent : Count) (s : State),
    let host := s.straps.mgmt == x && ((s.port x).state == .up || (s.port x).state == .holdover)
    let probes := placeProbes x sent 8 s
    let lamps := placeLamps x (min 2 (8 - probes.1.length)) probes.2
    let room := if host then 8 - (probes.1 ++ lamps.1).length else 0
    let replies := (s.replies.take room).map fun r => [0x02, s.straps.node.setWidth 8, r.tag, 28] ++ r.body
    let notices := placeNotices (room - replies.length) { lamps.2 with replies := s.replies.drop room }
    let more := placeLamps x (8 - (probes.1 ++ lamps.1 ++ replies ++ notices.1).length) notices.2
    let cells := probes.1 ++ lamps.1 ++ replies ++ notices.1 ++ more.1
    let t := more.2
    fillLane x sent s = (cells, t) ∧ cells.length ≤ 8 ∧ lamps.1.length ≤ 2 ∧
      probes.1.length = min 8 (s.probeQueue x).length ∧ t.probeQueue x = (s.probeQueue x).drop probes.1.length ∧
      (∀ y, y ≠ x → t.probeQueue y = s.probeQueue y) ∧
      (∀ c ∈ probes.1, byteAt c 0 = 0x20) ∧ (∀ c ∈ lamps.1 ++ more.1, byteAt c 0 = 0x18 ∨ byteAt c 0 = 0x19) ∧
      (host = false → replies = [] ∧ notices.1 = [] ∧ t.replies = s.replies) ∧
      (host = true →
        replies.length = min (8 - (probes.1 ++ lamps.1).length) s.replies.length ∧
        t.replies = s.replies.drop replies.length ∧
        (∀ c ∈ notices.1, byteAt c 0 = 0x03 ∧ byteAt c 1 = s.straps.node.setWidth 8) ∧
        (notices.1 ≠ [] → t.replies = [])) ∧
      (more.1 ≠ [] → host = true → t.replies = [] ∧ t.notices = []) ∧
      (cells.length < 8 →
        t.probeQueue x = [] ∧ t.lampCandidates x = [] ∧ (host = true → t.replies = [] ∧ t.notices = []))) ∧
  (∀ (x : PortId) (sent : Count) (room : Nat) (s : State),
    (room = 0 ∨ s.probeQueue x = [] → placeProbes x sent room s = ([], s)) ∧
    (room = 0 ∨ lampCell x s = none → placeLamps x room s = ([], s)) ∧
    (room = 0 ∨ s.notices = [] → placeNotices room s = ([], s)) ∧
    ∀ cell t, lampCell x s = some (cell, t) →
      placeLamps x (room + 1) s = (cell :: (placeLamps x room t).1, (placeLamps x room t).2)) ∧
  (∀ (x : PortId) (sent : Count) (c : CircuitId) (rest : List CircuitId) (room : Nat) (s : State),
    s.probeQueue x = c :: rest →
    let u := departProbe c sent (s.setProbeQueue x rest)
    let more := placeProbes x sent room { u with draws := u.draws + 1 }
    ∃ body, Spells body
        (stated (bytesOfNat 2 (nextTag (s.circuit c).tagGenerator).toNat ++ [BitVec.ofNat 8 c.val]) ++ unstated 25) ∧
      placeProbes x sent (room + 1) s =
        (([0x20, (s.circuit c).gateway.setWidth 8, 0, 28] ++ body) :: more.1, more.2)) ∧
  ∀ (room : Nat) (n : Notice) (rest : List Notice) (s : State), s.notices = n :: rest →
    let more := placeNotices room { s with notices := rest, draws := s.draws + 1 }
    ∃ body, Spells body
        (stated ([BitVec.ofNat 8 n.kind.number.val, BitVec.ofNat 8 (s.event n.kind).count] ++
          bytesOfNat 2 (n.inst.getD 65535) ++ bytesOfNat 4 n.period.toNat) ++ unstated 20) ∧
      placeNotices (room + 1) s = (([0x03, s.straps.node.setWidth 8, 0, 28] ++ body) :: more.1, more.2)

/-- R186, R187: the lamp of a key by the first condition that holds, in the order of R186; a key of function NONE is OFF.
Each lamp is shown exactly where its condition holds and none before it does. -/
def Obligations.LampFollowsKey : Prop :=
  ∀ (k : KeyId) (s : State),
    let r := s.key k
    let panel := s.panel (keyPanel k)
    let station := fun (functions : List KeyFunction) (x : StationId) =>
      r.function ∈ functions ∧ ∃ n, r.target = some n ∧ n.val = x.val
    let wink : Prop := r.winkTimer ≠ none
    let waits : Prop := r.standing = .waiting
    let active : Prop :=
      (r.state = .pressed ∨ r.state = .momentaryOn ∨ r.state = .latched) ∧
        (r.function ∈ [.talkStation, .listenStation, .reply, .callStation] ∨
          (r.function = .ifb ∧ r.standing = .current) ∨
          (r.function = .talkParty ∧ ∃ (p : PartyId) (n : Fin 256), r.target = some n ∧ n.val = p.val ∧
            ∃ m, (s.party p).find panel.ownStation = some m ∧ m.talk = true))
    let called : Prop :=
      (r.function = .reply ∧ panel.replyList ≠ []) ∨
        ∃ e ∈ panel.replyList, station [.talkStation, .callStation] e.station
    let heard : Prop :=
      ∃ x src d e, station [.talkStation, .listenStation] x ∧ (s.station x).source = some src ∧
        (s.station panel.ownStation).dest = some d ∧ s.findEntry src d = some e ∧ e.state = .active ∧ e.grants ≠ []
    (r.function = .unassigned → s.deriveLamp k = .off) ∧
    (r.function ≠ .unassigned →
      (s.deriveLamp k = .wink ↔ wink) ∧
      (s.deriveLamp k = .flashBusy ↔ ¬wink ∧ waits) ∧
      (s.deriveLamp k = .on ↔ ¬wink ∧ ¬waits ∧ active) ∧
      (s.deriveLamp k = .flashCall ↔ ¬wink ∧ ¬waits ∧ ¬active ∧ called) ∧
      (s.deriveLamp k = .dim ↔ ¬wink ∧ ¬waits ∧ ¬active ∧ ¬called ∧ heard) ∧
      (s.deriveLamp k = .off ↔ ¬wink ∧ ¬waits ∧ ¬active ∧ ¬called ∧ ¬heard))

/-- R197: ALARM_N is active exactly while the part runs and some record is set, enabled and routed ALARM or BOTH; a raise of
such a kind activates it; it is released after a start; every STATUS_READ, refused or not, reports it in byte 6 of its reply. -/
def Obligations.AlarmFollowsRecords : Prop :=
  ∀ s : State,
    (s.alarmActive = true ↔ s.phase = .running ∧
      ∃ k, (s.event k).isSet = true ∧ (s.event k).enable = true ∧ (s.event k).route ≠ .notice) ∧
    (∀ k inst, s.phase = .running → (s.event k).enable = true → (s.event k).route ≠ .notice →
      (raise k inst s).alarmActive = true) ∧
    (∀ straps : Straps, Started straps s → s.alarmActive = false) ∧
    ∀ (tag : Byte) (kinds : BitVec 16), s.Ready tag (.statusRead kinds) →
      ∃ t body, exec (.statusRead tag kinds) s = .next t ∧ t.replies = s.replies ++ [{ tag := tag, body := body }] ∧
        byteAt body 6 = if s.alarmActive then 1 else 0

/-- R82, R83: factors rise strictly with the code, and combination has 128 as its neutral code, keeps the range, and is
commutative.
R87: every ramped factor ends at its target, lies between its ends, and moves by at most 331 from one sample to the
next.
R90 to R93: with no contribution every output is silence; each rounding is to the nearest integer, halves upward; the
saturated output lies in the sample range, and a value beyond the range becomes the end it passed.
Sample n of a destination before saturation: the sum of the contributions' samples, each times its factor as ramped from
the applied one to the target (R87, R90), rounded to sample scale (R91), times the output factor ramped alike, rounded
again (R92). -/
def Obligations.MixArithmetic : Prop :=
  ((∀ a b : Level, a < b → factor a < factor b) ∧ factor 128 = 4096 ∧ factor 159 = 15872 ∧
      ∀ a b : Level, combine a 128 = a ∧ combine a b = combine b a ∧
        ((combine a b).val : Int) =
          if a = 0 ∨ b = 0 then 0 else max 0 (min 159 ((a.val : Int) + b.val - 128))) ∧
  (∀ a t n : Nat, a ≤ 15872 → t ≤ 15872 → n < 48 →
      ramp a t 47 = (t : Int) ∧ (min a t : Nat) ≤ ramp a t n ∧ ramp a t n ≤ ((max a t : Nat) : Int) ∧
        (n + 1 < 48 → (ramp a t (n + 1) - ramp a t n).natAbs ≤ 331)) ∧
  ((∀ a t n, saturate (mixZ [] a t n) = 0) ∧
      (∀ x y : Int, roundShift x = y ↔ 4096 * y - 2048 ≤ x ∧ x < 4096 * y + 2048) ∧
      ∀ z : Int, -8388608 ≤ saturate z ∧ saturate z ≤ 8388607 ∧
        (-8388608 ≤ z → z ≤ 8388607 → saturate z = z) ∧ (8388607 < z → saturate z = 8388607) ∧
        (z < -8388608 → saturate z = -8388608)) ∧
  ∀ (before s : State) (d : DestId),
    let ramped := fun (a t n : Nat) => (a : Int) + Int.tdiv (((t : Int) - (a : Int)) * ((n : Int) + 1)) 48
    (s.destZ before d).length = 48 ∧
    ∀ n < 48,
      let sum :=
        ((s.contributions before d).map fun c => c.samples.getD n 0 * ramped c.applied c.target n).sum
      ∃ y z, (4096 * y - 2048 ≤ sum ∧ sum < 4096 * y + 2048) ∧
        (4096 * z - 2048 ≤ y * ramped (s.dest d).appliedOutput (factor (s.dest d).outputLevel) n ∧
          y * ramped (s.dest d).appliedOutput (factor (s.dest d).outputLevel) n < 4096 * z + 2048) ∧
        (s.destZ before d)[n]? = some z

/-- R176: the matched set of a tap is the numbers equal to its base outside its mask, ascending: 2^b of them for b bits
set. It does not change while the tap is enabled. -/
def Obligations.TapMatches : Prop :=
  (∀ r : Tap,
    (∀ n : Fin 256, n ∈ r.matched ↔
      ∀ i < 8, r.mask.getLsbD i = false → (BitVec.ofNat 8 n.val).getLsbD i = r.base.getLsbD i) ∧
    r.matched.Pairwise (· < ·) ∧ r.matched.length = 2 ^ bitCount r.mask) ∧
  (∀ r q : Tap, r.base = q.base → r.mask = q.mask → r.matched = q.matched) ∧
  ∀ (c : Instr) (s t : State) (x : TapId), exec c s = .next t → (s.tap x).enabled = true → (t.tap x).enabled = true →
    (t.tap x).matched = (s.tap x).matched

/-- R162: a tag is followed by its double with bits 14 and 13 of it folded into bit 0; no tag but 0 leads to 0, no two tags
lead to one, and four consecutive tags are distinct. -/
def Obligations.TagsRun : Prop :=
  ∀ a b : BitVec 15,
    (nextTag a).toNat = a.toNat * 2 % 32768 + (if a.getLsbD 14 = a.getLsbD 13 then 0 else 1) ∧
    (nextTag a = nextTag b → a = b) ∧
    (a ≠ 0 → nextTag a ≠ 0 ∧ [a, nextTag a, nextTag (nextTag a), nextTag (nextTag (nextTag a))].Nodup)
end

