-- ==== Sys2Proof/Laws/State.lean ====
section
/-! SUPPORT. Laws/State.lean: for each named update of State, what every field of the result is, true by rfl; and what a
record read after a write of a record gives. -/

namespace Sys2Proof.Machine

/-! ## Tables -/

theorem tget_tset_same {α : Type} {n : Nat} (t : Vector α n) (i : Fin n) (x : α) : tget (tset t i x) i = x := by
  simp [tget, tset]

theorem tget_tset_ne {α : Type} {n : Nat} (t : Vector α n) (i j : Fin n) (x : α) (h : j ≠ i) :
    tget (tset t i x) j = tget t j := by
  have : i.val ≠ j.val := fun e => h (Fin.ext e.symm)
  simp [tget, tset, this]

/-- A record read after one record was written. -/
theorem tget_tset {α : Type} {n : Nat} (t : Vector α n) (i j : Fin n) (x : α) :
    tget (tset t i x) j = if j = i then x else tget t j := by
  by_cases h : j = i
  · subst h; simp [tget_tset_same]
  · simp [tget_tset_ne _ _ _ _ h, h]

/-- Two tables whose records agree are one table. -/
theorem table_ext {α : Type} {n : Nat} {t u : Vector α n} (h : ∀ i, tget t i = tget u i) : t = u := by
  apply Vector.ext
  intro i hi
  exact h ⟨i, hi⟩

@[simp] theorem tget_replicate {α : Type} {n : Nat} (x : α) (i : Fin n) : tget (Vector.replicate n x) i = x := by
  simp [tget]

@[simp] theorem tget_map {α β : Type} {n : Nat} (t : Vector α n) (f : α → β) (i : Fin n) :
    tget (t.map f) i = f (tget t i) := by
  simp [tget]

/-! ## setPort -/

@[simp] theorem State.setPort_phase (s : State) (p : PortId) (r : Port) : (s.setPort p r).phase = s.phase := rfl
@[simp] theorem State.setPort_straps (s : State) (p : PortId) (r : Port) : (s.setPort p r).straps = s.straps := rfl
@[simp] theorem State.setPort_restart (s : State) (p : PortId) (r : Port) : (s.setPort p r).restart = s.restart := rfl
@[simp] theorem State.setPort_timing (s : State) (p : PortId) (r : Port) : (s.setPort p r).timing = s.timing := rfl
@[simp] theorem State.setPort_orders (s : State) (p : PortId) (r : Port) : (s.setPort p r).orders = s.orders := rfl
@[simp] theorem State.setPort_replies (s : State) (p : PortId) (r : Port) : (s.setPort p r).replies = s.replies := rfl
@[simp] theorem State.setPort_notices (s : State) (p : PortId) (r : Port) : (s.setPort p r).notices = s.notices := rfl
@[simp] theorem State.setPort_probeQueues (s : State) (p : PortId) (r : Port) : (s.setPort p r).probeQueues = s.probeQueues := rfl
@[simp] theorem State.setPort_lampPositions (s : State) (p : PortId) (r : Port) : (s.setPort p r).lampPositions = s.lampPositions := rfl
@[simp] theorem State.setPort_block (s : State) (p : PortId) (r : Port) : (s.setPort p r).block = s.block := rfl
@[simp] theorem State.setPort_lastUnit (s : State) (p : PortId) (r : Port) : (s.setPort p r).lastUnit = s.lastUnit := rfl
@[simp] theorem State.setPort_unitTaken (s : State) (p : PortId) (r : Port) : (s.setPort p r).unitTaken = s.unitTaken := rfl
@[simp] theorem State.setPort_sources (s : State) (p : PortId) (r : Port) : (s.setPort p r).sources = s.sources := rfl
@[simp] theorem State.setPort_dests (s : State) (p : PortId) (r : Port) : (s.setPort p r).dests = s.dests := rfl
@[simp] theorem State.setPort_stations (s : State) (p : PortId) (r : Port) : (s.setPort p r).stations = s.stations := rfl
@[simp] theorem State.setPort_entries (s : State) (p : PortId) (r : Port) : (s.setPort p r).entries = s.entries := rfl
@[simp] theorem State.setPort_nextSerial (s : State) (p : PortId) (r : Port) : (s.setPort p r).nextSerial = s.nextSerial := rfl
@[simp] theorem State.setPort_arbiters (s : State) (p : PortId) (r : Port) : (s.setPort p r).arbiters = s.arbiters := rfl
@[simp] theorem State.setPort_panels (s : State) (p : PortId) (r : Port) : (s.setPort p r).panels = s.panels := rfl
@[simp] theorem State.setPort_keys (s : State) (p : PortId) (r : Port) : (s.setPort p r).keys = s.keys := rfl
@[simp] theorem State.setPort_parties (s : State) (p : PortId) (r : Port) : (s.setPort p r).parties = s.parties := rfl
@[simp] theorem State.setPort_circuits (s : State) (p : PortId) (r : Port) : (s.setPort p r).circuits = s.circuits := rfl
@[simp] theorem State.setPort_taps (s : State) (p : PortId) (r : Port) : (s.setPort p r).taps = s.taps := rfl
@[simp] theorem State.setPort_cadences (s : State) (p : PortId) (r : Port) : (s.setPort p r).cadences = s.cadences := rfl
@[simp] theorem State.setPort_events (s : State) (p : PortId) (r : Port) : (s.setPort p r).events = s.events := rfl
@[simp] theorem State.setPort_sent (s : State) (p : PortId) (r : Port) : (s.setPort p r).sent = s.sent := rfl
@[simp] theorem State.setPort_lampDirty (s : State) (p : PortId) (r : Port) : (s.setPort p r).lampDirty = s.lampDirty := rfl
@[simp] theorem State.setPort_draws (s : State) (p : PortId) (r : Port) : (s.setPort p r).draws = s.draws := rfl
@[simp] theorem State.setPort_pending (s : State) (p : PortId) (r : Port) : (s.setPort p r).pending = s.pending := rfl

/-- The record read after a write. -/
theorem State.port_setPort (s : State) (p : PortId) (r : Port) (j : PortId) :
    (s.setPort p r).port j = if j = p then r else s.port j := tget_tset _ _ _ _

@[simp] theorem State.port_setPort_same (s : State) (p : PortId) (r : Port) : (s.setPort p r).port p = r :=
  tget_tset_same _ _ _

@[simp] theorem State.source_setPort (s : State) (p : PortId) (r : Port) (j : SourceId) : (s.setPort p r).source j = s.source j := rfl
@[simp] theorem State.dest_setPort (s : State) (p : PortId) (r : Port) (j : DestId) : (s.setPort p r).dest j = s.dest j := rfl
@[simp] theorem State.station_setPort (s : State) (p : PortId) (r : Port) (j : StationId) : (s.setPort p r).station j = s.station j := rfl
@[simp] theorem State.entriesOf_setPort (s : State) (p : PortId) (r : Port) (j : DestId) : (s.setPort p r).entriesOf j = s.entriesOf j := rfl
@[simp] theorem State.arbiter_setPort (s : State) (p : PortId) (r : Port) (j : DestId) : (s.setPort p r).arbiter j = s.arbiter j := rfl
@[simp] theorem State.panel_setPort (s : State) (p : PortId) (r : Port) (j : PanelId) : (s.setPort p r).panel j = s.panel j := rfl
@[simp] theorem State.key_setPort (s : State) (p : PortId) (r : Port) (j : KeyId) : (s.setPort p r).key j = s.key j := rfl
@[simp] theorem State.party_setPort (s : State) (p : PortId) (r : Port) (j : PartyId) : (s.setPort p r).party j = s.party j := rfl
@[simp] theorem State.circuit_setPort (s : State) (p : PortId) (r : Port) (j : CircuitId) : (s.setPort p r).circuit j = s.circuit j := rfl
@[simp] theorem State.tap_setPort (s : State) (p : PortId) (r : Port) (j : TapId) : (s.setPort p r).tap j = s.tap j := rfl
@[simp] theorem State.cadence_setPort (s : State) (p : PortId) (r : Port) (j : CadenceId) : (s.setPort p r).cadence j = s.cadence j := rfl
@[simp] theorem State.probeQueue_setPort (s : State) (p : PortId) (r : Port) (j : PortId) : (s.setPort p r).probeQueue j = s.probeQueue j := rfl
@[simp] theorem State.lampPosition_setPort (s : State) (p : PortId) (r : Port) (j : PortId) : (s.setPort p r).lampPosition j = s.lampPosition j := rfl
@[simp] theorem State.event_setPort (s : State) (p : PortId) (r : Port) (j : EventKind) : (s.setPort p r).event j = s.event j := rfl

/-! ## setSource -/

@[simp] theorem State.setSource_phase (s : State) (n : SourceId) (r : Source) : (s.setSource n r).phase = s.phase := rfl
@[simp] theorem State.setSource_straps (s : State) (n : SourceId) (r : Source) : (s.setSource n r).straps = s.straps := rfl
@[simp] theorem State.setSource_restart (s : State) (n : SourceId) (r : Source) : (s.setSource n r).restart = s.restart := rfl
@[simp] theorem State.setSource_timing (s : State) (n : SourceId) (r : Source) : (s.setSource n r).timing = s.timing := rfl
@[simp] theorem State.setSource_ports (s : State) (n : SourceId) (r : Source) : (s.setSource n r).ports = s.ports := rfl
@[simp] theorem State.setSource_orders (s : State) (n : SourceId) (r : Source) : (s.setSource n r).orders = s.orders := rfl
@[simp] theorem State.setSource_replies (s : State) (n : SourceId) (r : Source) : (s.setSource n r).replies = s.replies := rfl
@[simp] theorem State.setSource_notices (s : State) (n : SourceId) (r : Source) : (s.setSource n r).notices = s.notices := rfl
@[simp] theorem State.setSource_probeQueues (s : State) (n : SourceId) (r : Source) : (s.setSource n r).probeQueues = s.probeQueues := rfl
@[simp] theorem State.setSource_lampPositions (s : State) (n : SourceId) (r : Source) : (s.setSource n r).lampPositions = s.lampPositions := rfl
@[simp] theorem State.setSource_block (s : State) (n : SourceId) (r : Source) : (s.setSource n r).block = s.block := rfl
@[simp] theorem State.setSource_lastUnit (s : State) (n : SourceId) (r : Source) : (s.setSource n r).lastUnit = s.lastUnit := rfl
@[simp] theorem State.setSource_unitTaken (s : State) (n : SourceId) (r : Source) : (s.setSource n r).unitTaken = s.unitTaken := rfl
@[simp] theorem State.setSource_dests (s : State) (n : SourceId) (r : Source) : (s.setSource n r).dests = s.dests := rfl
@[simp] theorem State.setSource_stations (s : State) (n : SourceId) (r : Source) : (s.setSource n r).stations = s.stations := rfl
@[simp] theorem State.setSource_entries (s : State) (n : SourceId) (r : Source) : (s.setSource n r).entries = s.entries := rfl
@[simp] theorem State.setSource_nextSerial (s : State) (n : SourceId) (r : Source) : (s.setSource n r).nextSerial = s.nextSerial := rfl
@[simp] theorem State.setSource_arbiters (s : State) (n : SourceId) (r : Source) : (s.setSource n r).arbiters = s.arbiters := rfl
@[simp] theorem State.setSource_panels (s : State) (n : SourceId) (r : Source) : (s.setSource n r).panels = s.panels := rfl
@[simp] theorem State.setSource_keys (s : State) (n : SourceId) (r : Source) : (s.setSource n r).keys = s.keys := rfl
@[simp] theorem State.setSource_parties (s : State) (n : SourceId) (r : Source) : (s.setSource n r).parties = s.parties := rfl
@[simp] theorem State.setSource_circuits (s : State) (n : SourceId) (r : Source) : (s.setSource n r).circuits = s.circuits := rfl
@[simp] theorem State.setSource_taps (s : State) (n : SourceId) (r : Source) : (s.setSource n r).taps = s.taps := rfl
@[simp] theorem State.setSource_cadences (s : State) (n : SourceId) (r : Source) : (s.setSource n r).cadences = s.cadences := rfl
@[simp] theorem State.setSource_events (s : State) (n : SourceId) (r : Source) : (s.setSource n r).events = s.events := rfl
@[simp] theorem State.setSource_sent (s : State) (n : SourceId) (r : Source) : (s.setSource n r).sent = s.sent := rfl
@[simp] theorem State.setSource_lampDirty (s : State) (n : SourceId) (r : Source) : (s.setSource n r).lampDirty = s.lampDirty := rfl
@[simp] theorem State.setSource_draws (s : State) (n : SourceId) (r : Source) : (s.setSource n r).draws = s.draws := rfl
@[simp] theorem State.setSource_pending (s : State) (n : SourceId) (r : Source) : (s.setSource n r).pending = s.pending := rfl

/-- The record read after a write. -/
theorem State.source_setSource (s : State) (n : SourceId) (r : Source) (j : SourceId) :
    (s.setSource n r).source j = if j = n then r else s.source j := tget_tset _ _ _ _

@[simp] theorem State.source_setSource_same (s : State) (n : SourceId) (r : Source) : (s.setSource n r).source n = r :=
  tget_tset_same _ _ _

@[simp] theorem State.port_setSource (s : State) (n : SourceId) (r : Source) (j : PortId) : (s.setSource n r).port j = s.port j := rfl
@[simp] theorem State.dest_setSource (s : State) (n : SourceId) (r : Source) (j : DestId) : (s.setSource n r).dest j = s.dest j := rfl
@[simp] theorem State.station_setSource (s : State) (n : SourceId) (r : Source) (j : StationId) : (s.setSource n r).station j = s.station j := rfl
@[simp] theorem State.entriesOf_setSource (s : State) (n : SourceId) (r : Source) (j : DestId) : (s.setSource n r).entriesOf j = s.entriesOf j := rfl
@[simp] theorem State.arbiter_setSource (s : State) (n : SourceId) (r : Source) (j : DestId) : (s.setSource n r).arbiter j = s.arbiter j := rfl
@[simp] theorem State.panel_setSource (s : State) (n : SourceId) (r : Source) (j : PanelId) : (s.setSource n r).panel j = s.panel j := rfl
@[simp] theorem State.key_setSource (s : State) (n : SourceId) (r : Source) (j : KeyId) : (s.setSource n r).key j = s.key j := rfl
@[simp] theorem State.party_setSource (s : State) (n : SourceId) (r : Source) (j : PartyId) : (s.setSource n r).party j = s.party j := rfl
@[simp] theorem State.circuit_setSource (s : State) (n : SourceId) (r : Source) (j : CircuitId) : (s.setSource n r).circuit j = s.circuit j := rfl
@[simp] theorem State.tap_setSource (s : State) (n : SourceId) (r : Source) (j : TapId) : (s.setSource n r).tap j = s.tap j := rfl
@[simp] theorem State.cadence_setSource (s : State) (n : SourceId) (r : Source) (j : CadenceId) : (s.setSource n r).cadence j = s.cadence j := rfl
@[simp] theorem State.probeQueue_setSource (s : State) (n : SourceId) (r : Source) (j : PortId) : (s.setSource n r).probeQueue j = s.probeQueue j := rfl
@[simp] theorem State.lampPosition_setSource (s : State) (n : SourceId) (r : Source) (j : PortId) : (s.setSource n r).lampPosition j = s.lampPosition j := rfl
@[simp] theorem State.event_setSource (s : State) (n : SourceId) (r : Source) (j : EventKind) : (s.setSource n r).event j = s.event j := rfl

/-! ## setDest -/

@[simp] theorem State.setDest_phase (s : State) (d : DestId) (r : Dest) : (s.setDest d r).phase = s.phase := rfl
@[simp] theorem State.setDest_straps (s : State) (d : DestId) (r : Dest) : (s.setDest d r).straps = s.straps := rfl
@[simp] theorem State.setDest_restart (s : State) (d : DestId) (r : Dest) : (s.setDest d r).restart = s.restart := rfl
@[simp] theorem State.setDest_timing (s : State) (d : DestId) (r : Dest) : (s.setDest d r).timing = s.timing := rfl
@[simp] theorem State.setDest_ports (s : State) (d : DestId) (r : Dest) : (s.setDest d r).ports = s.ports := rfl
@[simp] theorem State.setDest_orders (s : State) (d : DestId) (r : Dest) : (s.setDest d r).orders = s.orders := rfl
@[simp] theorem State.setDest_replies (s : State) (d : DestId) (r : Dest) : (s.setDest d r).replies = s.replies := rfl
@[simp] theorem State.setDest_notices (s : State) (d : DestId) (r : Dest) : (s.setDest d r).notices = s.notices := rfl
@[simp] theorem State.setDest_probeQueues (s : State) (d : DestId) (r : Dest) : (s.setDest d r).probeQueues = s.probeQueues := rfl
@[simp] theorem State.setDest_lampPositions (s : State) (d : DestId) (r : Dest) : (s.setDest d r).lampPositions = s.lampPositions := rfl
@[simp] theorem State.setDest_block (s : State) (d : DestId) (r : Dest) : (s.setDest d r).block = s.block := rfl
@[simp] theorem State.setDest_lastUnit (s : State) (d : DestId) (r : Dest) : (s.setDest d r).lastUnit = s.lastUnit := rfl
@[simp] theorem State.setDest_unitTaken (s : State) (d : DestId) (r : Dest) : (s.setDest d r).unitTaken = s.unitTaken := rfl
@[simp] theorem State.setDest_sources (s : State) (d : DestId) (r : Dest) : (s.setDest d r).sources = s.sources := rfl
@[simp] theorem State.setDest_stations (s : State) (d : DestId) (r : Dest) : (s.setDest d r).stations = s.stations := rfl
@[simp] theorem State.setDest_entries (s : State) (d : DestId) (r : Dest) : (s.setDest d r).entries = s.entries := rfl
@[simp] theorem State.setDest_nextSerial (s : State) (d : DestId) (r : Dest) : (s.setDest d r).nextSerial = s.nextSerial := rfl
@[simp] theorem State.setDest_arbiters (s : State) (d : DestId) (r : Dest) : (s.setDest d r).arbiters = s.arbiters := rfl
@[simp] theorem State.setDest_panels (s : State) (d : DestId) (r : Dest) : (s.setDest d r).panels = s.panels := rfl
@[simp] theorem State.setDest_keys (s : State) (d : DestId) (r : Dest) : (s.setDest d r).keys = s.keys := rfl
@[simp] theorem State.setDest_parties (s : State) (d : DestId) (r : Dest) : (s.setDest d r).parties = s.parties := rfl
@[simp] theorem State.setDest_circuits (s : State) (d : DestId) (r : Dest) : (s.setDest d r).circuits = s.circuits := rfl
@[simp] theorem State.setDest_taps (s : State) (d : DestId) (r : Dest) : (s.setDest d r).taps = s.taps := rfl
@[simp] theorem State.setDest_cadences (s : State) (d : DestId) (r : Dest) : (s.setDest d r).cadences = s.cadences := rfl
@[simp] theorem State.setDest_events (s : State) (d : DestId) (r : Dest) : (s.setDest d r).events = s.events := rfl
@[simp] theorem State.setDest_sent (s : State) (d : DestId) (r : Dest) : (s.setDest d r).sent = s.sent := rfl
@[simp] theorem State.setDest_lampDirty (s : State) (d : DestId) (r : Dest) : (s.setDest d r).lampDirty = s.lampDirty := rfl
@[simp] theorem State.setDest_draws (s : State) (d : DestId) (r : Dest) : (s.setDest d r).draws = s.draws := rfl
@[simp] theorem State.setDest_pending (s : State) (d : DestId) (r : Dest) : (s.setDest d r).pending = s.pending := rfl

/-- The record read after a write. -/
theorem State.dest_setDest (s : State) (d : DestId) (r : Dest) (j : DestId) :
    (s.setDest d r).dest j = if j = d then r else s.dest j := tget_tset _ _ _ _

@[simp] theorem State.dest_setDest_same (s : State) (d : DestId) (r : Dest) : (s.setDest d r).dest d = r :=
  tget_tset_same _ _ _

@[simp] theorem State.port_setDest (s : State) (d : DestId) (r : Dest) (j : PortId) : (s.setDest d r).port j = s.port j := rfl
@[simp] theorem State.source_setDest (s : State) (d : DestId) (r : Dest) (j : SourceId) : (s.setDest d r).source j = s.source j := rfl
@[simp] theorem State.station_setDest (s : State) (d : DestId) (r : Dest) (j : StationId) : (s.setDest d r).station j = s.station j := rfl
@[simp] theorem State.entriesOf_setDest (s : State) (d : DestId) (r : Dest) (j : DestId) : (s.setDest d r).entriesOf j = s.entriesOf j := rfl
@[simp] theorem State.arbiter_setDest (s : State) (d : DestId) (r : Dest) (j : DestId) : (s.setDest d r).arbiter j = s.arbiter j := rfl
@[simp] theorem State.panel_setDest (s : State) (d : DestId) (r : Dest) (j : PanelId) : (s.setDest d r).panel j = s.panel j := rfl
@[simp] theorem State.key_setDest (s : State) (d : DestId) (r : Dest) (j : KeyId) : (s.setDest d r).key j = s.key j := rfl
@[simp] theorem State.party_setDest (s : State) (d : DestId) (r : Dest) (j : PartyId) : (s.setDest d r).party j = s.party j := rfl
@[simp] theorem State.circuit_setDest (s : State) (d : DestId) (r : Dest) (j : CircuitId) : (s.setDest d r).circuit j = s.circuit j := rfl
@[simp] theorem State.tap_setDest (s : State) (d : DestId) (r : Dest) (j : TapId) : (s.setDest d r).tap j = s.tap j := rfl
@[simp] theorem State.cadence_setDest (s : State) (d : DestId) (r : Dest) (j : CadenceId) : (s.setDest d r).cadence j = s.cadence j := rfl
@[simp] theorem State.probeQueue_setDest (s : State) (d : DestId) (r : Dest) (j : PortId) : (s.setDest d r).probeQueue j = s.probeQueue j := rfl
@[simp] theorem State.lampPosition_setDest (s : State) (d : DestId) (r : Dest) (j : PortId) : (s.setDest d r).lampPosition j = s.lampPosition j := rfl
@[simp] theorem State.event_setDest (s : State) (d : DestId) (r : Dest) (j : EventKind) : (s.setDest d r).event j = s.event j := rfl

/-! ## setStation -/

@[simp] theorem State.setStation_phase (s : State) (t : StationId) (r : Station) : (s.setStation t r).phase = s.phase := rfl
@[simp] theorem State.setStation_straps (s : State) (t : StationId) (r : Station) : (s.setStation t r).straps = s.straps := rfl
@[simp] theorem State.setStation_restart (s : State) (t : StationId) (r : Station) : (s.setStation t r).restart = s.restart := rfl
@[simp] theorem State.setStation_timing (s : State) (t : StationId) (r : Station) : (s.setStation t r).timing = s.timing := rfl
@[simp] theorem State.setStation_ports (s : State) (t : StationId) (r : Station) : (s.setStation t r).ports = s.ports := rfl
@[simp] theorem State.setStation_orders (s : State) (t : StationId) (r : Station) : (s.setStation t r).orders = s.orders := rfl
@[simp] theorem State.setStation_replies (s : State) (t : StationId) (r : Station) : (s.setStation t r).replies = s.replies := rfl
@[simp] theorem State.setStation_notices (s : State) (t : StationId) (r : Station) : (s.setStation t r).notices = s.notices := rfl
@[simp] theorem State.setStation_probeQueues (s : State) (t : StationId) (r : Station) : (s.setStation t r).probeQueues = s.probeQueues := rfl
@[simp] theorem State.setStation_lampPositions (s : State) (t : StationId) (r : Station) : (s.setStation t r).lampPositions = s.lampPositions := rfl
@[simp] theorem State.setStation_block (s : State) (t : StationId) (r : Station) : (s.setStation t r).block = s.block := rfl
@[simp] theorem State.setStation_lastUnit (s : State) (t : StationId) (r : Station) : (s.setStation t r).lastUnit = s.lastUnit := rfl
@[simp] theorem State.setStation_unitTaken (s : State) (t : StationId) (r : Station) : (s.setStation t r).unitTaken = s.unitTaken := rfl
@[simp] theorem State.setStation_sources (s : State) (t : StationId) (r : Station) : (s.setStation t r).sources = s.sources := rfl
@[simp] theorem State.setStation_dests (s : State) (t : StationId) (r : Station) : (s.setStation t r).dests = s.dests := rfl
@[simp] theorem State.setStation_entries (s : State) (t : StationId) (r : Station) : (s.setStation t r).entries = s.entries := rfl
@[simp] theorem State.setStation_nextSerial (s : State) (t : StationId) (r : Station) : (s.setStation t r).nextSerial = s.nextSerial := rfl
@[simp] theorem State.setStation_arbiters (s : State) (t : StationId) (r : Station) : (s.setStation t r).arbiters = s.arbiters := rfl
@[simp] theorem State.setStation_panels (s : State) (t : StationId) (r : Station) : (s.setStation t r).panels = s.panels := rfl
@[simp] theorem State.setStation_keys (s : State) (t : StationId) (r : Station) : (s.setStation t r).keys = s.keys := rfl
@[simp] theorem State.setStation_parties (s : State) (t : StationId) (r : Station) : (s.setStation t r).parties = s.parties := rfl
@[simp] theorem State.setStation_circuits (s : State) (t : StationId) (r : Station) : (s.setStation t r).circuits = s.circuits := rfl
@[simp] theorem State.setStation_taps (s : State) (t : StationId) (r : Station) : (s.setStation t r).taps = s.taps := rfl
@[simp] theorem State.setStation_cadences (s : State) (t : StationId) (r : Station) : (s.setStation t r).cadences = s.cadences := rfl
@[simp] theorem State.setStation_events (s : State) (t : StationId) (r : Station) : (s.setStation t r).events = s.events := rfl
@[simp] theorem State.setStation_sent (s : State) (t : StationId) (r : Station) : (s.setStation t r).sent = s.sent := rfl
@[simp] theorem State.setStation_lampDirty (s : State) (t : StationId) (r : Station) : (s.setStation t r).lampDirty = s.lampDirty := rfl
@[simp] theorem State.setStation_draws (s : State) (t : StationId) (r : Station) : (s.setStation t r).draws = s.draws := rfl
@[simp] theorem State.setStation_pending (s : State) (t : StationId) (r : Station) : (s.setStation t r).pending = s.pending := rfl

/-- The record read after a write. -/
theorem State.station_setStation (s : State) (t : StationId) (r : Station) (j : StationId) :
    (s.setStation t r).station j = if j = t then r else s.station j := tget_tset _ _ _ _

@[simp] theorem State.station_setStation_same (s : State) (t : StationId) (r : Station) : (s.setStation t r).station t = r :=
  tget_tset_same _ _ _

@[simp] theorem State.port_setStation (s : State) (t : StationId) (r : Station) (j : PortId) : (s.setStation t r).port j = s.port j := rfl
@[simp] theorem State.source_setStation (s : State) (t : StationId) (r : Station) (j : SourceId) : (s.setStation t r).source j = s.source j := rfl
@[simp] theorem State.dest_setStation (s : State) (t : StationId) (r : Station) (j : DestId) : (s.setStation t r).dest j = s.dest j := rfl
@[simp] theorem State.entriesOf_setStation (s : State) (t : StationId) (r : Station) (j : DestId) : (s.setStation t r).entriesOf j = s.entriesOf j := rfl
@[simp] theorem State.arbiter_setStation (s : State) (t : StationId) (r : Station) (j : DestId) : (s.setStation t r).arbiter j = s.arbiter j := rfl
@[simp] theorem State.panel_setStation (s : State) (t : StationId) (r : Station) (j : PanelId) : (s.setStation t r).panel j = s.panel j := rfl
@[simp] theorem State.key_setStation (s : State) (t : StationId) (r : Station) (j : KeyId) : (s.setStation t r).key j = s.key j := rfl
@[simp] theorem State.party_setStation (s : State) (t : StationId) (r : Station) (j : PartyId) : (s.setStation t r).party j = s.party j := rfl
@[simp] theorem State.circuit_setStation (s : State) (t : StationId) (r : Station) (j : CircuitId) : (s.setStation t r).circuit j = s.circuit j := rfl
@[simp] theorem State.tap_setStation (s : State) (t : StationId) (r : Station) (j : TapId) : (s.setStation t r).tap j = s.tap j := rfl
@[simp] theorem State.cadence_setStation (s : State) (t : StationId) (r : Station) (j : CadenceId) : (s.setStation t r).cadence j = s.cadence j := rfl
@[simp] theorem State.probeQueue_setStation (s : State) (t : StationId) (r : Station) (j : PortId) : (s.setStation t r).probeQueue j = s.probeQueue j := rfl
@[simp] theorem State.lampPosition_setStation (s : State) (t : StationId) (r : Station) (j : PortId) : (s.setStation t r).lampPosition j = s.lampPosition j := rfl
@[simp] theorem State.event_setStation (s : State) (t : StationId) (r : Station) (j : EventKind) : (s.setStation t r).event j = s.event j := rfl

/-! ## setEntries -/

@[simp] theorem State.setEntries_phase (s : State) (d : DestId) (l : List Entry) : (s.setEntries d l).phase = s.phase := rfl
@[simp] theorem State.setEntries_straps (s : State) (d : DestId) (l : List Entry) : (s.setEntries d l).straps = s.straps := rfl
@[simp] theorem State.setEntries_restart (s : State) (d : DestId) (l : List Entry) : (s.setEntries d l).restart = s.restart := rfl
@[simp] theorem State.setEntries_timing (s : State) (d : DestId) (l : List Entry) : (s.setEntries d l).timing = s.timing := rfl
@[simp] theorem State.setEntries_ports (s : State) (d : DestId) (l : List Entry) : (s.setEntries d l).ports = s.ports := rfl
@[simp] theorem State.setEntries_orders (s : State) (d : DestId) (l : List Entry) : (s.setEntries d l).orders = s.orders := rfl
@[simp] theorem State.setEntries_replies (s : State) (d : DestId) (l : List Entry) : (s.setEntries d l).replies = s.replies := rfl
@[simp] theorem State.setEntries_notices (s : State) (d : DestId) (l : List Entry) : (s.setEntries d l).notices = s.notices := rfl
@[simp] theorem State.setEntries_probeQueues (s : State) (d : DestId) (l : List Entry) : (s.setEntries d l).probeQueues = s.probeQueues := rfl
@[simp] theorem State.setEntries_lampPositions (s : State) (d : DestId) (l : List Entry) : (s.setEntries d l).lampPositions = s.lampPositions := rfl
@[simp] theorem State.setEntries_block (s : State) (d : DestId) (l : List Entry) : (s.setEntries d l).block = s.block := rfl
@[simp] theorem State.setEntries_lastUnit (s : State) (d : DestId) (l : List Entry) : (s.setEntries d l).lastUnit = s.lastUnit := rfl
@[simp] theorem State.setEntries_unitTaken (s : State) (d : DestId) (l : List Entry) : (s.setEntries d l).unitTaken = s.unitTaken := rfl
@[simp] theorem State.setEntries_sources (s : State) (d : DestId) (l : List Entry) : (s.setEntries d l).sources = s.sources := rfl
@[simp] theorem State.setEntries_dests (s : State) (d : DestId) (l : List Entry) : (s.setEntries d l).dests = s.dests := rfl
@[simp] theorem State.setEntries_stations (s : State) (d : DestId) (l : List Entry) : (s.setEntries d l).stations = s.stations := rfl
@[simp] theorem State.setEntries_nextSerial (s : State) (d : DestId) (l : List Entry) : (s.setEntries d l).nextSerial = s.nextSerial := rfl
@[simp] theorem State.setEntries_arbiters (s : State) (d : DestId) (l : List Entry) : (s.setEntries d l).arbiters = s.arbiters := rfl
@[simp] theorem State.setEntries_panels (s : State) (d : DestId) (l : List Entry) : (s.setEntries d l).panels = s.panels := rfl
@[simp] theorem State.setEntries_keys (s : State) (d : DestId) (l : List Entry) : (s.setEntries d l).keys = s.keys := rfl
@[simp] theorem State.setEntries_parties (s : State) (d : DestId) (l : List Entry) : (s.setEntries d l).parties = s.parties := rfl
@[simp] theorem State.setEntries_circuits (s : State) (d : DestId) (l : List Entry) : (s.setEntries d l).circuits = s.circuits := rfl
@[simp] theorem State.setEntries_taps (s : State) (d : DestId) (l : List Entry) : (s.setEntries d l).taps = s.taps := rfl
@[simp] theorem State.setEntries_cadences (s : State) (d : DestId) (l : List Entry) : (s.setEntries d l).cadences = s.cadences := rfl
@[simp] theorem State.setEntries_events (s : State) (d : DestId) (l : List Entry) : (s.setEntries d l).events = s.events := rfl
@[simp] theorem State.setEntries_sent (s : State) (d : DestId) (l : List Entry) : (s.setEntries d l).sent = s.sent := rfl
@[simp] theorem State.setEntries_lampDirty (s : State) (d : DestId) (l : List Entry) : (s.setEntries d l).lampDirty = s.lampDirty := rfl
@[simp] theorem State.setEntries_draws (s : State) (d : DestId) (l : List Entry) : (s.setEntries d l).draws = s.draws := rfl
@[simp] theorem State.setEntries_pending (s : State) (d : DestId) (l : List Entry) : (s.setEntries d l).pending = s.pending := rfl

/-- The record read after a write. -/
theorem State.entriesOf_setEntries (s : State) (d : DestId) (l : List Entry) (j : DestId) :
    (s.setEntries d l).entriesOf j = if j = d then l else s.entriesOf j := tget_tset _ _ _ _

@[simp] theorem State.entriesOf_setEntries_same (s : State) (d : DestId) (l : List Entry) : (s.setEntries d l).entriesOf d = l :=
  tget_tset_same _ _ _

@[simp] theorem State.port_setEntries (s : State) (d : DestId) (l : List Entry) (j : PortId) : (s.setEntries d l).port j = s.port j := rfl
@[simp] theorem State.source_setEntries (s : State) (d : DestId) (l : List Entry) (j : SourceId) : (s.setEntries d l).source j = s.source j := rfl
@[simp] theorem State.dest_setEntries (s : State) (d : DestId) (l : List Entry) (j : DestId) : (s.setEntries d l).dest j = s.dest j := rfl
@[simp] theorem State.station_setEntries (s : State) (d : DestId) (l : List Entry) (j : StationId) : (s.setEntries d l).station j = s.station j := rfl
@[simp] theorem State.arbiter_setEntries (s : State) (d : DestId) (l : List Entry) (j : DestId) : (s.setEntries d l).arbiter j = s.arbiter j := rfl
@[simp] theorem State.panel_setEntries (s : State) (d : DestId) (l : List Entry) (j : PanelId) : (s.setEntries d l).panel j = s.panel j := rfl
@[simp] theorem State.key_setEntries (s : State) (d : DestId) (l : List Entry) (j : KeyId) : (s.setEntries d l).key j = s.key j := rfl
@[simp] theorem State.party_setEntries (s : State) (d : DestId) (l : List Entry) (j : PartyId) : (s.setEntries d l).party j = s.party j := rfl
@[simp] theorem State.circuit_setEntries (s : State) (d : DestId) (l : List Entry) (j : CircuitId) : (s.setEntries d l).circuit j = s.circuit j := rfl
@[simp] theorem State.tap_setEntries (s : State) (d : DestId) (l : List Entry) (j : TapId) : (s.setEntries d l).tap j = s.tap j := rfl
@[simp] theorem State.cadence_setEntries (s : State) (d : DestId) (l : List Entry) (j : CadenceId) : (s.setEntries d l).cadence j = s.cadence j := rfl
@[simp] theorem State.probeQueue_setEntries (s : State) (d : DestId) (l : List Entry) (j : PortId) : (s.setEntries d l).probeQueue j = s.probeQueue j := rfl
@[simp] theorem State.lampPosition_setEntries (s : State) (d : DestId) (l : List Entry) (j : PortId) : (s.setEntries d l).lampPosition j = s.lampPosition j := rfl
@[simp] theorem State.event_setEntries (s : State) (d : DestId) (l : List Entry) (j : EventKind) : (s.setEntries d l).event j = s.event j := rfl

/-! ## setArbiter -/

@[simp] theorem State.setArbiter_phase (s : State) (d : DestId) (a : Arbiter) : (s.setArbiter d a).phase = s.phase := rfl
@[simp] theorem State.setArbiter_straps (s : State) (d : DestId) (a : Arbiter) : (s.setArbiter d a).straps = s.straps := rfl
@[simp] theorem State.setArbiter_restart (s : State) (d : DestId) (a : Arbiter) : (s.setArbiter d a).restart = s.restart := rfl
@[simp] theorem State.setArbiter_timing (s : State) (d : DestId) (a : Arbiter) : (s.setArbiter d a).timing = s.timing := rfl
@[simp] theorem State.setArbiter_ports (s : State) (d : DestId) (a : Arbiter) : (s.setArbiter d a).ports = s.ports := rfl
@[simp] theorem State.setArbiter_orders (s : State) (d : DestId) (a : Arbiter) : (s.setArbiter d a).orders = s.orders := rfl
@[simp] theorem State.setArbiter_replies (s : State) (d : DestId) (a : Arbiter) : (s.setArbiter d a).replies = s.replies := rfl
@[simp] theorem State.setArbiter_notices (s : State) (d : DestId) (a : Arbiter) : (s.setArbiter d a).notices = s.notices := rfl
@[simp] theorem State.setArbiter_probeQueues (s : State) (d : DestId) (a : Arbiter) : (s.setArbiter d a).probeQueues = s.probeQueues := rfl
@[simp] theorem State.setArbiter_lampPositions (s : State) (d : DestId) (a : Arbiter) : (s.setArbiter d a).lampPositions = s.lampPositions := rfl
@[simp] theorem State.setArbiter_block (s : State) (d : DestId) (a : Arbiter) : (s.setArbiter d a).block = s.block := rfl
@[simp] theorem State.setArbiter_lastUnit (s : State) (d : DestId) (a : Arbiter) : (s.setArbiter d a).lastUnit = s.lastUnit := rfl
@[simp] theorem State.setArbiter_unitTaken (s : State) (d : DestId) (a : Arbiter) : (s.setArbiter d a).unitTaken = s.unitTaken := rfl
@[simp] theorem State.setArbiter_sources (s : State) (d : DestId) (a : Arbiter) : (s.setArbiter d a).sources = s.sources := rfl
@[simp] theorem State.setArbiter_dests (s : State) (d : DestId) (a : Arbiter) : (s.setArbiter d a).dests = s.dests := rfl
@[simp] theorem State.setArbiter_stations (s : State) (d : DestId) (a : Arbiter) : (s.setArbiter d a).stations = s.stations := rfl
@[simp] theorem State.setArbiter_entries (s : State) (d : DestId) (a : Arbiter) : (s.setArbiter d a).entries = s.entries := rfl
@[simp] theorem State.setArbiter_nextSerial (s : State) (d : DestId) (a : Arbiter) : (s.setArbiter d a).nextSerial = s.nextSerial := rfl
@[simp] theorem State.setArbiter_panels (s : State) (d : DestId) (a : Arbiter) : (s.setArbiter d a).panels = s.panels := rfl
@[simp] theorem State.setArbiter_keys (s : State) (d : DestId) (a : Arbiter) : (s.setArbiter d a).keys = s.keys := rfl
@[simp] theorem State.setArbiter_parties (s : State) (d : DestId) (a : Arbiter) : (s.setArbiter d a).parties = s.parties := rfl
@[simp] theorem State.setArbiter_circuits (s : State) (d : DestId) (a : Arbiter) : (s.setArbiter d a).circuits = s.circuits := rfl
@[simp] theorem State.setArbiter_taps (s : State) (d : DestId) (a : Arbiter) : (s.setArbiter d a).taps = s.taps := rfl
@[simp] theorem State.setArbiter_cadences (s : State) (d : DestId) (a : Arbiter) : (s.setArbiter d a).cadences = s.cadences := rfl
@[simp] theorem State.setArbiter_events (s : State) (d : DestId) (a : Arbiter) : (s.setArbiter d a).events = s.events := rfl
@[simp] theorem State.setArbiter_sent (s : State) (d : DestId) (a : Arbiter) : (s.setArbiter d a).sent = s.sent := rfl
@[simp] theorem State.setArbiter_lampDirty (s : State) (d : DestId) (a : Arbiter) : (s.setArbiter d a).lampDirty = s.lampDirty := rfl
@[simp] theorem State.setArbiter_draws (s : State) (d : DestId) (a : Arbiter) : (s.setArbiter d a).draws = s.draws := rfl
@[simp] theorem State.setArbiter_pending (s : State) (d : DestId) (a : Arbiter) : (s.setArbiter d a).pending = s.pending := rfl

/-- The record read after a write. -/
theorem State.arbiter_setArbiter (s : State) (d : DestId) (a : Arbiter) (j : DestId) :
    (s.setArbiter d a).arbiter j = if j = d then a else s.arbiter j := tget_tset _ _ _ _

@[simp] theorem State.arbiter_setArbiter_same (s : State) (d : DestId) (a : Arbiter) : (s.setArbiter d a).arbiter d = a :=
  tget_tset_same _ _ _

@[simp] theorem State.port_setArbiter (s : State) (d : DestId) (a : Arbiter) (j : PortId) : (s.setArbiter d a).port j = s.port j := rfl
@[simp] theorem State.source_setArbiter (s : State) (d : DestId) (a : Arbiter) (j : SourceId) : (s.setArbiter d a).source j = s.source j := rfl
@[simp] theorem State.dest_setArbiter (s : State) (d : DestId) (a : Arbiter) (j : DestId) : (s.setArbiter d a).dest j = s.dest j := rfl
@[simp] theorem State.station_setArbiter (s : State) (d : DestId) (a : Arbiter) (j : StationId) : (s.setArbiter d a).station j = s.station j := rfl
@[simp] theorem State.entriesOf_setArbiter (s : State) (d : DestId) (a : Arbiter) (j : DestId) : (s.setArbiter d a).entriesOf j = s.entriesOf j := rfl
@[simp] theorem State.panel_setArbiter (s : State) (d : DestId) (a : Arbiter) (j : PanelId) : (s.setArbiter d a).panel j = s.panel j := rfl
@[simp] theorem State.key_setArbiter (s : State) (d : DestId) (a : Arbiter) (j : KeyId) : (s.setArbiter d a).key j = s.key j := rfl
@[simp] theorem State.party_setArbiter (s : State) (d : DestId) (a : Arbiter) (j : PartyId) : (s.setArbiter d a).party j = s.party j := rfl
@[simp] theorem State.circuit_setArbiter (s : State) (d : DestId) (a : Arbiter) (j : CircuitId) : (s.setArbiter d a).circuit j = s.circuit j := rfl
@[simp] theorem State.tap_setArbiter (s : State) (d : DestId) (a : Arbiter) (j : TapId) : (s.setArbiter d a).tap j = s.tap j := rfl
@[simp] theorem State.cadence_setArbiter (s : State) (d : DestId) (a : Arbiter) (j : CadenceId) : (s.setArbiter d a).cadence j = s.cadence j := rfl
@[simp] theorem State.probeQueue_setArbiter (s : State) (d : DestId) (a : Arbiter) (j : PortId) : (s.setArbiter d a).probeQueue j = s.probeQueue j := rfl
@[simp] theorem State.lampPosition_setArbiter (s : State) (d : DestId) (a : Arbiter) (j : PortId) : (s.setArbiter d a).lampPosition j = s.lampPosition j := rfl
@[simp] theorem State.event_setArbiter (s : State) (d : DestId) (a : Arbiter) (j : EventKind) : (s.setArbiter d a).event j = s.event j := rfl

/-! ## setPanel -/

@[simp] theorem State.setPanel_phase (s : State) (p : PanelId) (r : Panel) : (s.setPanel p r).phase = s.phase := rfl
@[simp] theorem State.setPanel_straps (s : State) (p : PanelId) (r : Panel) : (s.setPanel p r).straps = s.straps := rfl
@[simp] theorem State.setPanel_restart (s : State) (p : PanelId) (r : Panel) : (s.setPanel p r).restart = s.restart := rfl
@[simp] theorem State.setPanel_timing (s : State) (p : PanelId) (r : Panel) : (s.setPanel p r).timing = s.timing := rfl
@[simp] theorem State.setPanel_ports (s : State) (p : PanelId) (r : Panel) : (s.setPanel p r).ports = s.ports := rfl
@[simp] theorem State.setPanel_orders (s : State) (p : PanelId) (r : Panel) : (s.setPanel p r).orders = s.orders := rfl
@[simp] theorem State.setPanel_replies (s : State) (p : PanelId) (r : Panel) : (s.setPanel p r).replies = s.replies := rfl
@[simp] theorem State.setPanel_notices (s : State) (p : PanelId) (r : Panel) : (s.setPanel p r).notices = s.notices := rfl
@[simp] theorem State.setPanel_probeQueues (s : State) (p : PanelId) (r : Panel) : (s.setPanel p r).probeQueues = s.probeQueues := rfl
@[simp] theorem State.setPanel_lampPositions (s : State) (p : PanelId) (r : Panel) : (s.setPanel p r).lampPositions = s.lampPositions := rfl
@[simp] theorem State.setPanel_block (s : State) (p : PanelId) (r : Panel) : (s.setPanel p r).block = s.block := rfl
@[simp] theorem State.setPanel_lastUnit (s : State) (p : PanelId) (r : Panel) : (s.setPanel p r).lastUnit = s.lastUnit := rfl
@[simp] theorem State.setPanel_unitTaken (s : State) (p : PanelId) (r : Panel) : (s.setPanel p r).unitTaken = s.unitTaken := rfl
@[simp] theorem State.setPanel_sources (s : State) (p : PanelId) (r : Panel) : (s.setPanel p r).sources = s.sources := rfl
@[simp] theorem State.setPanel_dests (s : State) (p : PanelId) (r : Panel) : (s.setPanel p r).dests = s.dests := rfl
@[simp] theorem State.setPanel_stations (s : State) (p : PanelId) (r : Panel) : (s.setPanel p r).stations = s.stations := rfl
@[simp] theorem State.setPanel_entries (s : State) (p : PanelId) (r : Panel) : (s.setPanel p r).entries = s.entries := rfl
@[simp] theorem State.setPanel_nextSerial (s : State) (p : PanelId) (r : Panel) : (s.setPanel p r).nextSerial = s.nextSerial := rfl
@[simp] theorem State.setPanel_arbiters (s : State) (p : PanelId) (r : Panel) : (s.setPanel p r).arbiters = s.arbiters := rfl
@[simp] theorem State.setPanel_keys (s : State) (p : PanelId) (r : Panel) : (s.setPanel p r).keys = s.keys := rfl
@[simp] theorem State.setPanel_parties (s : State) (p : PanelId) (r : Panel) : (s.setPanel p r).parties = s.parties := rfl
@[simp] theorem State.setPanel_circuits (s : State) (p : PanelId) (r : Panel) : (s.setPanel p r).circuits = s.circuits := rfl
@[simp] theorem State.setPanel_taps (s : State) (p : PanelId) (r : Panel) : (s.setPanel p r).taps = s.taps := rfl
@[simp] theorem State.setPanel_cadences (s : State) (p : PanelId) (r : Panel) : (s.setPanel p r).cadences = s.cadences := rfl
@[simp] theorem State.setPanel_events (s : State) (p : PanelId) (r : Panel) : (s.setPanel p r).events = s.events := rfl
@[simp] theorem State.setPanel_sent (s : State) (p : PanelId) (r : Panel) : (s.setPanel p r).sent = s.sent := rfl
@[simp] theorem State.setPanel_lampDirty (s : State) (p : PanelId) (r : Panel) : (s.setPanel p r).lampDirty = s.lampDirty := rfl
@[simp] theorem State.setPanel_draws (s : State) (p : PanelId) (r : Panel) : (s.setPanel p r).draws = s.draws := rfl
@[simp] theorem State.setPanel_pending (s : State) (p : PanelId) (r : Panel) : (s.setPanel p r).pending = s.pending := rfl

/-- The record read after a write. -/
theorem State.panel_setPanel (s : State) (p : PanelId) (r : Panel) (j : PanelId) :
    (s.setPanel p r).panel j = if j = p then r else s.panel j := tget_tset _ _ _ _

@[simp] theorem State.panel_setPanel_same (s : State) (p : PanelId) (r : Panel) : (s.setPanel p r).panel p = r :=
  tget_tset_same _ _ _

@[simp] theorem State.port_setPanel (s : State) (p : PanelId) (r : Panel) (j : PortId) : (s.setPanel p r).port j = s.port j := rfl
@[simp] theorem State.source_setPanel (s : State) (p : PanelId) (r : Panel) (j : SourceId) : (s.setPanel p r).source j = s.source j := rfl
@[simp] theorem State.dest_setPanel (s : State) (p : PanelId) (r : Panel) (j : DestId) : (s.setPanel p r).dest j = s.dest j := rfl
@[simp] theorem State.station_setPanel (s : State) (p : PanelId) (r : Panel) (j : StationId) : (s.setPanel p r).station j = s.station j := rfl
@[simp] theorem State.entriesOf_setPanel (s : State) (p : PanelId) (r : Panel) (j : DestId) : (s.setPanel p r).entriesOf j = s.entriesOf j := rfl
@[simp] theorem State.arbiter_setPanel (s : State) (p : PanelId) (r : Panel) (j : DestId) : (s.setPanel p r).arbiter j = s.arbiter j := rfl
@[simp] theorem State.key_setPanel (s : State) (p : PanelId) (r : Panel) (j : KeyId) : (s.setPanel p r).key j = s.key j := rfl
@[simp] theorem State.party_setPanel (s : State) (p : PanelId) (r : Panel) (j : PartyId) : (s.setPanel p r).party j = s.party j := rfl
@[simp] theorem State.circuit_setPanel (s : State) (p : PanelId) (r : Panel) (j : CircuitId) : (s.setPanel p r).circuit j = s.circuit j := rfl
@[simp] theorem State.tap_setPanel (s : State) (p : PanelId) (r : Panel) (j : TapId) : (s.setPanel p r).tap j = s.tap j := rfl
@[simp] theorem State.cadence_setPanel (s : State) (p : PanelId) (r : Panel) (j : CadenceId) : (s.setPanel p r).cadence j = s.cadence j := rfl
@[simp] theorem State.probeQueue_setPanel (s : State) (p : PanelId) (r : Panel) (j : PortId) : (s.setPanel p r).probeQueue j = s.probeQueue j := rfl
@[simp] theorem State.lampPosition_setPanel (s : State) (p : PanelId) (r : Panel) (j : PortId) : (s.setPanel p r).lampPosition j = s.lampPosition j := rfl
@[simp] theorem State.event_setPanel (s : State) (p : PanelId) (r : Panel) (j : EventKind) : (s.setPanel p r).event j = s.event j := rfl

/-! ## setKey -/

@[simp] theorem State.setKey_phase (s : State) (k : KeyId) (r : Key) : (s.setKey k r).phase = s.phase := rfl
@[simp] theorem State.setKey_straps (s : State) (k : KeyId) (r : Key) : (s.setKey k r).straps = s.straps := rfl
@[simp] theorem State.setKey_restart (s : State) (k : KeyId) (r : Key) : (s.setKey k r).restart = s.restart := rfl
@[simp] theorem State.setKey_timing (s : State) (k : KeyId) (r : Key) : (s.setKey k r).timing = s.timing := rfl
@[simp] theorem State.setKey_ports (s : State) (k : KeyId) (r : Key) : (s.setKey k r).ports = s.ports := rfl
@[simp] theorem State.setKey_orders (s : State) (k : KeyId) (r : Key) : (s.setKey k r).orders = s.orders := rfl
@[simp] theorem State.setKey_replies (s : State) (k : KeyId) (r : Key) : (s.setKey k r).replies = s.replies := rfl
@[simp] theorem State.setKey_notices (s : State) (k : KeyId) (r : Key) : (s.setKey k r).notices = s.notices := rfl
@[simp] theorem State.setKey_probeQueues (s : State) (k : KeyId) (r : Key) : (s.setKey k r).probeQueues = s.probeQueues := rfl
@[simp] theorem State.setKey_lampPositions (s : State) (k : KeyId) (r : Key) : (s.setKey k r).lampPositions = s.lampPositions := rfl
@[simp] theorem State.setKey_block (s : State) (k : KeyId) (r : Key) : (s.setKey k r).block = s.block := rfl
@[simp] theorem State.setKey_lastUnit (s : State) (k : KeyId) (r : Key) : (s.setKey k r).lastUnit = s.lastUnit := rfl
@[simp] theorem State.setKey_unitTaken (s : State) (k : KeyId) (r : Key) : (s.setKey k r).unitTaken = s.unitTaken := rfl
@[simp] theorem State.setKey_sources (s : State) (k : KeyId) (r : Key) : (s.setKey k r).sources = s.sources := rfl
@[simp] theorem State.setKey_dests (s : State) (k : KeyId) (r : Key) : (s.setKey k r).dests = s.dests := rfl
@[simp] theorem State.setKey_stations (s : State) (k : KeyId) (r : Key) : (s.setKey k r).stations = s.stations := rfl
@[simp] theorem State.setKey_entries (s : State) (k : KeyId) (r : Key) : (s.setKey k r).entries = s.entries := rfl
@[simp] theorem State.setKey_nextSerial (s : State) (k : KeyId) (r : Key) : (s.setKey k r).nextSerial = s.nextSerial := rfl
@[simp] theorem State.setKey_arbiters (s : State) (k : KeyId) (r : Key) : (s.setKey k r).arbiters = s.arbiters := rfl
@[simp] theorem State.setKey_panels (s : State) (k : KeyId) (r : Key) : (s.setKey k r).panels = s.panels := rfl
@[simp] theorem State.setKey_parties (s : State) (k : KeyId) (r : Key) : (s.setKey k r).parties = s.parties := rfl
@[simp] theorem State.setKey_circuits (s : State) (k : KeyId) (r : Key) : (s.setKey k r).circuits = s.circuits := rfl
@[simp] theorem State.setKey_taps (s : State) (k : KeyId) (r : Key) : (s.setKey k r).taps = s.taps := rfl
@[simp] theorem State.setKey_cadences (s : State) (k : KeyId) (r : Key) : (s.setKey k r).cadences = s.cadences := rfl
@[simp] theorem State.setKey_events (s : State) (k : KeyId) (r : Key) : (s.setKey k r).events = s.events := rfl
@[simp] theorem State.setKey_sent (s : State) (k : KeyId) (r : Key) : (s.setKey k r).sent = s.sent := rfl
@[simp] theorem State.setKey_lampDirty (s : State) (k : KeyId) (r : Key) : (s.setKey k r).lampDirty = s.lampDirty := rfl
@[simp] theorem State.setKey_draws (s : State) (k : KeyId) (r : Key) : (s.setKey k r).draws = s.draws := rfl
@[simp] theorem State.setKey_pending (s : State) (k : KeyId) (r : Key) : (s.setKey k r).pending = s.pending := rfl

/-- The record read after a write. -/
theorem State.key_setKey (s : State) (k : KeyId) (r : Key) (j : KeyId) :
    (s.setKey k r).key j = if j = k then r else s.key j := tget_tset _ _ _ _

@[simp] theorem State.key_setKey_same (s : State) (k : KeyId) (r : Key) : (s.setKey k r).key k = r :=
  tget_tset_same _ _ _

@[simp] theorem State.port_setKey (s : State) (k : KeyId) (r : Key) (j : PortId) : (s.setKey k r).port j = s.port j := rfl
@[simp] theorem State.source_setKey (s : State) (k : KeyId) (r : Key) (j : SourceId) : (s.setKey k r).source j = s.source j := rfl
@[simp] theorem State.dest_setKey (s : State) (k : KeyId) (r : Key) (j : DestId) : (s.setKey k r).dest j = s.dest j := rfl
@[simp] theorem State.station_setKey (s : State) (k : KeyId) (r : Key) (j : StationId) : (s.setKey k r).station j = s.station j := rfl
@[simp] theorem State.entriesOf_setKey (s : State) (k : KeyId) (r : Key) (j : DestId) : (s.setKey k r).entriesOf j = s.entriesOf j := rfl
@[simp] theorem State.arbiter_setKey (s : State) (k : KeyId) (r : Key) (j : DestId) : (s.setKey k r).arbiter j = s.arbiter j := rfl
@[simp] theorem State.panel_setKey (s : State) (k : KeyId) (r : Key) (j : PanelId) : (s.setKey k r).panel j = s.panel j := rfl
@[simp] theorem State.party_setKey (s : State) (k : KeyId) (r : Key) (j : PartyId) : (s.setKey k r).party j = s.party j := rfl
@[simp] theorem State.circuit_setKey (s : State) (k : KeyId) (r : Key) (j : CircuitId) : (s.setKey k r).circuit j = s.circuit j := rfl
@[simp] theorem State.tap_setKey (s : State) (k : KeyId) (r : Key) (j : TapId) : (s.setKey k r).tap j = s.tap j := rfl
@[simp] theorem State.cadence_setKey (s : State) (k : KeyId) (r : Key) (j : CadenceId) : (s.setKey k r).cadence j = s.cadence j := rfl
@[simp] theorem State.probeQueue_setKey (s : State) (k : KeyId) (r : Key) (j : PortId) : (s.setKey k r).probeQueue j = s.probeQueue j := rfl
@[simp] theorem State.lampPosition_setKey (s : State) (k : KeyId) (r : Key) (j : PortId) : (s.setKey k r).lampPosition j = s.lampPosition j := rfl
@[simp] theorem State.event_setKey (s : State) (k : KeyId) (r : Key) (j : EventKind) : (s.setKey k r).event j = s.event j := rfl

/-! ## setParty -/

@[simp] theorem State.setParty_phase (s : State) (p : PartyId) (r : Party) : (s.setParty p r).phase = s.phase := rfl
@[simp] theorem State.setParty_straps (s : State) (p : PartyId) (r : Party) : (s.setParty p r).straps = s.straps := rfl
@[simp] theorem State.setParty_restart (s : State) (p : PartyId) (r : Party) : (s.setParty p r).restart = s.restart := rfl
@[simp] theorem State.setParty_timing (s : State) (p : PartyId) (r : Party) : (s.setParty p r).timing = s.timing := rfl
@[simp] theorem State.setParty_ports (s : State) (p : PartyId) (r : Party) : (s.setParty p r).ports = s.ports := rfl
@[simp] theorem State.setParty_orders (s : State) (p : PartyId) (r : Party) : (s.setParty p r).orders = s.orders := rfl
@[simp] theorem State.setParty_replies (s : State) (p : PartyId) (r : Party) : (s.setParty p r).replies = s.replies := rfl
@[simp] theorem State.setParty_notices (s : State) (p : PartyId) (r : Party) : (s.setParty p r).notices = s.notices := rfl
@[simp] theorem State.setParty_probeQueues (s : State) (p : PartyId) (r : Party) : (s.setParty p r).probeQueues = s.probeQueues := rfl
@[simp] theorem State.setParty_lampPositions (s : State) (p : PartyId) (r : Party) : (s.setParty p r).lampPositions = s.lampPositions := rfl
@[simp] theorem State.setParty_block (s : State) (p : PartyId) (r : Party) : (s.setParty p r).block = s.block := rfl
@[simp] theorem State.setParty_lastUnit (s : State) (p : PartyId) (r : Party) : (s.setParty p r).lastUnit = s.lastUnit := rfl
@[simp] theorem State.setParty_unitTaken (s : State) (p : PartyId) (r : Party) : (s.setParty p r).unitTaken = s.unitTaken := rfl
@[simp] theorem State.setParty_sources (s : State) (p : PartyId) (r : Party) : (s.setParty p r).sources = s.sources := rfl
@[simp] theorem State.setParty_dests (s : State) (p : PartyId) (r : Party) : (s.setParty p r).dests = s.dests := rfl
@[simp] theorem State.setParty_stations (s : State) (p : PartyId) (r : Party) : (s.setParty p r).stations = s.stations := rfl
@[simp] theorem State.setParty_entries (s : State) (p : PartyId) (r : Party) : (s.setParty p r).entries = s.entries := rfl
@[simp] theorem State.setParty_nextSerial (s : State) (p : PartyId) (r : Party) : (s.setParty p r).nextSerial = s.nextSerial := rfl
@[simp] theorem State.setParty_arbiters (s : State) (p : PartyId) (r : Party) : (s.setParty p r).arbiters = s.arbiters := rfl
@[simp] theorem State.setParty_panels (s : State) (p : PartyId) (r : Party) : (s.setParty p r).panels = s.panels := rfl
@[simp] theorem State.setParty_keys (s : State) (p : PartyId) (r : Party) : (s.setParty p r).keys = s.keys := rfl
@[simp] theorem State.setParty_circuits (s : State) (p : PartyId) (r : Party) : (s.setParty p r).circuits = s.circuits := rfl
@[simp] theorem State.setParty_taps (s : State) (p : PartyId) (r : Party) : (s.setParty p r).taps = s.taps := rfl
@[simp] theorem State.setParty_cadences (s : State) (p : PartyId) (r : Party) : (s.setParty p r).cadences = s.cadences := rfl
@[simp] theorem State.setParty_events (s : State) (p : PartyId) (r : Party) : (s.setParty p r).events = s.events := rfl
@[simp] theorem State.setParty_sent (s : State) (p : PartyId) (r : Party) : (s.setParty p r).sent = s.sent := rfl
@[simp] theorem State.setParty_lampDirty (s : State) (p : PartyId) (r : Party) : (s.setParty p r).lampDirty = s.lampDirty := rfl
@[simp] theorem State.setParty_draws (s : State) (p : PartyId) (r : Party) : (s.setParty p r).draws = s.draws := rfl
@[simp] theorem State.setParty_pending (s : State) (p : PartyId) (r : Party) : (s.setParty p r).pending = s.pending := rfl

/-- The record read after a write. -/
theorem State.party_setParty (s : State) (p : PartyId) (r : Party) (j : PartyId) :
    (s.setParty p r).party j = if j = p then r else s.party j := tget_tset _ _ _ _

@[simp] theorem State.party_setParty_same (s : State) (p : PartyId) (r : Party) : (s.setParty p r).party p = r :=
  tget_tset_same _ _ _

@[simp] theorem State.port_setParty (s : State) (p : PartyId) (r : Party) (j : PortId) : (s.setParty p r).port j = s.port j := rfl
@[simp] theorem State.source_setParty (s : State) (p : PartyId) (r : Party) (j : SourceId) : (s.setParty p r).source j = s.source j := rfl
@[simp] theorem State.dest_setParty (s : State) (p : PartyId) (r : Party) (j : DestId) : (s.setParty p r).dest j = s.dest j := rfl
@[simp] theorem State.station_setParty (s : State) (p : PartyId) (r : Party) (j : StationId) : (s.setParty p r).station j = s.station j := rfl
@[simp] theorem State.entriesOf_setParty (s : State) (p : PartyId) (r : Party) (j : DestId) : (s.setParty p r).entriesOf j = s.entriesOf j := rfl
@[simp] theorem State.arbiter_setParty (s : State) (p : PartyId) (r : Party) (j : DestId) : (s.setParty p r).arbiter j = s.arbiter j := rfl
@[simp] theorem State.panel_setParty (s : State) (p : PartyId) (r : Party) (j : PanelId) : (s.setParty p r).panel j = s.panel j := rfl
@[simp] theorem State.key_setParty (s : State) (p : PartyId) (r : Party) (j : KeyId) : (s.setParty p r).key j = s.key j := rfl
@[simp] theorem State.circuit_setParty (s : State) (p : PartyId) (r : Party) (j : CircuitId) : (s.setParty p r).circuit j = s.circuit j := rfl
@[simp] theorem State.tap_setParty (s : State) (p : PartyId) (r : Party) (j : TapId) : (s.setParty p r).tap j = s.tap j := rfl
@[simp] theorem State.cadence_setParty (s : State) (p : PartyId) (r : Party) (j : CadenceId) : (s.setParty p r).cadence j = s.cadence j := rfl
@[simp] theorem State.probeQueue_setParty (s : State) (p : PartyId) (r : Party) (j : PortId) : (s.setParty p r).probeQueue j = s.probeQueue j := rfl
@[simp] theorem State.lampPosition_setParty (s : State) (p : PartyId) (r : Party) (j : PortId) : (s.setParty p r).lampPosition j = s.lampPosition j := rfl
@[simp] theorem State.event_setParty (s : State) (p : PartyId) (r : Party) (j : EventKind) : (s.setParty p r).event j = s.event j := rfl

/-! ## setCircuit -/

@[simp] theorem State.setCircuit_phase (s : State) (c : CircuitId) (r : Circuit) : (s.setCircuit c r).phase = s.phase := rfl
@[simp] theorem State.setCircuit_straps (s : State) (c : CircuitId) (r : Circuit) : (s.setCircuit c r).straps = s.straps := rfl
@[simp] theorem State.setCircuit_restart (s : State) (c : CircuitId) (r : Circuit) : (s.setCircuit c r).restart = s.restart := rfl
@[simp] theorem State.setCircuit_timing (s : State) (c : CircuitId) (r : Circuit) : (s.setCircuit c r).timing = s.timing := rfl
@[simp] theorem State.setCircuit_ports (s : State) (c : CircuitId) (r : Circuit) : (s.setCircuit c r).ports = s.ports := rfl
@[simp] theorem State.setCircuit_orders (s : State) (c : CircuitId) (r : Circuit) : (s.setCircuit c r).orders = s.orders := rfl
@[simp] theorem State.setCircuit_replies (s : State) (c : CircuitId) (r : Circuit) : (s.setCircuit c r).replies = s.replies := rfl
@[simp] theorem State.setCircuit_notices (s : State) (c : CircuitId) (r : Circuit) : (s.setCircuit c r).notices = s.notices := rfl
@[simp] theorem State.setCircuit_probeQueues (s : State) (c : CircuitId) (r : Circuit) : (s.setCircuit c r).probeQueues = s.probeQueues := rfl
@[simp] theorem State.setCircuit_lampPositions (s : State) (c : CircuitId) (r : Circuit) : (s.setCircuit c r).lampPositions = s.lampPositions := rfl
@[simp] theorem State.setCircuit_block (s : State) (c : CircuitId) (r : Circuit) : (s.setCircuit c r).block = s.block := rfl
@[simp] theorem State.setCircuit_lastUnit (s : State) (c : CircuitId) (r : Circuit) : (s.setCircuit c r).lastUnit = s.lastUnit := rfl
@[simp] theorem State.setCircuit_unitTaken (s : State) (c : CircuitId) (r : Circuit) : (s.setCircuit c r).unitTaken = s.unitTaken := rfl
@[simp] theorem State.setCircuit_sources (s : State) (c : CircuitId) (r : Circuit) : (s.setCircuit c r).sources = s.sources := rfl
@[simp] theorem State.setCircuit_dests (s : State) (c : CircuitId) (r : Circuit) : (s.setCircuit c r).dests = s.dests := rfl
@[simp] theorem State.setCircuit_stations (s : State) (c : CircuitId) (r : Circuit) : (s.setCircuit c r).stations = s.stations := rfl
@[simp] theorem State.setCircuit_entries (s : State) (c : CircuitId) (r : Circuit) : (s.setCircuit c r).entries = s.entries := rfl
@[simp] theorem State.setCircuit_nextSerial (s : State) (c : CircuitId) (r : Circuit) : (s.setCircuit c r).nextSerial = s.nextSerial := rfl
@[simp] theorem State.setCircuit_arbiters (s : State) (c : CircuitId) (r : Circuit) : (s.setCircuit c r).arbiters = s.arbiters := rfl
@[simp] theorem State.setCircuit_panels (s : State) (c : CircuitId) (r : Circuit) : (s.setCircuit c r).panels = s.panels := rfl
@[simp] theorem State.setCircuit_keys (s : State) (c : CircuitId) (r : Circuit) : (s.setCircuit c r).keys = s.keys := rfl
@[simp] theorem State.setCircuit_parties (s : State) (c : CircuitId) (r : Circuit) : (s.setCircuit c r).parties = s.parties := rfl
@[simp] theorem State.setCircuit_taps (s : State) (c : CircuitId) (r : Circuit) : (s.setCircuit c r).taps = s.taps := rfl
@[simp] theorem State.setCircuit_cadences (s : State) (c : CircuitId) (r : Circuit) : (s.setCircuit c r).cadences = s.cadences := rfl
@[simp] theorem State.setCircuit_events (s : State) (c : CircuitId) (r : Circuit) : (s.setCircuit c r).events = s.events := rfl
@[simp] theorem State.setCircuit_sent (s : State) (c : CircuitId) (r : Circuit) : (s.setCircuit c r).sent = s.sent := rfl
@[simp] theorem State.setCircuit_lampDirty (s : State) (c : CircuitId) (r : Circuit) : (s.setCircuit c r).lampDirty = s.lampDirty := rfl
@[simp] theorem State.setCircuit_draws (s : State) (c : CircuitId) (r : Circuit) : (s.setCircuit c r).draws = s.draws := rfl
@[simp] theorem State.setCircuit_pending (s : State) (c : CircuitId) (r : Circuit) : (s.setCircuit c r).pending = s.pending := rfl

/-- The record read after a write. -/
theorem State.circuit_setCircuit (s : State) (c : CircuitId) (r : Circuit) (j : CircuitId) :
    (s.setCircuit c r).circuit j = if j = c then r else s.circuit j := tget_tset _ _ _ _

@[simp] theorem State.circuit_setCircuit_same (s : State) (c : CircuitId) (r : Circuit) : (s.setCircuit c r).circuit c = r :=
  tget_tset_same _ _ _

@[simp] theorem State.port_setCircuit (s : State) (c : CircuitId) (r : Circuit) (j : PortId) : (s.setCircuit c r).port j = s.port j := rfl
@[simp] theorem State.source_setCircuit (s : State) (c : CircuitId) (r : Circuit) (j : SourceId) : (s.setCircuit c r).source j = s.source j := rfl
@[simp] theorem State.dest_setCircuit (s : State) (c : CircuitId) (r : Circuit) (j : DestId) : (s.setCircuit c r).dest j = s.dest j := rfl
@[simp] theorem State.station_setCircuit (s : State) (c : CircuitId) (r : Circuit) (j : StationId) : (s.setCircuit c r).station j = s.station j := rfl
@[simp] theorem State.entriesOf_setCircuit (s : State) (c : CircuitId) (r : Circuit) (j : DestId) : (s.setCircuit c r).entriesOf j = s.entriesOf j := rfl
@[simp] theorem State.arbiter_setCircuit (s : State) (c : CircuitId) (r : Circuit) (j : DestId) : (s.setCircuit c r).arbiter j = s.arbiter j := rfl
@[simp] theorem State.panel_setCircuit (s : State) (c : CircuitId) (r : Circuit) (j : PanelId) : (s.setCircuit c r).panel j = s.panel j := rfl
@[simp] theorem State.key_setCircuit (s : State) (c : CircuitId) (r : Circuit) (j : KeyId) : (s.setCircuit c r).key j = s.key j := rfl
@[simp] theorem State.party_setCircuit (s : State) (c : CircuitId) (r : Circuit) (j : PartyId) : (s.setCircuit c r).party j = s.party j := rfl
@[simp] theorem State.tap_setCircuit (s : State) (c : CircuitId) (r : Circuit) (j : TapId) : (s.setCircuit c r).tap j = s.tap j := rfl
@[simp] theorem State.cadence_setCircuit (s : State) (c : CircuitId) (r : Circuit) (j : CadenceId) : (s.setCircuit c r).cadence j = s.cadence j := rfl
@[simp] theorem State.probeQueue_setCircuit (s : State) (c : CircuitId) (r : Circuit) (j : PortId) : (s.setCircuit c r).probeQueue j = s.probeQueue j := rfl
@[simp] theorem State.lampPosition_setCircuit (s : State) (c : CircuitId) (r : Circuit) (j : PortId) : (s.setCircuit c r).lampPosition j = s.lampPosition j := rfl
@[simp] theorem State.event_setCircuit (s : State) (c : CircuitId) (r : Circuit) (j : EventKind) : (s.setCircuit c r).event j = s.event j := rfl

/-! ## setTap -/

@[simp] theorem State.setTap_phase (s : State) (t : TapId) (r : Tap) : (s.setTap t r).phase = s.phase := rfl
@[simp] theorem State.setTap_straps (s : State) (t : TapId) (r : Tap) : (s.setTap t r).straps = s.straps := rfl
@[simp] theorem State.setTap_restart (s : State) (t : TapId) (r : Tap) : (s.setTap t r).restart = s.restart := rfl
@[simp] theorem State.setTap_timing (s : State) (t : TapId) (r : Tap) : (s.setTap t r).timing = s.timing := rfl
@[simp] theorem State.setTap_ports (s : State) (t : TapId) (r : Tap) : (s.setTap t r).ports = s.ports := rfl
@[simp] theorem State.setTap_orders (s : State) (t : TapId) (r : Tap) : (s.setTap t r).orders = s.orders := rfl
@[simp] theorem State.setTap_replies (s : State) (t : TapId) (r : Tap) : (s.setTap t r).replies = s.replies := rfl
@[simp] theorem State.setTap_notices (s : State) (t : TapId) (r : Tap) : (s.setTap t r).notices = s.notices := rfl
@[simp] theorem State.setTap_probeQueues (s : State) (t : TapId) (r : Tap) : (s.setTap t r).probeQueues = s.probeQueues := rfl
@[simp] theorem State.setTap_lampPositions (s : State) (t : TapId) (r : Tap) : (s.setTap t r).lampPositions = s.lampPositions := rfl
@[simp] theorem State.setTap_block (s : State) (t : TapId) (r : Tap) : (s.setTap t r).block = s.block := rfl
@[simp] theorem State.setTap_lastUnit (s : State) (t : TapId) (r : Tap) : (s.setTap t r).lastUnit = s.lastUnit := rfl
@[simp] theorem State.setTap_unitTaken (s : State) (t : TapId) (r : Tap) : (s.setTap t r).unitTaken = s.unitTaken := rfl
@[simp] theorem State.setTap_sources (s : State) (t : TapId) (r : Tap) : (s.setTap t r).sources = s.sources := rfl
@[simp] theorem State.setTap_dests (s : State) (t : TapId) (r : Tap) : (s.setTap t r).dests = s.dests := rfl
@[simp] theorem State.setTap_stations (s : State) (t : TapId) (r : Tap) : (s.setTap t r).stations = s.stations := rfl
@[simp] theorem State.setTap_entries (s : State) (t : TapId) (r : Tap) : (s.setTap t r).entries = s.entries := rfl
@[simp] theorem State.setTap_nextSerial (s : State) (t : TapId) (r : Tap) : (s.setTap t r).nextSerial = s.nextSerial := rfl
@[simp] theorem State.setTap_arbiters (s : State) (t : TapId) (r : Tap) : (s.setTap t r).arbiters = s.arbiters := rfl
@[simp] theorem State.setTap_panels (s : State) (t : TapId) (r : Tap) : (s.setTap t r).panels = s.panels := rfl
@[simp] theorem State.setTap_keys (s : State) (t : TapId) (r : Tap) : (s.setTap t r).keys = s.keys := rfl
@[simp] theorem State.setTap_parties (s : State) (t : TapId) (r : Tap) : (s.setTap t r).parties = s.parties := rfl
@[simp] theorem State.setTap_circuits (s : State) (t : TapId) (r : Tap) : (s.setTap t r).circuits = s.circuits := rfl
@[simp] theorem State.setTap_cadences (s : State) (t : TapId) (r : Tap) : (s.setTap t r).cadences = s.cadences := rfl
@[simp] theorem State.setTap_events (s : State) (t : TapId) (r : Tap) : (s.setTap t r).events = s.events := rfl
@[simp] theorem State.setTap_sent (s : State) (t : TapId) (r : Tap) : (s.setTap t r).sent = s.sent := rfl
@[simp] theorem State.setTap_lampDirty (s : State) (t : TapId) (r : Tap) : (s.setTap t r).lampDirty = s.lampDirty := rfl
@[simp] theorem State.setTap_draws (s : State) (t : TapId) (r : Tap) : (s.setTap t r).draws = s.draws := rfl
@[simp] theorem State.setTap_pending (s : State) (t : TapId) (r : Tap) : (s.setTap t r).pending = s.pending := rfl

/-- The record read after a write. -/
theorem State.tap_setTap (s : State) (t : TapId) (r : Tap) (j : TapId) :
    (s.setTap t r).tap j = if j = t then r else s.tap j := tget_tset _ _ _ _

@[simp] theorem State.tap_setTap_same (s : State) (t : TapId) (r : Tap) : (s.setTap t r).tap t = r :=
  tget_tset_same _ _ _

@[simp] theorem State.port_setTap (s : State) (t : TapId) (r : Tap) (j : PortId) : (s.setTap t r).port j = s.port j := rfl
@[simp] theorem State.source_setTap (s : State) (t : TapId) (r : Tap) (j : SourceId) : (s.setTap t r).source j = s.source j := rfl
@[simp] theorem State.dest_setTap (s : State) (t : TapId) (r : Tap) (j : DestId) : (s.setTap t r).dest j = s.dest j := rfl
@[simp] theorem State.station_setTap (s : State) (t : TapId) (r : Tap) (j : StationId) : (s.setTap t r).station j = s.station j := rfl
@[simp] theorem State.entriesOf_setTap (s : State) (t : TapId) (r : Tap) (j : DestId) : (s.setTap t r).entriesOf j = s.entriesOf j := rfl
@[simp] theorem State.arbiter_setTap (s : State) (t : TapId) (r : Tap) (j : DestId) : (s.setTap t r).arbiter j = s.arbiter j := rfl
@[simp] theorem State.panel_setTap (s : State) (t : TapId) (r : Tap) (j : PanelId) : (s.setTap t r).panel j = s.panel j := rfl
@[simp] theorem State.key_setTap (s : State) (t : TapId) (r : Tap) (j : KeyId) : (s.setTap t r).key j = s.key j := rfl
@[simp] theorem State.party_setTap (s : State) (t : TapId) (r : Tap) (j : PartyId) : (s.setTap t r).party j = s.party j := rfl
@[simp] theorem State.circuit_setTap (s : State) (t : TapId) (r : Tap) (j : CircuitId) : (s.setTap t r).circuit j = s.circuit j := rfl
@[simp] theorem State.cadence_setTap (s : State) (t : TapId) (r : Tap) (j : CadenceId) : (s.setTap t r).cadence j = s.cadence j := rfl
@[simp] theorem State.probeQueue_setTap (s : State) (t : TapId) (r : Tap) (j : PortId) : (s.setTap t r).probeQueue j = s.probeQueue j := rfl
@[simp] theorem State.lampPosition_setTap (s : State) (t : TapId) (r : Tap) (j : PortId) : (s.setTap t r).lampPosition j = s.lampPosition j := rfl
@[simp] theorem State.event_setTap (s : State) (t : TapId) (r : Tap) (j : EventKind) : (s.setTap t r).event j = s.event j := rfl

/-! ## setCadence -/

@[simp] theorem State.setCadence_phase (s : State) (c : CadenceId) (r : Cadence) : (s.setCadence c r).phase = s.phase := rfl
@[simp] theorem State.setCadence_straps (s : State) (c : CadenceId) (r : Cadence) : (s.setCadence c r).straps = s.straps := rfl
@[simp] theorem State.setCadence_restart (s : State) (c : CadenceId) (r : Cadence) : (s.setCadence c r).restart = s.restart := rfl
@[simp] theorem State.setCadence_timing (s : State) (c : CadenceId) (r : Cadence) : (s.setCadence c r).timing = s.timing := rfl
@[simp] theorem State.setCadence_ports (s : State) (c : CadenceId) (r : Cadence) : (s.setCadence c r).ports = s.ports := rfl
@[simp] theorem State.setCadence_orders (s : State) (c : CadenceId) (r : Cadence) : (s.setCadence c r).orders = s.orders := rfl
@[simp] theorem State.setCadence_replies (s : State) (c : CadenceId) (r : Cadence) : (s.setCadence c r).replies = s.replies := rfl
@[simp] theorem State.setCadence_notices (s : State) (c : CadenceId) (r : Cadence) : (s.setCadence c r).notices = s.notices := rfl
@[simp] theorem State.setCadence_probeQueues (s : State) (c : CadenceId) (r : Cadence) : (s.setCadence c r).probeQueues = s.probeQueues := rfl
@[simp] theorem State.setCadence_lampPositions (s : State) (c : CadenceId) (r : Cadence) : (s.setCadence c r).lampPositions = s.lampPositions := rfl
@[simp] theorem State.setCadence_block (s : State) (c : CadenceId) (r : Cadence) : (s.setCadence c r).block = s.block := rfl
@[simp] theorem State.setCadence_lastUnit (s : State) (c : CadenceId) (r : Cadence) : (s.setCadence c r).lastUnit = s.lastUnit := rfl
@[simp] theorem State.setCadence_unitTaken (s : State) (c : CadenceId) (r : Cadence) : (s.setCadence c r).unitTaken = s.unitTaken := rfl
@[simp] theorem State.setCadence_sources (s : State) (c : CadenceId) (r : Cadence) : (s.setCadence c r).sources = s.sources := rfl
@[simp] theorem State.setCadence_dests (s : State) (c : CadenceId) (r : Cadence) : (s.setCadence c r).dests = s.dests := rfl
@[simp] theorem State.setCadence_stations (s : State) (c : CadenceId) (r : Cadence) : (s.setCadence c r).stations = s.stations := rfl
@[simp] theorem State.setCadence_entries (s : State) (c : CadenceId) (r : Cadence) : (s.setCadence c r).entries = s.entries := rfl
@[simp] theorem State.setCadence_nextSerial (s : State) (c : CadenceId) (r : Cadence) : (s.setCadence c r).nextSerial = s.nextSerial := rfl
@[simp] theorem State.setCadence_arbiters (s : State) (c : CadenceId) (r : Cadence) : (s.setCadence c r).arbiters = s.arbiters := rfl
@[simp] theorem State.setCadence_panels (s : State) (c : CadenceId) (r : Cadence) : (s.setCadence c r).panels = s.panels := rfl
@[simp] theorem State.setCadence_keys (s : State) (c : CadenceId) (r : Cadence) : (s.setCadence c r).keys = s.keys := rfl
@[simp] theorem State.setCadence_parties (s : State) (c : CadenceId) (r : Cadence) : (s.setCadence c r).parties = s.parties := rfl
@[simp] theorem State.setCadence_circuits (s : State) (c : CadenceId) (r : Cadence) : (s.setCadence c r).circuits = s.circuits := rfl
@[simp] theorem State.setCadence_taps (s : State) (c : CadenceId) (r : Cadence) : (s.setCadence c r).taps = s.taps := rfl
@[simp] theorem State.setCadence_events (s : State) (c : CadenceId) (r : Cadence) : (s.setCadence c r).events = s.events := rfl
@[simp] theorem State.setCadence_sent (s : State) (c : CadenceId) (r : Cadence) : (s.setCadence c r).sent = s.sent := rfl
@[simp] theorem State.setCadence_lampDirty (s : State) (c : CadenceId) (r : Cadence) : (s.setCadence c r).lampDirty = s.lampDirty := rfl
@[simp] theorem State.setCadence_draws (s : State) (c : CadenceId) (r : Cadence) : (s.setCadence c r).draws = s.draws := rfl
@[simp] theorem State.setCadence_pending (s : State) (c : CadenceId) (r : Cadence) : (s.setCadence c r).pending = s.pending := rfl

/-- The record read after a write. -/
theorem State.cadence_setCadence (s : State) (c : CadenceId) (r : Cadence) (j : CadenceId) :
    (s.setCadence c r).cadence j = if j = c then r else s.cadence j := tget_tset _ _ _ _

@[simp] theorem State.cadence_setCadence_same (s : State) (c : CadenceId) (r : Cadence) : (s.setCadence c r).cadence c = r :=
  tget_tset_same _ _ _

@[simp] theorem State.port_setCadence (s : State) (c : CadenceId) (r : Cadence) (j : PortId) : (s.setCadence c r).port j = s.port j := rfl
@[simp] theorem State.source_setCadence (s : State) (c : CadenceId) (r : Cadence) (j : SourceId) : (s.setCadence c r).source j = s.source j := rfl
@[simp] theorem State.dest_setCadence (s : State) (c : CadenceId) (r : Cadence) (j : DestId) : (s.setCadence c r).dest j = s.dest j := rfl
@[simp] theorem State.station_setCadence (s : State) (c : CadenceId) (r : Cadence) (j : StationId) : (s.setCadence c r).station j = s.station j := rfl
@[simp] theorem State.entriesOf_setCadence (s : State) (c : CadenceId) (r : Cadence) (j : DestId) : (s.setCadence c r).entriesOf j = s.entriesOf j := rfl
@[simp] theorem State.arbiter_setCadence (s : State) (c : CadenceId) (r : Cadence) (j : DestId) : (s.setCadence c r).arbiter j = s.arbiter j := rfl
@[simp] theorem State.panel_setCadence (s : State) (c : CadenceId) (r : Cadence) (j : PanelId) : (s.setCadence c r).panel j = s.panel j := rfl
@[simp] theorem State.key_setCadence (s : State) (c : CadenceId) (r : Cadence) (j : KeyId) : (s.setCadence c r).key j = s.key j := rfl
@[simp] theorem State.party_setCadence (s : State) (c : CadenceId) (r : Cadence) (j : PartyId) : (s.setCadence c r).party j = s.party j := rfl
@[simp] theorem State.circuit_setCadence (s : State) (c : CadenceId) (r : Cadence) (j : CircuitId) : (s.setCadence c r).circuit j = s.circuit j := rfl
@[simp] theorem State.tap_setCadence (s : State) (c : CadenceId) (r : Cadence) (j : TapId) : (s.setCadence c r).tap j = s.tap j := rfl
@[simp] theorem State.probeQueue_setCadence (s : State) (c : CadenceId) (r : Cadence) (j : PortId) : (s.setCadence c r).probeQueue j = s.probeQueue j := rfl
@[simp] theorem State.lampPosition_setCadence (s : State) (c : CadenceId) (r : Cadence) (j : PortId) : (s.setCadence c r).lampPosition j = s.lampPosition j := rfl
@[simp] theorem State.event_setCadence (s : State) (c : CadenceId) (r : Cadence) (j : EventKind) : (s.setCadence c r).event j = s.event j := rfl

/-! ## setProbeQueue -/

@[simp] theorem State.setProbeQueue_phase (s : State) (p : PortId) (q : List CircuitId) : (s.setProbeQueue p q).phase = s.phase := rfl
@[simp] theorem State.setProbeQueue_straps (s : State) (p : PortId) (q : List CircuitId) : (s.setProbeQueue p q).straps = s.straps := rfl
@[simp] theorem State.setProbeQueue_restart (s : State) (p : PortId) (q : List CircuitId) : (s.setProbeQueue p q).restart = s.restart := rfl
@[simp] theorem State.setProbeQueue_timing (s : State) (p : PortId) (q : List CircuitId) : (s.setProbeQueue p q).timing = s.timing := rfl
@[simp] theorem State.setProbeQueue_ports (s : State) (p : PortId) (q : List CircuitId) : (s.setProbeQueue p q).ports = s.ports := rfl
@[simp] theorem State.setProbeQueue_orders (s : State) (p : PortId) (q : List CircuitId) : (s.setProbeQueue p q).orders = s.orders := rfl
@[simp] theorem State.setProbeQueue_replies (s : State) (p : PortId) (q : List CircuitId) : (s.setProbeQueue p q).replies = s.replies := rfl
@[simp] theorem State.setProbeQueue_notices (s : State) (p : PortId) (q : List CircuitId) : (s.setProbeQueue p q).notices = s.notices := rfl
@[simp] theorem State.setProbeQueue_lampPositions (s : State) (p : PortId) (q : List CircuitId) : (s.setProbeQueue p q).lampPositions = s.lampPositions := rfl
@[simp] theorem State.setProbeQueue_block (s : State) (p : PortId) (q : List CircuitId) : (s.setProbeQueue p q).block = s.block := rfl
@[simp] theorem State.setProbeQueue_lastUnit (s : State) (p : PortId) (q : List CircuitId) : (s.setProbeQueue p q).lastUnit = s.lastUnit := rfl
@[simp] theorem State.setProbeQueue_unitTaken (s : State) (p : PortId) (q : List CircuitId) : (s.setProbeQueue p q).unitTaken = s.unitTaken := rfl
@[simp] theorem State.setProbeQueue_sources (s : State) (p : PortId) (q : List CircuitId) : (s.setProbeQueue p q).sources = s.sources := rfl
@[simp] theorem State.setProbeQueue_dests (s : State) (p : PortId) (q : List CircuitId) : (s.setProbeQueue p q).dests = s.dests := rfl
@[simp] theorem State.setProbeQueue_stations (s : State) (p : PortId) (q : List CircuitId) : (s.setProbeQueue p q).stations = s.stations := rfl
@[simp] theorem State.setProbeQueue_entries (s : State) (p : PortId) (q : List CircuitId) : (s.setProbeQueue p q).entries = s.entries := rfl
@[simp] theorem State.setProbeQueue_nextSerial (s : State) (p : PortId) (q : List CircuitId) : (s.setProbeQueue p q).nextSerial = s.nextSerial := rfl
@[simp] theorem State.setProbeQueue_arbiters (s : State) (p : PortId) (q : List CircuitId) : (s.setProbeQueue p q).arbiters = s.arbiters := rfl
@[simp] theorem State.setProbeQueue_panels (s : State) (p : PortId) (q : List CircuitId) : (s.setProbeQueue p q).panels = s.panels := rfl
@[simp] theorem State.setProbeQueue_keys (s : State) (p : PortId) (q : List CircuitId) : (s.setProbeQueue p q).keys = s.keys := rfl
@[simp] theorem State.setProbeQueue_parties (s : State) (p : PortId) (q : List CircuitId) : (s.setProbeQueue p q).parties = s.parties := rfl
@[simp] theorem State.setProbeQueue_circuits (s : State) (p : PortId) (q : List CircuitId) : (s.setProbeQueue p q).circuits = s.circuits := rfl
@[simp] theorem State.setProbeQueue_taps (s : State) (p : PortId) (q : List CircuitId) : (s.setProbeQueue p q).taps = s.taps := rfl
@[simp] theorem State.setProbeQueue_cadences (s : State) (p : PortId) (q : List CircuitId) : (s.setProbeQueue p q).cadences = s.cadences := rfl
@[simp] theorem State.setProbeQueue_events (s : State) (p : PortId) (q : List CircuitId) : (s.setProbeQueue p q).events = s.events := rfl
@[simp] theorem State.setProbeQueue_sent (s : State) (p : PortId) (q : List CircuitId) : (s.setProbeQueue p q).sent = s.sent := rfl
@[simp] theorem State.setProbeQueue_lampDirty (s : State) (p : PortId) (q : List CircuitId) : (s.setProbeQueue p q).lampDirty = s.lampDirty := rfl
@[simp] theorem State.setProbeQueue_draws (s : State) (p : PortId) (q : List CircuitId) : (s.setProbeQueue p q).draws = s.draws := rfl
@[simp] theorem State.setProbeQueue_pending (s : State) (p : PortId) (q : List CircuitId) : (s.setProbeQueue p q).pending = s.pending := rfl

/-- The record read after a write. -/
theorem State.probeQueue_setProbeQueue (s : State) (p : PortId) (q : List CircuitId) (j : PortId) :
    (s.setProbeQueue p q).probeQueue j = if j = p then q else s.probeQueue j := tget_tset _ _ _ _

@[simp] theorem State.probeQueue_setProbeQueue_same (s : State) (p : PortId) (q : List CircuitId) : (s.setProbeQueue p q).probeQueue p = q :=
  tget_tset_same _ _ _

@[simp] theorem State.port_setProbeQueue (s : State) (p : PortId) (q : List CircuitId) (j : PortId) : (s.setProbeQueue p q).port j = s.port j := rfl
@[simp] theorem State.source_setProbeQueue (s : State) (p : PortId) (q : List CircuitId) (j : SourceId) : (s.setProbeQueue p q).source j = s.source j := rfl
@[simp] theorem State.dest_setProbeQueue (s : State) (p : PortId) (q : List CircuitId) (j : DestId) : (s.setProbeQueue p q).dest j = s.dest j := rfl
@[simp] theorem State.station_setProbeQueue (s : State) (p : PortId) (q : List CircuitId) (j : StationId) : (s.setProbeQueue p q).station j = s.station j := rfl
@[simp] theorem State.entriesOf_setProbeQueue (s : State) (p : PortId) (q : List CircuitId) (j : DestId) : (s.setProbeQueue p q).entriesOf j = s.entriesOf j := rfl
@[simp] theorem State.arbiter_setProbeQueue (s : State) (p : PortId) (q : List CircuitId) (j : DestId) : (s.setProbeQueue p q).arbiter j = s.arbiter j := rfl
@[simp] theorem State.panel_setProbeQueue (s : State) (p : PortId) (q : List CircuitId) (j : PanelId) : (s.setProbeQueue p q).panel j = s.panel j := rfl
@[simp] theorem State.key_setProbeQueue (s : State) (p : PortId) (q : List CircuitId) (j : KeyId) : (s.setProbeQueue p q).key j = s.key j := rfl
@[simp] theorem State.party_setProbeQueue (s : State) (p : PortId) (q : List CircuitId) (j : PartyId) : (s.setProbeQueue p q).party j = s.party j := rfl
@[simp] theorem State.circuit_setProbeQueue (s : State) (p : PortId) (q : List CircuitId) (j : CircuitId) : (s.setProbeQueue p q).circuit j = s.circuit j := rfl
@[simp] theorem State.tap_setProbeQueue (s : State) (p : PortId) (q : List CircuitId) (j : TapId) : (s.setProbeQueue p q).tap j = s.tap j := rfl
@[simp] theorem State.cadence_setProbeQueue (s : State) (p : PortId) (q : List CircuitId) (j : CadenceId) : (s.setProbeQueue p q).cadence j = s.cadence j := rfl
@[simp] theorem State.lampPosition_setProbeQueue (s : State) (p : PortId) (q : List CircuitId) (j : PortId) : (s.setProbeQueue p q).lampPosition j = s.lampPosition j := rfl
@[simp] theorem State.event_setProbeQueue (s : State) (p : PortId) (q : List CircuitId) (j : EventKind) : (s.setProbeQueue p q).event j = s.event j := rfl

/-! ## setLampPosition -/

@[simp] theorem State.setLampPosition_phase (s : State) (p : PortId) (q : Option PanelId) : (s.setLampPosition p q).phase = s.phase := rfl
@[simp] theorem State.setLampPosition_straps (s : State) (p : PortId) (q : Option PanelId) : (s.setLampPosition p q).straps = s.straps := rfl
@[simp] theorem State.setLampPosition_restart (s : State) (p : PortId) (q : Option PanelId) : (s.setLampPosition p q).restart = s.restart := rfl
@[simp] theorem State.setLampPosition_timing (s : State) (p : PortId) (q : Option PanelId) : (s.setLampPosition p q).timing = s.timing := rfl
@[simp] theorem State.setLampPosition_ports (s : State) (p : PortId) (q : Option PanelId) : (s.setLampPosition p q).ports = s.ports := rfl
@[simp] theorem State.setLampPosition_orders (s : State) (p : PortId) (q : Option PanelId) : (s.setLampPosition p q).orders = s.orders := rfl
@[simp] theorem State.setLampPosition_replies (s : State) (p : PortId) (q : Option PanelId) : (s.setLampPosition p q).replies = s.replies := rfl
@[simp] theorem State.setLampPosition_notices (s : State) (p : PortId) (q : Option PanelId) : (s.setLampPosition p q).notices = s.notices := rfl
@[simp] theorem State.setLampPosition_probeQueues (s : State) (p : PortId) (q : Option PanelId) : (s.setLampPosition p q).probeQueues = s.probeQueues := rfl
@[simp] theorem State.setLampPosition_block (s : State) (p : PortId) (q : Option PanelId) : (s.setLampPosition p q).block = s.block := rfl
@[simp] theorem State.setLampPosition_lastUnit (s : State) (p : PortId) (q : Option PanelId) : (s.setLampPosition p q).lastUnit = s.lastUnit := rfl
@[simp] theorem State.setLampPosition_unitTaken (s : State) (p : PortId) (q : Option PanelId) : (s.setLampPosition p q).unitTaken = s.unitTaken := rfl
@[simp] theorem State.setLampPosition_sources (s : State) (p : PortId) (q : Option PanelId) : (s.setLampPosition p q).sources = s.sources := rfl
@[simp] theorem State.setLampPosition_dests (s : State) (p : PortId) (q : Option PanelId) : (s.setLampPosition p q).dests = s.dests := rfl
@[simp] theorem State.setLampPosition_stations (s : State) (p : PortId) (q : Option PanelId) : (s.setLampPosition p q).stations = s.stations := rfl
@[simp] theorem State.setLampPosition_entries (s : State) (p : PortId) (q : Option PanelId) : (s.setLampPosition p q).entries = s.entries := rfl
@[simp] theorem State.setLampPosition_nextSerial (s : State) (p : PortId) (q : Option PanelId) : (s.setLampPosition p q).nextSerial = s.nextSerial := rfl
@[simp] theorem State.setLampPosition_arbiters (s : State) (p : PortId) (q : Option PanelId) : (s.setLampPosition p q).arbiters = s.arbiters := rfl
@[simp] theorem State.setLampPosition_panels (s : State) (p : PortId) (q : Option PanelId) : (s.setLampPosition p q).panels = s.panels := rfl
@[simp] theorem State.setLampPosition_keys (s : State) (p : PortId) (q : Option PanelId) : (s.setLampPosition p q).keys = s.keys := rfl
@[simp] theorem State.setLampPosition_parties (s : State) (p : PortId) (q : Option PanelId) : (s.setLampPosition p q).parties = s.parties := rfl
@[simp] theorem State.setLampPosition_circuits (s : State) (p : PortId) (q : Option PanelId) : (s.setLampPosition p q).circuits = s.circuits := rfl
@[simp] theorem State.setLampPosition_taps (s : State) (p : PortId) (q : Option PanelId) : (s.setLampPosition p q).taps = s.taps := rfl
@[simp] theorem State.setLampPosition_cadences (s : State) (p : PortId) (q : Option PanelId) : (s.setLampPosition p q).cadences = s.cadences := rfl
@[simp] theorem State.setLampPosition_events (s : State) (p : PortId) (q : Option PanelId) : (s.setLampPosition p q).events = s.events := rfl
@[simp] theorem State.setLampPosition_sent (s : State) (p : PortId) (q : Option PanelId) : (s.setLampPosition p q).sent = s.sent := rfl
@[simp] theorem State.setLampPosition_lampDirty (s : State) (p : PortId) (q : Option PanelId) : (s.setLampPosition p q).lampDirty = s.lampDirty := rfl
@[simp] theorem State.setLampPosition_draws (s : State) (p : PortId) (q : Option PanelId) : (s.setLampPosition p q).draws = s.draws := rfl
@[simp] theorem State.setLampPosition_pending (s : State) (p : PortId) (q : Option PanelId) : (s.setLampPosition p q).pending = s.pending := rfl

/-- The record read after a write. -/
theorem State.lampPosition_setLampPosition (s : State) (p : PortId) (q : Option PanelId) (j : PortId) :
    (s.setLampPosition p q).lampPosition j = if j = p then q else s.lampPosition j := tget_tset _ _ _ _

@[simp] theorem State.lampPosition_setLampPosition_same (s : State) (p : PortId) (q : Option PanelId) : (s.setLampPosition p q).lampPosition p = q :=
  tget_tset_same _ _ _

@[simp] theorem State.port_setLampPosition (s : State) (p : PortId) (q : Option PanelId) (j : PortId) : (s.setLampPosition p q).port j = s.port j := rfl
@[simp] theorem State.source_setLampPosition (s : State) (p : PortId) (q : Option PanelId) (j : SourceId) : (s.setLampPosition p q).source j = s.source j := rfl
@[simp] theorem State.dest_setLampPosition (s : State) (p : PortId) (q : Option PanelId) (j : DestId) : (s.setLampPosition p q).dest j = s.dest j := rfl
@[simp] theorem State.station_setLampPosition (s : State) (p : PortId) (q : Option PanelId) (j : StationId) : (s.setLampPosition p q).station j = s.station j := rfl
@[simp] theorem State.entriesOf_setLampPosition (s : State) (p : PortId) (q : Option PanelId) (j : DestId) : (s.setLampPosition p q).entriesOf j = s.entriesOf j := rfl
@[simp] theorem State.arbiter_setLampPosition (s : State) (p : PortId) (q : Option PanelId) (j : DestId) : (s.setLampPosition p q).arbiter j = s.arbiter j := rfl
@[simp] theorem State.panel_setLampPosition (s : State) (p : PortId) (q : Option PanelId) (j : PanelId) : (s.setLampPosition p q).panel j = s.panel j := rfl
@[simp] theorem State.key_setLampPosition (s : State) (p : PortId) (q : Option PanelId) (j : KeyId) : (s.setLampPosition p q).key j = s.key j := rfl
@[simp] theorem State.party_setLampPosition (s : State) (p : PortId) (q : Option PanelId) (j : PartyId) : (s.setLampPosition p q).party j = s.party j := rfl
@[simp] theorem State.circuit_setLampPosition (s : State) (p : PortId) (q : Option PanelId) (j : CircuitId) : (s.setLampPosition p q).circuit j = s.circuit j := rfl
@[simp] theorem State.tap_setLampPosition (s : State) (p : PortId) (q : Option PanelId) (j : TapId) : (s.setLampPosition p q).tap j = s.tap j := rfl
@[simp] theorem State.cadence_setLampPosition (s : State) (p : PortId) (q : Option PanelId) (j : CadenceId) : (s.setLampPosition p q).cadence j = s.cadence j := rfl
@[simp] theorem State.probeQueue_setLampPosition (s : State) (p : PortId) (q : Option PanelId) (j : PortId) : (s.setLampPosition p q).probeQueue j = s.probeQueue j := rfl
@[simp] theorem State.event_setLampPosition (s : State) (p : PortId) (q : Option PanelId) (j : EventKind) : (s.setLampPosition p q).event j = s.event j := rfl

/-! ## setEvent -/

@[simp] theorem State.setEvent_phase (s : State) (k : EventKind) (r : Event) : (s.setEvent k r).phase = s.phase := rfl
@[simp] theorem State.setEvent_straps (s : State) (k : EventKind) (r : Event) : (s.setEvent k r).straps = s.straps := rfl
@[simp] theorem State.setEvent_restart (s : State) (k : EventKind) (r : Event) : (s.setEvent k r).restart = s.restart := rfl
@[simp] theorem State.setEvent_timing (s : State) (k : EventKind) (r : Event) : (s.setEvent k r).timing = s.timing := rfl
@[simp] theorem State.setEvent_ports (s : State) (k : EventKind) (r : Event) : (s.setEvent k r).ports = s.ports := rfl
@[simp] theorem State.setEvent_orders (s : State) (k : EventKind) (r : Event) : (s.setEvent k r).orders = s.orders := rfl
@[simp] theorem State.setEvent_replies (s : State) (k : EventKind) (r : Event) : (s.setEvent k r).replies = s.replies := rfl
@[simp] theorem State.setEvent_notices (s : State) (k : EventKind) (r : Event) : (s.setEvent k r).notices = s.notices := rfl
@[simp] theorem State.setEvent_probeQueues (s : State) (k : EventKind) (r : Event) : (s.setEvent k r).probeQueues = s.probeQueues := rfl
@[simp] theorem State.setEvent_lampPositions (s : State) (k : EventKind) (r : Event) : (s.setEvent k r).lampPositions = s.lampPositions := rfl
@[simp] theorem State.setEvent_block (s : State) (k : EventKind) (r : Event) : (s.setEvent k r).block = s.block := rfl
@[simp] theorem State.setEvent_lastUnit (s : State) (k : EventKind) (r : Event) : (s.setEvent k r).lastUnit = s.lastUnit := rfl
@[simp] theorem State.setEvent_unitTaken (s : State) (k : EventKind) (r : Event) : (s.setEvent k r).unitTaken = s.unitTaken := rfl
@[simp] theorem State.setEvent_sources (s : State) (k : EventKind) (r : Event) : (s.setEvent k r).sources = s.sources := rfl
@[simp] theorem State.setEvent_dests (s : State) (k : EventKind) (r : Event) : (s.setEvent k r).dests = s.dests := rfl
@[simp] theorem State.setEvent_stations (s : State) (k : EventKind) (r : Event) : (s.setEvent k r).stations = s.stations := rfl
@[simp] theorem State.setEvent_entries (s : State) (k : EventKind) (r : Event) : (s.setEvent k r).entries = s.entries := rfl
@[simp] theorem State.setEvent_nextSerial (s : State) (k : EventKind) (r : Event) : (s.setEvent k r).nextSerial = s.nextSerial := rfl
@[simp] theorem State.setEvent_arbiters (s : State) (k : EventKind) (r : Event) : (s.setEvent k r).arbiters = s.arbiters := rfl
@[simp] theorem State.setEvent_panels (s : State) (k : EventKind) (r : Event) : (s.setEvent k r).panels = s.panels := rfl
@[simp] theorem State.setEvent_keys (s : State) (k : EventKind) (r : Event) : (s.setEvent k r).keys = s.keys := rfl
@[simp] theorem State.setEvent_parties (s : State) (k : EventKind) (r : Event) : (s.setEvent k r).parties = s.parties := rfl
@[simp] theorem State.setEvent_circuits (s : State) (k : EventKind) (r : Event) : (s.setEvent k r).circuits = s.circuits := rfl
@[simp] theorem State.setEvent_taps (s : State) (k : EventKind) (r : Event) : (s.setEvent k r).taps = s.taps := rfl
@[simp] theorem State.setEvent_cadences (s : State) (k : EventKind) (r : Event) : (s.setEvent k r).cadences = s.cadences := rfl
@[simp] theorem State.setEvent_sent (s : State) (k : EventKind) (r : Event) : (s.setEvent k r).sent = s.sent := rfl
@[simp] theorem State.setEvent_lampDirty (s : State) (k : EventKind) (r : Event) : (s.setEvent k r).lampDirty = s.lampDirty := rfl
@[simp] theorem State.setEvent_draws (s : State) (k : EventKind) (r : Event) : (s.setEvent k r).draws = s.draws := rfl
@[simp] theorem State.setEvent_pending (s : State) (k : EventKind) (r : Event) : (s.setEvent k r).pending = s.pending := rfl

@[simp] theorem State.port_setEvent (s : State) (k : EventKind) (r : Event) (j : PortId) : (s.setEvent k r).port j = s.port j := rfl
@[simp] theorem State.source_setEvent (s : State) (k : EventKind) (r : Event) (j : SourceId) : (s.setEvent k r).source j = s.source j := rfl
@[simp] theorem State.dest_setEvent (s : State) (k : EventKind) (r : Event) (j : DestId) : (s.setEvent k r).dest j = s.dest j := rfl
@[simp] theorem State.station_setEvent (s : State) (k : EventKind) (r : Event) (j : StationId) : (s.setEvent k r).station j = s.station j := rfl
@[simp] theorem State.entriesOf_setEvent (s : State) (k : EventKind) (r : Event) (j : DestId) : (s.setEvent k r).entriesOf j = s.entriesOf j := rfl
@[simp] theorem State.arbiter_setEvent (s : State) (k : EventKind) (r : Event) (j : DestId) : (s.setEvent k r).arbiter j = s.arbiter j := rfl
@[simp] theorem State.panel_setEvent (s : State) (k : EventKind) (r : Event) (j : PanelId) : (s.setEvent k r).panel j = s.panel j := rfl
@[simp] theorem State.key_setEvent (s : State) (k : EventKind) (r : Event) (j : KeyId) : (s.setEvent k r).key j = s.key j := rfl
@[simp] theorem State.party_setEvent (s : State) (k : EventKind) (r : Event) (j : PartyId) : (s.setEvent k r).party j = s.party j := rfl
@[simp] theorem State.circuit_setEvent (s : State) (k : EventKind) (r : Event) (j : CircuitId) : (s.setEvent k r).circuit j = s.circuit j := rfl
@[simp] theorem State.tap_setEvent (s : State) (k : EventKind) (r : Event) (j : TapId) : (s.setEvent k r).tap j = s.tap j := rfl
@[simp] theorem State.cadence_setEvent (s : State) (k : EventKind) (r : Event) (j : CadenceId) : (s.setEvent k r).cadence j = s.cadence j := rfl
@[simp] theorem State.probeQueue_setEvent (s : State) (k : EventKind) (r : Event) (j : PortId) : (s.setEvent k r).probeQueue j = s.probeQueue j := rfl
@[simp] theorem State.lampPosition_setEvent (s : State) (k : EventKind) (r : Event) (j : PortId) : (s.setEvent k r).lampPosition j = s.lampPosition j := rfl

theorem EventKind.number_inj : ∀ a b : EventKind, a.number = b.number → a = b := by
  intro a b h; cases a <;> cases b <;> first | rfl | (exact absurd h (by decide))

/-- The event record read after a write. -/
theorem State.event_setEvent (s : State) (k : EventKind) (r : Event) (j : EventKind) :
    (s.setEvent k r).event j = if j = k then r else s.event j := by
  unfold State.setEvent State.event
  rw [tget_tset]
  by_cases h : j = k
  · simp [h]
  · have : j.number ≠ k.number := fun e => h (EventKind.number_inj _ _ e)
    simp [h, this]

@[simp] theorem State.event_setEvent_same (s : State) (k : EventKind) (r : Event) : (s.setEvent k r).event k = r :=
  tget_tset_same _ _ _

end Sys2Proof.Machine
end

