-- ==== Sys2Proof/Laws/Frames.lean ====
section
/-! SUPPORT. Laws/Frames.lean: what each shared operation of the blocks may change: one lemma per operation, in the field
names of Safety.lean. Everything else it leaves as it stands. -/

set_option Elab.async false

namespace Sys2Proof.Machine

/-! ## The algebra of frames -/

theorem Touches.refl (l : List Fld) (s : State) : Touches l s s := by
  intro f _
  cases f <;> simp [Fld.same]

theorem Touches.trans {l : List Fld} {s t u : State} (h : Touches l s t) (k : Touches l t u) : Touches l s u := by
  intro f hf
  have a := h f hf
  have b := k f hf
  cases f <;> simp_all [Fld.same]

/-- A longer list of fields says less. -/
theorem Touches.up {l m : List Fld} {s t : State} (h : Touches l s t)
    (hs : (l.all fun f => m.contains f) = true := by rfl) : Touches m s t := by
  intro f hf
  apply h f
  intro hl
  rw [List.all_eq_true] at hs
  exact hf (by simpa using hs f hl)

theorem Touches.foldl {α : Type} {l : List Fld} {f : State → α → State} (h : ∀ t x, Touches l t (f t x)) (xs : List α)
    (s : State) : Touches l s (xs.foldl f s) := by
  induction xs generalizing s with
  | nil => exact Touches.refl l s
  | cons x xs ih => exact (h s x).trans (ih _)

/-! ## One table written -/

theorem setPort_touches (s : State) (p : PortId) (r : Port) : Touches [.ports] s (s.setPort p r) := by
  intro f hf; cases f <;> simp_all [Fld.same]

theorem setSource_touches (s : State) (n : SourceId) (r : Source) : Touches [.sources] s (s.setSource n r) := by
  intro f hf; cases f <;> simp_all [Fld.same]

theorem setDest_touches (s : State) (d : DestId) (r : Dest) : Touches [.dests] s (s.setDest d r) := by
  intro f hf; cases f <;> simp_all [Fld.same]

theorem setStation_touches (s : State) (t : StationId) (r : Station) : Touches [.stations] s (s.setStation t r) := by
  intro f hf; cases f <;> simp_all [Fld.same]

theorem setEntries_touches (s : State) (d : DestId) (l : List Entry) : Touches [.entries] s (s.setEntries d l) := by
  intro f hf; cases f <;> simp_all [Fld.same]

theorem setArbiter_touches (s : State) (d : DestId) (a : Arbiter) : Touches [.arbiters] s (s.setArbiter d a) := by
  intro f hf; cases f <;> simp_all [Fld.same]

theorem setPanel_touches (s : State) (p : PanelId) (r : Panel) : Touches [.panels] s (s.setPanel p r) := by
  intro f hf; cases f <;> simp_all [Fld.same]

theorem setKey_touches (s : State) (k : KeyId) (r : Key) : Touches [.keys] s (s.setKey k r) := by
  intro f hf; cases f <;> simp_all [Fld.same]

theorem setParty_touches (s : State) (p : PartyId) (r : Party) : Touches [.parties] s (s.setParty p r) := by
  intro f hf; cases f <;> simp_all [Fld.same]

theorem setCircuit_touches (s : State) (c : CircuitId) (r : Circuit) : Touches [.circuits] s (s.setCircuit c r) := by
  intro f hf; cases f <;> simp_all [Fld.same]

theorem setTap_touches (s : State) (t : TapId) (r : Tap) : Touches [.taps] s (s.setTap t r) := by
  intro f hf; cases f <;> simp_all [Fld.same]

theorem setCadence_touches (s : State) (c : CadenceId) (r : Cadence) : Touches [.cadences] s (s.setCadence c r) := by
  intro f hf; cases f <;> simp_all [Fld.same]

theorem setProbeQueue_touches (s : State) (p : PortId) (q : List CircuitId) :
    Touches [.probeQueues] s (s.setProbeQueue p q) := by
  intro f hf; cases f <;> simp_all [Fld.same]

theorem setLampPosition_touches (s : State) (p : PortId) (q : Option PanelId) :
    Touches [.lampPositions] s (s.setLampPosition p q) := by
  intro f hf; cases f <;> simp_all [Fld.same]

theorem setEvent_touches (s : State) (k : EventKind) (r : Event) : Touches [.events] s (s.setEvent k r) := by
  intro f hf; cases f <;> simp_all [Fld.same]

theorem drawn_touches (s : State) : Touches [.draws] s s.drawn := by
  intro f hf; cases f <;> simp_all [Fld.same, State.drawn]

/-! ## Events and lamps -/

theorem offerNotice_touches (s : State) (n : Notice) : Touches [.notices] s (s.offerNotice n) := by
  unfold State.offerNotice
  split
  · intro f hf; cases f <;> simp_all [Fld.same]
  · exact Touches.refl _ _

/-- A raise touches the event records, the notice queue and the counter of free values. -/
theorem raise_touches (k : EventKind) (i : Option Nat) (s : State) :
    Touches [.events, .notices, .draws] s (raise k i s) := by
  unfold raise
  have h := (setEvent_touches s k ((s.event k).raised i)).up (m := [.events, .notices, .draws])
  dsimp only
  split
  · have h2 := h.trans ((offerNotice_touches _ { kind := k, inst := i, period := s.noticePeriod }).up)
    split
    · exact h2.trans (drawn_touches _).up
    · exact h2
  · exact h

theorem handKeys_touches (l : List KeyId) (s : State) : Touches [.lampDirty] s (handKeys l s) := by
  intro f hf; cases f <;> simp_all [Fld.same, handKeys]

theorem handKey_touches (k : KeyId) (s : State) : Touches [.lampDirty] s (handKey k s) := handKeys_touches _ s
theorem handPanel_touches (p : PanelId) (s : State) : Touches [.lampDirty] s (handPanel p s) := handKeys_touches _ s
theorem handEntry_touches (a : SourceId) (d : DestId) (s : State) : Touches [.lampDirty] s (handEntry a d s) :=
  handKeys_touches _ s
theorem handTalk_touches (p : PartyId) (t : StationId) (s : State) : Touches [.lampDirty] s (handTalk p t s) :=
  handKeys_touches _ s
theorem handReply_touches (q : PanelId) (s : State) : Touches [.lampDirty] s (handReply q s) := handKeys_touches _ s
theorem handStation_touches (t : StationId) (s : State) : Touches [.lampDirty] s (handStation t s) :=
  handKeys_touches _ s
theorem handAll_touches (s : State) : Touches [.lampDirty] s (handAll s) := handKeys_touches _ s

theorem markLamp_touches (k : KeyId) (s : State) : Touches [.panels] s (markLamp k s) := by
  unfold markLamp
  split
  · exact Touches.refl _ _
  · exact setPanel_touches _ _ _

/-- Lamps derived at the end of an event touch the panels' pending sets and the model's list of keys handed on. -/
theorem flushLamps_touches (s : State) : Touches [.panels, .lampDirty] s (flushLamps s) := by
  unfold flushLamps
  have h : Touches [.panels, .lampDirty] s (s.lampDirty.foldl (fun t k => markLamp k t) s) :=
    Touches.foldl (fun t k => (markLamp_touches k t).up) _ _
  refine h.trans ?_
  intro f hf; cases f <;> simp_all [Fld.same]

/-! ## The crosspoint store -/

theorem mapEntry_touches (s : State) (a : SourceId) (d : DestId) (f : Entry → Entry) :
    Touches [.entries] s (s.mapEntry a d f) := setEntries_touches _ _ _

theorem createEntry_touches (h : Holder) (l : Level) (c : EntryClass) (a : SourceId) (d : DestId) (s : State) :
    Touches arriveFields s (createEntry h l c a d s) := by
  unfold createEntry
  refine Touches.trans ?_ (handEntry_touches a d _).up
  intro f hf; cases f <;> simp_all [Fld.same]

theorem arrive_touches (h : Holder) (l : Level) (c : EntryClass) (a : SourceId) (d : DestId) (s : State) :
    Touches arriveFields s (arrive h l c a d s).1 := by
  unfold arrive
  split
  · split
    · exact createEntry_touches _ _ _ _ _ _
    · exact Touches.refl _ _
  · split
    · exact Touches.refl _ _
    · split
      · exact Touches.refl _ _
      · dsimp only
        split
        · exact (mapEntry_touches _ _ _ _).up.trans (handEntry_touches _ _ _).up
        · exact (mapEntry_touches _ _ _ _).up

theorem depart_touches (h : Holder) (a : SourceId) (d : DestId) (s : State) :
    Touches arriveFields s (depart h a d s) := by
  unfold depart
  split
  · exact Touches.refl _ _
  · split
    · dsimp only
      split
      · exact (mapEntry_touches _ _ _ _).up.trans (handEntry_touches _ _ _).up
      · exact (mapEntry_touches _ _ _ _).up
    · exact Touches.refl _ _

theorem writeEntryLevel_touches (l : Level) (a : SourceId) (d : DestId) (s : State) :
    Touches [.entries] s (writeEntryLevel l a d s) := mapEntry_touches _ _ _ _

theorem requestGrant_touches (k : KeyId) (a : SourceId) (d : DestId) (s : State) :
    Touches arriveFields s (requestGrant k a d s).1 := arrive_touches _ _ _ _ _ _

theorem clearStore_touches (s : State) : Touches [.entries] s (clearStore s) := by
  intro f hf; cases f <;> simp_all [Fld.same, clearStore]

/-! ## The arbiters -/

/-- What the arbiters' operations may touch. -/
abbrev arbiterFields : List Fld :=
  [.keys, .arbiters, .entries, .nextSerial, .lampDirty, .events, .notices, .draws]

theorem startWink_touches (k : KeyId) (s : State) : Touches [.keys, .lampDirty] s (startWink k s) :=
  (setKey_touches _ _ _).up.trans (handKey_touches _ _).up

theorem setStanding_touches (k : KeyId) (st : Standing) (s : State) :
    Touches [.keys, .lampDirty] s (setStanding k st s) :=
  (setKey_touches _ _ _).up.trans (handKey_touches _ _).up

theorem dropKey_touches (k : KeyId) (s : State) : Touches [.keys, .lampDirty] s (dropKey k s) :=
  ((setStanding_touches _ _ _).trans (startWink_touches _ _)).trans
    ((setKey_touches _ _ _).up.trans (handKey_touches _ _).up)

theorem takeWaiting_touches (d : DestId) (l : List Waiter) (k : KeyId) (r : Option KeyId) (s : State) :
    Touches [.keys, .arbiters, .lampDirty] s (takeWaiting d l k r s).1 := by
  unfold takeWaiting
  split
  · exact (setArbiter_touches _ _ _).up.trans (setStanding_touches _ _ _).up
  · dsimp only
    split
    · exact (setArbiter_touches _ _ _).up
    · split
      · exact (setArbiter_touches _ _ _).up
      · split
        · exact (setArbiter_touches _ _ _).up.trans (dropKey_touches _ _).up
        · exact ((setArbiter_touches _ _ _).up.trans (setStanding_touches _ _ _).up).trans (dropKey_touches _ _).up

theorem placeWaiting_touches (k : KeyId) (d : DestId) (high : Bool) (s : State) :
    Touches [.keys, .arbiters, .lampDirty] s (placeWaiting k d high s).1 := takeWaiting_touches _ _ _ _ _

theorem makeCurrent_touches (k : KeyId) (d : DestId) (s : State) :
    Touches [.keys, .arbiters, .lampDirty] s (makeCurrent k d s) :=
  (setArbiter_touches _ _ _).up.trans (setStanding_touches _ _ _).up

theorem preempt_touches (old : KeyId) (d : DestId) (s : State) : Touches arbiterFields s (preempt old d s) := by
  unfold preempt
  dsimp only
  refine Touches.trans ?_ (takeWaiting_touches _ _ _ _ _).up
  split
  · exact (depart_touches _ _ _ _).up
  · exact Touches.refl _ _

/-- A request of an arbiter. -/
theorem requestArbiter_touches (k : KeyId) (a : SourceId) (d : DestId) (s : State) :
    Touches arbiterFields s (requestArbiter k a d s).1 := by
  have hg : Touches arbiterFields s (requestGrant k a d s).1 := (requestGrant_touches k a d s).up
  unfold requestArbiter
  dsimp only
  split
  · split
    · exact hg.trans (makeCurrent_touches _ _ _).up
    · exact hg.trans (raise_touches _ _ _).up
  · split
    · split
      · exact (hg.trans (makeCurrent_touches _ _ _).up).trans (preempt_touches _ _ _)
      · exact (hg.trans (raise_touches _ _ _).up).trans (placeWaiting_touches _ _ _ _).up
    · exact (placeWaiting_touches _ _ _ _).up

theorem promote_touches (d : DestId) (l : List Waiter) (s : State) : Touches arbiterFields s (promote d l s) := by
  induction l generalizing s with
  | nil => exact (setArbiter_touches _ _ _).up
  | cons w ws ih =>
    unfold promote
    split
    · exact (dropKey_touches _ _).up.trans (ih _)
    · rename_i src _
      have hg : Touches arbiterFields s (requestGrant w.key src d s).1 := (requestGrant_touches _ _ _ _).up
      dsimp only
      split
      · exact hg.trans ((setArbiter_touches _ _ _).up.trans (setStanding_touches _ _ _).up)
      · exact (hg.trans (raise_touches _ _ _).up).trans ((dropKey_touches _ _).up.trans (ih _))

theorem currentLeaves_touches (k : KeyId) (d : DestId) (s : State) : Touches arbiterFields s (currentLeaves k d s) := by
  unfold currentLeaves
  dsimp only
  refine Touches.trans ?_ (promote_touches _ _ _)
  refine Touches.trans ?_ (setStanding_touches _ _ _).up
  split
  · exact (depart_touches _ _ _ _).up
  · exact Touches.refl _ _

theorem waitingLeaves_touches (k : KeyId) (d : DestId) (s : State) :
    Touches [.keys, .arbiters, .lampDirty] s (waitingLeaves k d s) :=
  (setArbiter_touches _ _ _).up.trans (setStanding_touches _ _ _).up

/-- A key leaving its arbiter. -/
theorem leaveArbiter_touches (k : KeyId) (s : State) : Touches arbiterFields s (leaveArbiter k s) := by
  unfold leaveArbiter
  split
  · exact Touches.refl _ _
  · split
    · exact currentLeaves_touches _ _ _
    · split
      · exact (waitingLeaves_touches _ _ _).up
      · exact Touches.refl _ _

theorem clearArbiters_touches (s : State) : Touches [.arbiters] s (clearArbiters s) := by
  intro f hf; cases f <;> simp_all [Fld.same, clearArbiters]

/-! ## Parties and reply lists -/

theorem requestPair_touches (p : PartyId) (l : Level) (s : State) (x : MemberPair) :
    Touches partyFields s (requestPair p l s x) := by
  unfold requestPair
  dsimp only
  split
  · exact (arrive_touches _ _ _ _ _ _).up
  · exact (arrive_touches _ _ _ _ _ _).up.trans (raise_touches _ _ _).up

theorem withdrawPairs_touches (p : PartyId) (l : List MemberPair) (s : State) :
    Touches arriveFields s (withdrawPairs p l s) := Touches.foldl (fun _ _ => depart_touches _ _ _ _) _ _

/-- A party's record changed, with its pairs withdrawn and requested. -/
theorem changeParty_touches (p : PartyId) (r : Party) (s : State) : Touches partyFields s (changeParty p r s) := by
  unfold changeParty
  dsimp only
  refine Touches.trans ?_ (Touches.foldl (fun _ _ => requestPair_touches _ _ _ _) _ _)
  exact (setParty_touches _ _ _).up.trans (withdrawPairs_touches _ _ _).up

theorem setTalk_touches (p : PartyId) (t : StationId) (on : Bool) (s : State) :
    Touches partyFields s (setTalk p t on s) := by
  unfold setTalk
  split
  · exact Touches.refl _ _
  · split
    · exact Touches.refl _ _
    · exact (changeParty_touches _ _ _).trans (handTalk_touches _ _ _).up

theorem acquireTalk_touches (k : KeyId) (s : State) : Touches partyFields s (acquireTalk k s).1 := by
  unfold acquireTalk
  split
  · exact Touches.refl _ _
  · split
    · exact setTalk_touches _ _ _ _
    · exact Touches.refl _ _

theorem surrenderTalk_touches (k : KeyId) (s : State) : Touches partyFields s (surrenderTalk k s) := by
  unfold surrenderTalk
  split
  · exact Touches.refl _ _
  · split
    · exact Touches.refl _ _
    · exact setTalk_touches _ _ _ _

theorem clearTalk_touches (s : State) : Touches [.parties] s (clearTalk s) := by
  intro f hf; cases f <;> simp_all [Fld.same, clearTalk]

theorem placeCall_touches (c : StationId) (q : PanelId) (s : State) :
    Touches [.panels, .lampDirty] s (placeCall c q s) :=
  (setPanel_touches _ _ _).up.trans (handReply_touches _ _).up

theorem acquireCall_touches (k : KeyId) (s : State) : Touches [.panels, .lampDirty] s (acquireCall k s).1 := by
  unfold acquireCall
  split
  · exact Touches.refl _ _
  · dsimp only
    split
    · exact Touches.refl _ _
    · exact Touches.foldl (fun _ _ => placeCall_touches _ _ _) _ _

theorem removeCaller_touches (q : PanelId) (t : StationId) (s : State) :
    Touches [.panels, .lampDirty] s (removeCaller q t s) :=
  (setPanel_touches _ _ _).up.trans (handReply_touches _ _).up

theorem emptyReplyList_touches (q : PanelId) (s : State) : Touches [.panels, .lampDirty] s (emptyReplyList q s) :=
  (setPanel_touches _ _ _).up.trans (handReply_touches _ _).up

theorem clearReplyLists_touches (s : State) : Touches [.panels] s (clearReplyLists s) := by
  intro f hf; cases f <;> simp_all [Fld.same, clearReplyLists]

/-! ## The key unit -/

theorem acquireGrant_touches (k : KeyId) (a : Option SourceId) (d : Option DestId) (s : State) :
    Touches keyFields s (acquireGrant k a d s).1 := by
  unfold acquireGrant
  split
  · dsimp only
    split
    · exact (requestGrant_touches _ _ _ _).up
    · exact (requestGrant_touches _ _ _ _).up.trans (raise_touches _ _ _).up
  · exact Touches.refl _ _

theorem acquireReply_touches (k : KeyId) (s : State) : Touches keyFields s (acquireReply k s).1 := by
  unfold acquireReply
  split
  · exact Touches.refl _ _
  · dsimp only
    split
    · exact ((removeCaller_touches _ _ _).up.trans (acquireGrant_touches _ _ _ _)).trans
        ((setKey_touches _ _ _).up.trans (handKey_touches _ _).up)
    · exact (removeCaller_touches _ _ _).up.trans (acquireGrant_touches _ _ _ _)

theorem acquireIfb_touches (k : KeyId) (s : State) : Touches keyFields s (acquireIfb k s).1 := by
  unfold acquireIfb
  split
  · split
    · exact (requestArbiter_touches _ _ _ _).up
    · exact Touches.refl _ _
  · exact Touches.refl _ _

/-- A press acquiring its action. -/
theorem acquire_touches (k : KeyId) (s : State) : Touches keyFields s (acquire k s).1 := by
  unfold acquire
  split
  · exact Touches.refl _ _
  · split
    · exact acquireGrant_touches _ _ _ _
    · exact Touches.refl _ _
  · split
    · exact acquireGrant_touches _ _ _ _
    · exact Touches.refl _ _
  · exact (acquireTalk_touches _ _).up
  · exact acquireIfb_touches _ _
  · exact (acquireCall_touches _ _).up
  · exact acquireReply_touches _ _

theorem surrenderGrant_touches (k : KeyId) (s : State) : Touches keyFields s (surrenderGrant k s) := by
  unfold surrenderGrant
  split
  · exact (depart_touches _ _ _ _).up
  · exact Touches.refl _ _

/-- A key giving up its action. -/
theorem giveUp_touches (k : KeyId) (s : State) : Touches keyFields s (giveUp k s) := by
  unfold giveUp
  split
  · exact Touches.refl _ _
  · exact surrenderGrant_touches _ _
  · exact surrenderGrant_touches _ _
  · exact (surrenderGrant_touches _ _).trans ((setKey_touches _ _ _).up.trans (handKey_touches _ _).up)
  · exact (surrenderTalk_touches _ _).up
  · exact (leaveArbiter_touches _ _).up
  · exact Touches.refl _ _

theorem enterState_touches (k : KeyId) (st : KeyState) (s : State) :
    Touches [.keys, .lampDirty] s (enterState k st s) :=
  (setKey_touches _ _ _).up.trans (handKey_touches _ _).up

theorem enterPressed_touches (k : KeyId) (s : State) : Touches [.keys, .lampDirty] s (enterPressed k s) :=
  (setKey_touches _ _ _).up.trans (handKey_touches _ _).up

theorem enterByMode_touches (k : KeyId) (s : State) : Touches [.keys, .lampDirty] s (enterByMode k s) := by
  unfold enterByMode
  split
  · exact enterState_touches _ _ _
  · exact enterState_touches _ _ _
  · exact enterPressed_touches _ _

theorem press_touches (k : KeyId) (s : State) : Touches keyFields s (press k s) := by
  unfold press
  split
  · exact Touches.refl _ _
  · split
    · dsimp only
      split
      · exact (acquire_touches _ _).trans (enterByMode_touches _ _).up
      · exact (acquire_touches _ _).trans ((enterState_touches _ _ _).up.trans (startWink_touches _ _).up)
    · exact (giveUp_touches _ _).trans (enterState_touches _ _ _).up
    all_goals exact Touches.refl _ _

theorem release_touches (k : KeyId) (s : State) : Touches keyFields s (release k s) := by
  unfold release
  split
  · exact (enterState_touches _ _ _).up
  · exact (giveUp_touches _ _).trans (enterState_touches _ _ _).up
  · exact (enterState_touches _ _ _).up
  · exact (enterState_touches _ _ _).up
  · exact Touches.refl _ _
  · exact Touches.refl _ _

theorem keyPosition_touches (k : KeyId) (down : Bool) (s : State) : Touches keyFields s (keyPosition k down s) := by
  unfold keyPosition
  split
  · exact Touches.refl _ _
  · dsimp only
    refine Touches.trans ?_ (flushLamps_touches _).up
    split
    · exact (setKey_touches _ _ _).up.trans (press_touches _ _)
    · exact (setKey_touches _ _ _).up.trans (release_touches _ _)

theorem reconcile_touches (p : PanelId) (m : BitVec 32) (s : State) : Touches keyFields s (reconcile p m s) :=
  Touches.foldl (fun _ _ => keyPosition_touches _ _ _) _ _

theorem lossRelease_touches (k : KeyId) (s : State) : Touches keyFields s (lossRelease k s) := by
  unfold lossRelease
  split
  · exact (giveUp_touches _ _).trans (enterState_touches _ _ _).up
  · exact (enterState_touches _ _ _).up

theorem applyPolicy_touches (pol : LossPolicy) (p : PanelId) (s : State) : Touches keyFields s (applyPolicy pol p s) := by
  refine Touches.foldl (fun t k => ?_) _ _
  split
  · exact (lossRelease_touches _ _).trans (flushLamps_touches _).up
  · exact Touches.refl _ _

/-- A panel going OFFLINE. -/
theorem panelOffline_touches (p : PanelId) (s : State) : Touches keyFields s (panelOffline p s) :=
  ((setPanel_touches _ _ _).up.trans (applyPolicy_touches _ _ _)).trans (raise_touches _ _ _).up

theorem keyPortLost_touches (x : PortId) (s : State) : Touches keyFields s (keyPortLost x s) := by
  refine Touches.foldl (fun t p => ?_) _ _
  split
  · exact panelOffline_touches _ _
  · exact Touches.refl _ _

theorem startSilence_touches (p : PanelId) (s : State) : Touches [.panels] s (startSilence p s) := setPanel_touches _ _ _

theorem panelOnline_touches (p : PanelId) (m : BitVec 32) (s : State) : Touches keyFields s (panelOnline p m s) := by
  unfold panelOnline
  dsimp only
  refine Touches.trans ?_ (raise_touches _ _ _).up
  refine Touches.trans ?_ (setPanel_touches _ _ _).up
  refine Touches.trans ?_ (reconcile_touches _ _ _)
  refine Touches.trans ?_ (startSilence_touches _ _).up
  exact (setPanel_touches _ _ _).up

theorem moveTarget_touches (p : PanelId) (e : Encoder) (n : Int) (s : State) :
    Touches keyCellFields s (moveTarget p e n s) := by
  unfold moveTarget
  split
  · split
    · exact (setDest_touches _ _ _).up
    · exact Touches.refl _ _
  · dsimp only
    split
    · exact (setKey_touches _ _ _).up.trans (writeEntryLevel_touches _ _ _ _).up
    · exact (setKey_touches _ _ _).up

theorem turnEncoder_touches (p : PanelId) (i : Fin 4) (n : Int) (s : State) :
    Touches keyCellFields s (turnEncoder p i n s) := by
  unfold turnEncoder
  dsimp only
  split
  · exact (setPanel_touches _ _ _).up
  · exact (setPanel_touches _ _ _).up.trans (moveTarget_touches _ _ _ _)

theorem keyCellAtOnline_touches (p : PanelId) (c : KeyCell) (s : State) :
    Touches keyCellFields s (keyCellAtOnline p c s) := by
  unfold keyCellAtOnline
  split
  · split
    · split
      · exact (keyPosition_touches _ _ _).up
      · split
        · exact (keyPosition_touches _ _ _).up
        · exact Touches.refl _ _
    · exact Touches.refl _ _
  · exact (reconcile_touches _ _ _).up
  · split
    · exact turnEncoder_touches _ _ _ _
    · exact Touches.refl _ _

/-- A key cell handed to the key unit. -/
theorem handleKeyCell_touches (x : PortId) (node : Byte) (c : KeyCell) (s : State) :
    Touches keyCellFields s (handleKeyCell x node c s) := by
  unfold handleKeyCell
  split
  · exact Touches.refl _ _
  · split
    · exact (startSilence_touches _ _).up.trans (keyCellAtOnline_touches _ _ _)
    · split
      · exact (panelOnline_touches _ _ _).up
      · exact Touches.refl _ _
      · exact Touches.refl _ _
    · exact Touches.refl _ _

theorem unconfigure_touches (p : PanelId) (s : State) : Touches keyFields s (unconfigure p s) := by
  unfold unconfigure
  dsimp only
  refine Touches.trans ?_ (setPanel_touches _ _ _).up
  refine Touches.trans ?_ (flushLamps_touches _).up
  refine Touches.trans ?_ (Touches.foldl (fun _ _ => (setKey_touches _ _ _).up) _ _)
  exact (applyPolicy_touches _ _ _).trans (emptyReplyList_touches _ _).up

theorem clearKeys_touches (s : State) : Touches [.keys] s (clearKeys s) := by
  intro f hf; cases f <;> simp_all [Fld.same, clearKeys]

/-! ## The field supervisor -/

theorem withdrawProbe_touches (c : CircuitId) (s : State) : Touches [.probeQueues] s (withdrawProbe c s) := by
  intro f hf; cases f <;> simp_all [Fld.same, withdrawProbe]

theorem startInterval_touches (c : CircuitId) (s : State) : Touches [.circuits] s (startInterval c s) :=
  setCircuit_touches _ _ _

theorem requestProbe_touches (c : CircuitId) (s : State) : Touches [.probeQueues] s (requestProbe c s) := by
  unfold requestProbe
  split
  · exact Touches.refl _ _
  · split
    · exact Touches.refl _ _
    · exact setProbeQueue_touches _ _ _

theorem declareLost_touches (c : CircuitId) (s : State) : Touches circuitFields s (declareLost c s) := by
  unfold declareLost
  dsimp only
  split
  · exact (setCircuit_touches _ _ _).up.trans (raise_touches _ _ _).up
  · exact (setCircuit_touches _ _ _).up

theorem departProbe_touches (c : CircuitId) (sent : Count) (s : State) : Touches circuitFields s (departProbe c sent s) := by
  unfold departProbe
  dsimp only
  refine Touches.trans ?_ (setCircuit_touches _ _ _).up
  split
  · exact declareLost_touches _ _
  · exact Touches.refl _ _

theorem timeoutProbe_touches (c : CircuitId) (t : BitVec 15) (s : State) : Touches circuitFields s (timeoutProbe c t s) :=
  (declareLost_touches _ _).trans (setCircuit_touches _ _ _).up

theorem measure_touches (c : CircuitId) (m : Nat) (s : State) : Touches circuitFields s (measure c m s) := by
  unfold measure
  dsimp only
  split
  · exact (setCircuit_touches _ _ _).up.trans (raise_touches _ _ _).up
  · exact (setCircuit_touches _ _ _).up

theorem loseOldest_touches (c : CircuitId) (n : Nat) (s : State) : Touches circuitFields s (loseOldest c n s) := by
  induction n generalizing s with
  | zero => exact Touches.refl _ _
  | succ n ih => exact ((declareLost_touches _ _).trans (setCircuit_touches _ _ _).up).trans (ih _)

theorem acceptEcho_touches (c : CircuitId) (t : BitVec 15) (a : Count) (s : State) :
    Touches circuitFields s (acceptEcho c t a s) := by
  unfold acceptEcho
  dsimp only
  split
  · exact (setCircuit_touches _ _ _).up
  · split
    · exact Touches.refl _ _
    · exact (loseOldest_touches _ _ _).trans (measure_touches _ _ _)

/-- An ECHO cell handed to the supervisor. -/
theorem handleEcho_touches (p : PortId) (node c : Byte) (t : BitVec 16) (a : Count) (s : State) :
    Touches circuitFields s (handleEcho p node c t a s) := by
  unfold handleEcho
  split
  · exact Touches.refl _ _
  · dsimp only
    split
    · exact Touches.refl _ _
    · split
      · exact acceptEcho_touches _ _ _ _
      · exact (setCircuit_touches _ _ _).up

theorem returnFrame_touches (c : CircuitId) (peak : Nat) (s : State) : Touches circuitFields s (returnFrame c peak s) := by
  unfold returnFrame
  dsimp only
  split
  · split
    · exact (setCircuit_touches _ _ _).up.trans (raise_touches _ _ _).up
    · exact (setCircuit_touches _ _ _).up
  · exact (setCircuit_touches _ _ _).up

theorem linkLost_touches (c : CircuitId) (s : State) : Touches [.circuits, .probeQueues] s (linkLost c s) :=
  (setCircuit_touches _ _ _).up.trans (withdrawProbe_touches _ _).up

theorem fieldPortLost_touches (p : PortId) (s : State) : Touches [.circuits, .probeQueues] s (fieldPortLost p s) := by
  refine Touches.foldl (fun t c => ?_) _ _
  split
  · exact linkLost_touches _ _
  · exact Touches.refl _ _

theorem fieldPortUp_touches (p : PortId) (s : State) : Touches [.circuits] s (fieldPortUp p s) := by
  refine Touches.foldl (fun t c => ?_) _ _
  dsimp only
  split
  · exact (setCircuit_touches _ _ _).trans (startInterval_touches _ _)
  · exact Touches.refl _ _

theorem clearCircuit_touches (c : CircuitId) (s : State) : Touches [.circuits] s (clearCircuit c s) := by
  unfold clearCircuit
  dsimp only
  split
  · exact Touches.refl _ _
  · split
    · exact (setCircuit_touches _ _ _).trans (startInterval_touches _ _)
    · exact setCircuit_touches _ _ _

theorem clearField_touches (s : State) : Touches [.circuits, .probeQueues] s (clearField s) := by
  unfold clearField
  refine Touches.trans ?_ (Touches.foldl (fun _ _ => (clearCircuit_touches _ _).up) _ _)
  intro f hf; cases f <;> simp_all [Fld.same]

theorem enableCircuit_touches (c : CircuitId) (d : DestId) (s : State) :
    Touches [.circuits, .dests] s (enableCircuit c d s) := by
  unfold enableCircuit
  dsimp only
  split
  · exact (setDest_touches _ _ _).up.trans ((setCircuit_touches _ _ _).up.trans (startInterval_touches _ _).up)
  · exact (setDest_touches _ _ _).up.trans (setCircuit_touches _ _ _).up

theorem disableCircuit_touches (c : CircuitId) (s : State) :
    Touches [.circuits, .dests, .probeQueues] s (disableCircuit c s) := by
  unfold disableCircuit
  dsimp only
  refine Touches.trans ?_ (withdrawProbe_touches _ _).up
  refine Touches.trans ?_ (setCircuit_touches _ _ _).up
  split
  · exact (setDest_touches _ _ _).up
  · exact Touches.refl _ _

/-! ## Reference timing -/

theorem reference_touches (s : State) (t : Timing) (h1 : t.period = s.timing.period) (h2 : t.sample = s.timing.sample)
    (h3 : t.place = s.timing.place) (h4 : t.position = s.timing.position) (h5 : t.atBoundary = s.timing.atBoundary) :
    Touches [.reference] s { s with timing := t } := by
  intro f hf; cases f <;> simp_all [Fld.same]

theorem referenceGone_touches (r : RefSource) (s : State) :
    Touches [.reference, .events, .notices, .draws] s (referenceGone r s) := by
  unfold referenceGone
  split
  · dsimp only
    refine Touches.trans ?_ (raise_touches _ _ _).up
    exact Touches.up (reference_touches s _ rfl rfl rfl rfl rfl)
  · exact Touches.refl _ _

theorem referenceBack_touches (r : RefSource) (s : State) : Touches [.reference] s (referenceBack r s) := by
  unfold referenceBack
  dsimp only
  split
  · exact reference_touches _ _ rfl rfl rfl rfl rfl
  · exact Touches.refl _ _

theorem selectReference_touches (r : RefSource) (s : State) :
    Touches [.reference, .events, .notices, .draws] s (selectReference r s) := by
  unfold selectReference
  dsimp only
  split
  · exact Touches.up (reference_touches s _ rfl rfl rfl rfl rfl)
  · refine Touches.trans ?_ (raise_touches _ _ _).up
    exact Touches.up (reference_touches s _ rfl rfl rfl rfl rfl)

theorem applyReference_touches (s : State) : Touches [.reference] s (applyReference s) :=
  reference_touches _ _ rfl rfl rfl rfl rfl

theorem beginPeriod_touches (s : State) : Touches [.clock] s (beginPeriod s) := by
  intro f hf; cases f <;> simp_all [Fld.same, beginPeriod]

theorem sampleTick_touches (s : State) : Touches [.clock, .unitTaken] s (sampleTick s) := by
  intro f hf; cases f <;> simp_all [Fld.same, sampleTick]

/-! ## The mix and the lane -/

/-- What the assembly of destinations may touch. -/
abbrev mixFields : List Fld := [.entries, .dests, .taps, .lampDirty, .events, .notices, .draws]

theorem closeTaps_touches (d : DestId) (s : State) : Touches [.taps] s (closeTaps d s) := by
  intro f hf; cases f <;> simp_all [Fld.same, closeTaps]

/-- One destination's assembly. -/
theorem assembleDest_touches (before : State) (d : DestId) (s : State) : Touches mixFields s (assembleDest before d s) := by
  unfold assembleDest
  dsimp only
  have h : ∀ r : Dest, ∀ g : List Entry,
      Touches mixFields s
        (g.foldl (fun t e => handEntry e.source d t)
          (closeTaps d ((s.setEntries d (s.closeEntries d)).setDest d r))) := by
    intro r g
    refine Touches.trans ?_ (Touches.foldl (fun _ _ => (handEntry_touches _ _ _).up) _ _)
    exact ((setEntries_touches _ _ _).up.trans (setDest_touches _ _ _).up).trans (closeTaps_touches _ _).up
  split
  · split
    · exact h _ _
    · exact (h _ _).trans (raise_touches _ _ _).up
  · split
    · exact h _ _
    · exact (h _ _).trans (raise_touches _ _ _).up

theorem carryLamp_touches (p : PanelId) (s : State) (x : Fin 32 × LampState) :
    Touches [.panels, .keys] s (carryLamp p s x) := (setPanel_touches _ _ _).up.trans (setKey_touches _ _ _).up

/-- What lamp cells may touch. -/
abbrev lampFields : List Fld := [.panels, .keys, .lampPositions, .draws]

theorem lampCell_touches (x : PortId) (s t : State) (cell : List Byte) (h : lampCell x s = some (cell, t)) :
    Touches lampFields s t := by
  unfold lampCell at h
  split at h
  · cases h
  · dsimp only at h
    split at h
    · cases h
      exact ((setLampPosition_touches _ _ _).up.trans (setPanel_touches _ _ _).up).trans (drawn_touches _).up
    · cases h
      exact ((setLampPosition_touches _ _ _).up.trans (Touches.foldl (fun _ _ => (carryLamp_touches _ _ _).up) _ _)).trans
        (drawn_touches _).up

theorem placeProbes_touches (x : PortId) (sent : Count) (n : Nat) (s : State) :
    Touches (.probeQueues :: circuitFields) s (placeProbes x sent n s).2 := by
  induction n generalizing s with
  | zero => exact Touches.refl _ _
  | succ n ih =>
    unfold placeProbes
    split
    · exact Touches.refl _ _
    · dsimp only
      exact (((setProbeQueue_touches _ _ _).up.trans (departProbe_touches _ _ _).up).trans (drawn_touches _).up).trans
        (ih _)

theorem placeLamps_touches (x : PortId) (n : Nat) (s : State) : Touches lampFields s (placeLamps x n s).2 := by
  induction n generalizing s with
  | zero => exact Touches.refl _ _
  | succ n ih =>
    unfold placeLamps
    split
    · exact Touches.refl _ _
    · rename_i cell t ht
      exact (lampCell_touches _ _ _ _ ht).trans (ih _)

theorem placeReplies_touches (n : Nat) (s : State) : Touches [.replies] s (placeReplies n s).2 := by
  intro f hf; cases f <;> simp_all [Fld.same, placeReplies]

theorem placeNotices_touches (n : Nat) (s : State) : Touches [.notices, .draws] s (placeNotices n s).2 := by
  induction n generalizing s with
  | zero => exact Touches.refl _ _
  | succ n ih =>
    unfold placeNotices
    split
    · exact Touches.refl _ _
    · dsimp only
      refine Touches.trans ?_ (ih _)
      refine Touches.trans ?_ (drawn_touches _).up
      intro f hf; cases f <;> simp_all [Fld.same]

/-- What the lane arbiter may touch. -/
abbrev laneFields : List Fld :=
  [.probeQueues, .circuits, .events, .notices, .draws, .panels, .keys, .lampPositions, .replies]

theorem fillLane_touches (x : PortId) (sent : Count) (s : State) : Touches laneFields s (fillLane x sent s).2 := by
  unfold fillLane
  dsimp only
  refine Touches.trans ?_ (placeLamps_touches _ _ _).up
  have h1 : Touches laneFields s (placeProbes x sent Config.cellsPerFrame s).2 := (placeProbes_touches _ _ _ _).up
  split
  · exact ((h1.trans (placeLamps_touches _ _ _).up).trans (placeReplies_touches _ _).up).trans
      (placeNotices_touches _ _).up
  · exact h1.trans (placeLamps_touches _ _ _).up

/-- What a port's assembly may touch. -/
abbrev assemblyFields : List Fld := laneFields ++ [.entries, .dests, .taps, .lampDirty, .ports, .sent]

theorem sendFrame_touches (x : PortId) (s : State) : Touches assemblyFields s (sendFrame x s) := by
  unfold sendFrame
  dsimp only
  refine Touches.trans (fillLane_touches x s.timing.sample s).up ?_
  intro f hf; cases f <;> simp_all [Fld.same]

/-- A port's assembly. -/
theorem assemblePort_touches (before s : State) (x : PortId) : Touches assemblyFields s (assemblePort before s x) := by
  unfold assemblePort
  dsimp only
  have h : Touches assemblyFields s (flushLamps ((portDests x).foldl (fun t d => assembleDest before d t) s)) :=
    Touches.trans (Touches.foldl (fun _ _ => (assembleDest_touches _ _ _).up) _ _) (flushLamps_touches _).up
  split
  · refine h.trans ?_
    intro f hf; cases f <;> simp_all [Fld.same]
  · exact h.trans (sendFrame_touches _ _)

/-! ## The receive side -/

theorem hostLost_touches (s : State) : Touches [.orders, .replies, .notices, .block] s (hostLost s) := by
  intro f hf; cases f <;> simp_all [Fld.same, hostLost]

/-- A port leaving UP or HOLDOVER. -/
theorem losePort_touches (x : PortId) (st : PortState) (s : State) : Touches lossFields s (losePort x st s) := by
  unfold losePort
  dsimp only
  refine Touches.trans ?_ (referenceGone_touches _ _).up
  refine Touches.trans ?_ (fieldPortLost_touches _ _).up
  refine Touches.trans ?_ (keyPortLost_touches _ _).up
  refine Touches.trans ?_ (raise_touches _ _ _).up
  split
  · exact (setPort_touches _ _ _).up.trans (hostLost_touches _).up
  · exact (setPort_touches _ _ _).up

/-- What a port's rise to UP may touch. -/
abbrev riseFields : List Fld := [.ports, .events, .notices, .draws, .circuits, .reference]

theorem lockPort_touches (x : PortId) (s : State) : Touches riseFields s (lockPort x s) := by
  unfold lockPort
  dsimp only
  refine Touches.trans ?_ (referenceBack_touches _ _).up
  refine Touches.trans ?_ (fieldPortUp_touches _ _).up
  refine Touches.trans ?_ (raise_touches _ _ _).up
  exact (setPort_touches _ _ _).up

theorem foldPeak_touches (n : SourceId) (peak : Nat) (s : State) : Touches [.sources] s (foldPeak n peak s) :=
  setSource_touches _ _ _

theorem returnFrames_touches (n : SourceId) (peak : Nat) (s : State) :
    Touches circuitFields s (returnFrames n peak s) := by
  refine Touches.foldl (fun t c => ?_) _ _
  split
  · exact returnFrame_touches _ _ _
  · exact Touches.refl _ _

/-- What accepting a frame's audio may touch. -/
abbrev audioFields : List Fld := [.ports, .sources, .circuits, .events, .notices, .draws]

theorem takePeaks_touches (x : PortId) (b : BufferPosition) (s : State) :
    Touches (.sources :: circuitFields) s (takePeaks x b s) :=
  Touches.foldl (fun _ _ => (foldPeak_touches _ _ _).up.trans (returnFrames_touches _ _ _).up) _ _

theorem stampFrame_touches (x : PortId) (f : Frame) (pos : Fin 3) (stamp : Count) (s : State) :
    Touches audioFields s (stampFrame x f pos stamp s) :=
  (setPort_touches _ _ _).up.trans (takePeaks_touches _ _ _).up

theorem acceptAudio_touches (x : PortId) (f : Frame) (s : State) : Touches audioFields s (acceptAudio x f s) := by
  unfold acceptAudio
  dsimp only
  split
  · exact stampFrame_touches _ _ _ _ _
  · split
    · exact stampFrame_touches _ _ _ _ _
    · exact (setPort_touches _ _ _).up.trans (raise_touches _ _ _).up

theorem reportSources_touches (x : PortId) (f : Bool) (s : State) : Touches [.sources] s (reportSources x f s) :=
  Touches.foldl (fun _ _ => setSource_touches _ _ _) _ _

/-- What a period close may touch. -/
abbrev closeFields : List Fld := .sources :: lossFields

theorem closeState_touches (x : PortId) (f : Bool) (s : State) : Touches lossFields s (closeState x f s) := by
  unfold closeState
  dsimp only
  split
  · split
    · exact (((setPort_touches _ _ _).up.trans (raise_touches _ _ _).up).trans (fieldPortUp_touches _ _).up).trans
        (referenceBack_touches _ _).up
    · exact (setPort_touches _ _ _).up
  · split
    · exact (setPort_touches _ _ _).up
    · exact losePort_touches _ _ _

theorem closePort_touches (s : State) (x : PortId) : Touches closeFields s (closePort s x) := by
  unfold closePort
  dsimp only
  have h := (reportSources_touches x (s.closesWithFrame x) s).up (m := closeFields)
  split
  · split
    · exact h.trans (setPort_touches _ _ _).up
    · exact h.trans (closeState_touches _ _ _).up
  · exact h

theorem enablePort_touches (x : PortId) (s : State) : Touches [.ports] s (enablePort x s) := setPort_touches _ _ _

theorem disablePort_touches (x : PortId) (s : State) : Touches lossFields s (disablePort x s) := by
  unfold disablePort
  dsimp only
  split
  · exact (setPort_touches _ _ _).up.trans (losePort_touches _ _ _)
  · exact (setPort_touches _ _ _).up.trans (setPort_touches _ _ _).up

theorem atBoundary_touches (b : Bool) (s : State) : Touches [.mark] s (atBoundary b s) := by
  intro f hf; cases f <;> simp_all [Fld.same, atBoundary]

theorem restartFalls_touches (s : State) : Touches [.restart] s (restartFalls s) := by
  intro f hf; cases f <;> simp_all [Fld.same, restartFalls]

theorem boundary_touches (s : State) : Touches boundaryFields s (boundary s) := by
  unfold boundary
  dsimp only
  refine Touches.trans ?_ (restartFalls_touches _).up
  refine Touches.trans ?_ (beginPeriod_touches _).up
  refine Touches.trans ?_ (atBoundary_touches _ _).up
  refine Touches.trans ?_ (flushLamps_touches _).up
  refine Touches.trans ?_ (Touches.foldl (fun _ _ => (closePort_touches _ _).up) _ _)
  refine Touches.trans ?_ (applyReference_touches _).up
  refine Touches.trans ?_ (Touches.foldl (fun _ _ => (assemblePort_touches _ _ _).up) _ _)
  exact (atBoundary_touches _ _).up

/-! ## Frames arriving -/

theorem offerOrder_touches (o : OrderCell) (s : State) :
    Touches [.orders, .events, .notices, .draws] s (offerOrder o s) := by
  unfold offerOrder
  split
  · intro f hf; cases f <;> simp_all [Fld.same]
  · exact (raise_touches _ _ _).up

theorem routeCell_touches (x : PortId) (a : Count) (s : State) (cell : List Byte) :
    Touches cellFields s (routeCell x a s cell) := by
  unfold routeCell
  dsimp only
  split
  · exact Touches.refl _ _
  · split
    · exact Touches.refl _ _
    · split
      · exact (offerOrder_touches _ _).up
      · exact Touches.refl _ _
    · exact (handleKeyCell_touches _ _ _ _).up
    · exact (handleKeyCell_touches _ _ _ _).up
    · exact (handleKeyCell_touches _ _ _ _).up
    · exact (handleEcho_touches _ _ _ _ _ _).up
    all_goals exact Touches.refl _ _

theorem acceptFrame_touches (x : PortId) (f : Frame) (s : State) : Touches frameFields s (acceptFrame x f s) :=
  (acceptAudio_touches _ _ _).up.trans (Touches.foldl (fun _ _ => (routeCell_touches _ _ _ _).up) _ _)

theorem countFrame_touches (x : PortId) (f : Frame) (s : State) : Touches frameFields s (countFrame x f s) := by
  unfold countFrame
  dsimp only
  split
  · exact ((setPort_touches _ _ _).up.trans (lockPort_touches _ _).up).trans (acceptFrame_touches _ _ _)
  · exact (setPort_touches _ _ _).up

/-- A frame arriving at a port. -/
theorem frameAt_touches (x : PortId) (bytes : List Byte) (s : State) : Touches frameFields s (frameAt x bytes s) := by
  unfold frameAt
  dsimp only
  have h : Touches frameFields s
      (match readFrame bytes with
        | none =>
          raise .frameError (some x.val) (s.setPort x { s.port x with frameErrors := satInc 65535 (s.port x).frameErrors })
        | some f => if (s.port x).state.carries then acceptFrame x f s else countFrame x f s) := by
    split
    · exact (setPort_touches _ _ _).up.trans (raise_touches _ _ _).up
    · split
      · exact acceptFrame_touches _ _ _
      · exact countFrame_touches _ _ _
  split
  · exact Touches.refl _ _
  all_goals exact h

end Sys2Proof.Machine
end

