-- ==== Sys2Proof/Laws/FramesOrders.lean ====
section
/-! SUPPORT. Laws/FramesOrders.lean: what the record writes, the orders' units and the block steps may change. -/

set_option Elab.async false

namespace Sys2Proof.Machine

/-! ## Record writes -/

/-- What a write of PORT 0..3 may touch. -/
theorem writePort_touches (x : PortId) (l : List FieldValue) (s : State) : Touches lossFields s (writePort x l s).1 := by
  unfold writePort
  split
  · exact Touches.refl _ _
  · split
    · exact Touches.refl _ _
    · dsimp only
      split
      · split
        · exact (setPort_touches _ _ _).up.trans (enablePort_touches _ _).up
        · exact (setPort_touches _ _ _).up.trans (disablePort_touches _ _)
      · exact (setPort_touches _ _ _).up

theorem writeReference_touches (l : List FieldValue) (s : State) :
    Touches [.reference, .events, .notices, .draws] s (writeReference l s).1 := by
  unfold writeReference
  split
  · exact Touches.refl _ _
  · exact selectReference_touches _ _

theorem writeSource_touches (n : SourceId) (l : List FieldValue) (s : State) :
    Touches [.sources] s (writeSource n l s).1 := by
  unfold writeSource
  split
  · exact Touches.refl _ _
  · exact setSource_touches _ _ _

theorem writeDest_touches (d : DestId) (l : List FieldValue) (s : State) :
    Touches [.dests, .arbiters] s (writeDest d l s).1 := by
  unfold writeDest
  split
  · exact Touches.refl _ _
  · split
    · exact (setDest_touches _ _ _).up
    · split
      · exact (setDest_touches _ _ _).up.trans (setArbiter_touches _ _ _).up
      · exact Touches.refl _ _

theorem writeStation_touches (t : StationId) (l : List FieldValue) (s : State) :
    Touches [.stations, .lampDirty] s (writeStation t l s).1 := by
  unfold writeStation
  split
  · exact Touches.refl _ _
  · split
    · exact (setStation_touches _ _ _).up.trans (handStation_touches _ _).up
    · exact Touches.refl _ _

theorem storePanel_touches (p : PanelId) (r : Panel) (l : List FieldValue) (s : State) :
    Touches [.panels, .lampDirty] s (storePanel p r l s) := by
  unfold storePanel
  dsimp only
  split
  · exact (setPanel_touches _ _ _).up.trans (handPanel_touches _ _).up
  · exact (setPanel_touches _ _ _).up

theorem configurePanel_touches (p : PanelId) (was now : Bool) (s : State) :
    Touches keyFields s (configurePanel p was now s) := by
  unfold configurePanel
  split
  · exact (setPanel_touches _ _ _).up
  · exact unconfigure_touches _ _
  · exact Touches.refl _ _
  · exact Touches.refl _ _

theorem writePanel_touches (p : PanelId) (l : List FieldValue) (s : State) :
    Touches keyFields s (writePanel p l s).1 := by
  unfold writePanel
  split
  · exact Touches.refl _ _
  · split
    · exact (storePanel_touches _ _ _ _).up.trans (configurePanel_touches _ _ _ _)
    · exact Touches.refl _ _

theorem writeKey_touches (k : KeyId) (l : List FieldValue) (s : State) :
    Touches [.keys, .lampDirty] s (writeKey k l s).1 := by
  unfold writeKey
  split
  · exact Touches.refl _ _
  · split
    · exact Touches.refl _ _
    · split
      · exact Touches.refl _ _
      · dsimp only
        split
        · exact (setKey_touches _ _ _).up.trans (handKey_touches _ _).up
        · exact (setKey_touches _ _ _).up

theorem writeParty_touches (p : PartyId) (l : List FieldValue) (s : State) :
    Touches partyFields s (writeParty p l s).1 := by
  unfold writeParty
  split
  · exact Touches.refl _ _
  · exact changeParty_touches _ _ _

theorem switchCircuit_touches (c : CircuitId) (was : Bool) (s : State) :
    Touches [.circuits, .dests, .probeQueues] s (switchCircuit c was s) := by
  unfold switchCircuit
  split
  · split
    · exact (enableCircuit_touches _ _ _).up
    · exact Touches.refl _ _
  · exact disableCircuit_touches _ _
  · exact Touches.refl _ _
  · exact Touches.refl _ _

theorem writeCircuit_touches (c : CircuitId) (l : List FieldValue) (s : State) :
    Touches [.circuits, .dests, .probeQueues] s (writeCircuit c l s).1 := by
  unfold writeCircuit
  split
  · exact Touches.refl _ _
  · split
    · exact (setCircuit_touches _ _ _).up.trans (switchCircuit_touches _ _ _)
    · exact Touches.refl _ _

theorem isolate_touches (up : Bool) (s : State) (n : SourceId) : Touches [.sources] s (isolate up s n) :=
  setSource_touches _ _ _

theorem enableTap_touches (t : TapId) (r : Tap) (s : State) : Touches tapFields s (enableTap t r s) := by
  unfold enableTap
  split
  · dsimp only
    have h : Touches tapFields s (r.matched.foldl (fun s n => (arrive (.tap t) r.level .talk n r.monitor s).1) s) :=
      Touches.foldl (fun _ _ => (arrive_touches _ _ _ _ _ _).up) _ _
    split
    · exact h
    · exact h.trans (Touches.foldl (fun _ _ => (isolate_touches _ _ _).up) _ _)
  · exact Touches.refl _ _

theorem disableTap_touches (t : TapId) (r : Tap) (s : State) : Touches tapFields s (disableTap t r s) := by
  unfold disableTap
  split
  · dsimp only
    have h : Touches tapFields s (r.matched.foldl (fun s n => depart (.tap t) n r.monitor s) s) :=
      Touches.foldl (fun _ _ => (depart_touches _ _ _ _).up) _ _
    split
    · exact h
    · exact h.trans (Touches.foldl (fun _ _ => (isolate_touches _ _ _).up) _ _)
  · exact Touches.refl _ _

theorem tapLevel_touches (r : Tap) (s : State) : Touches [.entries] s (tapLevel r s) := by
  unfold tapLevel
  split
  · exact Touches.foldl (fun _ _ => writeEntryLevel_touches _ _ _ _) _ _
  · exact Touches.refl _ _

theorem settleTap_touches (t : TapId) (was : Bool) (r : Tap) (l : List FieldValue) (s : State) :
    Touches tapFields s (settleTap t was r l s) := by
  unfold settleTap
  dsimp only
  have h : Touches tapFields s (if (was && names l 5) = true then tapLevel r s else s) := by
    split
    · exact (tapLevel_touches _ _).up
    · exact Touches.refl _ _
  split
  · exact h.trans (disableTap_touches _ _ _)
  · exact h

theorem writeTap_touches (t : TapId) (l : List FieldValue) (s : State) : Touches tapFields s (writeTap t l s).1 := by
  unfold writeTap
  dsimp only
  split
  · exact Touches.refl _ _
  · split
    · exact Touches.refl _ _
    · split
      · split
        · exact (setTap_touches _ _ _).up.trans (enableTap_touches _ _ _)
        · exact Touches.refl _ _
      · exact (setTap_touches _ _ _).up.trans (settleTap_touches _ _ _ _ _)

theorem markCadences_touches (s : State) : Touches [.panels] s (markCadences s) := by
  intro f hf; cases f <;> simp_all [Fld.same, markCadences]

theorem writeCadence_touches (c : CadenceId) (l : List FieldValue) (s : State) :
    Touches [.cadences, .panels] s (writeCadence c l s).1 := by
  unfold writeCadence
  split
  · exact Touches.refl _ _
  · dsimp only
    split
    · exact (setCadence_touches _ _ _).up.trans (markCadences_touches _).up
    · exact (setCadence_touches _ _ _).up

theorem writeEvent_touches (k : Fin 15) (l : List FieldValue) (s : State) :
    Touches [.events] s (writeEvent k l s).1 := by
  unfold writeEvent
  split
  · exact Touches.refl _ _
  · intro f hf; cases f <;> simp_all [Fld.same]

theorem atIndex_touches {n : Nat} (l : List Fld) (i : Nat) (w : Fin n → State → Written) (s : State)
    (h : ∀ j, Touches l s (w j s).1) : Touches l s (atIndex n i w s).1 := by
  unfold atIndex
  split
  · exact h _
  · exact Touches.refl _ _

theorem writeRecord_touches (t : TableName) (i : Nat) (l : List FieldValue) (s : State) :
    Touches t.fields s (writeRecord t i l s).1 := by
  cases t <;> unfold writeRecord <;> dsimp only [TableName.fields]
  · split
    · exact (writeReference_touches _ _).up
    · exact atIndex_touches _ _ _ _ fun _ => writePort_touches _ _ _
  · exact atIndex_touches _ _ _ _ fun _ => writeSource_touches _ _ _
  · exact atIndex_touches _ _ _ _ fun _ => writeDest_touches _ _ _
  · exact atIndex_touches _ _ _ _ fun _ => writeStation_touches _ _ _
  · exact atIndex_touches _ _ _ _ fun _ => writePanel_touches _ _ _
  · exact atIndex_touches _ _ _ _ fun _ => writeKey_touches _ _ _
  · exact atIndex_touches _ _ _ _ fun _ => writeParty_touches _ _ _
  · exact atIndex_touches _ _ _ _ fun _ => writeCircuit_touches _ _ _
  · exact atIndex_touches _ _ _ _ fun _ => writeTap_touches _ _ _
  · exact atIndex_touches _ _ _ _ fun _ => writeCadence_touches _ _ _
  · exact atIndex_touches _ _ _ _ fun _ => writeEvent_touches _ _ _

/-- A record write, by its table. -/
theorem recordWrite_touches (t : TableName) (i area : Nat) (m : BitVec 32) (v : List Byte) (s : State) :
    Touches t.fields s (recordWrite t i area m v s).1 := by
  unfold recordWrite
  split
  · exact writeRecord_touches _ _ _ _
  · exact Touches.refl _ _

/-! ## Units -/

theorem takeHead_touches (s : State) : Touches [.orders, .lastUnit, .unitTaken] s (takeHead s) := by
  intro f hf; cases f <;> simp_all [Fld.same, takeHead]

theorem takeStep_touches (s : State) : Touches [.lastUnit, .unitTaken] s (takeStep s) := by
  intro f hf; cases f <;> simp_all [Fld.same, takeStep]

theorem reply_touches (tag c : Byte) (r : Result) (m : Byte) (l : List (Option Byte)) (s : State) :
    Touches [.replies, .draws] s (reply tag c r m l s) := by
  intro f hf; cases f <;> simp_all [Fld.same, reply]

theorem withBlock_touches (s : State) (b : Option Block) : Touches [.block] s (s.withBlock b) := by
  intro f hf; cases f <;> simp_all [Fld.same, State.withBlock]

/-- An order's unit touches what its work touches, the order queue and the order unit's own fields. -/
theorem orderUnit_touches (tag : Byte) (o : Order) (body : State → State) (l : List Fld) (s : State)
    (h : ∀ t, Touches l t (body t)) : Touches (unitFields ++ l) s (orderUnit tag o body s) := by
  unfold orderUnit
  have up : ∀ {a b : State} {m : List Fld}, Touches m a b → (∀ f, f ∈ m → f ∈ unitFields ++ l) →
      Touches (unitFields ++ l) a b := fun k hs f hf => k f fun hm => hf (hs f hm)
  split
  · refine Touches.trans (up (takeHead_touches s) ?_) (Touches.trans (up (h _) ?_) (up (flushLamps_touches _) ?_))
    · intro f hf; simp at hf; rcases hf with rfl | rfl | rfl <;> simp
    · intro f hf; simp [hf]
    · intro f hf; simp at hf; rcases hf with rfl | rfl <;> simp
  · exact Touches.refl _ _

theorem readUnit_touches (tag t : Byte) (i : BitVec 16) (m : BitVec 32) (s : State) :
    Touches [.replies, .draws] s (readUnit tag t i m s) := by
  unfold readUnit
  dsimp only
  split
  · exact reply_touches _ _ _ _ _ _
  · split
    · exact reply_touches _ _ _ _ _ _
    · exact reply_touches _ _ _ _ _ _

/-- What any record write may touch. -/
abbrev writeFields : List Fld :=
  [.ports, .reference, .orders, .notices, .block, .events, .draws, .keys, .panels, .arbiters, .parties, .entries,
    .nextSerial, .lampDirty, .circuits, .probeQueues, .sources, .dests, .stations, .taps, .cadences, .replies]

theorem TableName.fields_write (t : TableName) : (t.fields.all fun f => writeFields.contains f) = true := by
  cases t <;> rfl

theorem writeUnit_touches (tag t : Byte) (i : BitVec 16) (m : BitVec 32) (v : List Byte) (s : State) :
    Touches writeFields s (writeUnit tag t i m v s) := by
  unfold writeUnit
  dsimp only
  split
  · exact (reply_touches _ _ _ _ _ _).up
  · rename_i t _
    exact ((recordWrite_touches t _ _ _ _ _).up t.fields_write).trans (reply_touches _ _ _ _ _ _).up

theorem acceptBlock_touches (b : Block) (busy : State → State) (s : State) (h : Touches blockFields s (busy s)) :
    Touches blockFields s (acceptBlock b busy s) := by
  unfold acceptBlock
  split
  · exact h
  · intro f hf; cases f <;> simp_all [Fld.same, placeBlock]

theorem blockReadUnit_touches (tag t : Byte) (i : BitVec 16) (m : BitVec 32) (c : BitVec 16) (d : Byte) (s : State) :
    Touches blockFields s (blockReadUnit tag t i m c d s) := by
  unfold blockReadUnit
  dsimp only
  split
  · exact (reply_touches _ _ _ _ _ _).up
  · split
    · exact (reply_touches _ _ _ _ _ _).up
    · split
      · exact (reply_touches _ _ _ _ _ _).up
      · exact acceptBlock_touches _ _ _ (reply_touches _ _ _ _ _ _).up

theorem fillUnit_touches (tag t : Byte) (i : BitVec 16) (m : BitVec 32) (c : BitVec 16) (d : Byte) (v : List Byte)
    (s : State) : Touches blockFields s (fillUnit tag t i m c d v s) := by
  unfold fillUnit
  dsimp only
  split
  · exact (reply_touches _ _ _ _ _ _).up
  · split
    · exact (reply_touches _ _ _ _ _ _).up
    · split
      · exact (reply_touches _ _ _ _ _ _).up
      · exact acceptBlock_touches _ _ _ (reply_touches _ _ _ _ _ _).up

theorem meterUnit_touches (tag i c : Byte) (s : State) : Touches blockFields s (meterUnit tag i c s) := by
  unfold meterUnit
  dsimp only
  split
  · exact (reply_touches _ _ _ _ _ _).up
  · exact acceptBlock_touches _ _ _ (reply_touches _ _ _ _ _ _).up

theorem routeListUnit_touches (tag d : Byte) (s : State) : Touches blockFields s (routeListUnit tag d s) :=
  acceptBlock_touches _ _ _ (reply_touches _ _ _ _ _ _).up

theorem blockReadStep_touches (b : Block) (t : TableName) (m : BitVec 32) (down : Bool) (s : State) :
    Touches blockFields s (blockReadStep b t m down s) := by
  unfold blockReadStep
  dsimp only
  split
  · exact (withBlock_touches _ _).up.trans (reply_touches _ _ _ _ _ _).up
  · exact (withBlock_touches _ _).up.trans (reply_touches _ _ _ _ _ _).up

theorem fillStep_touches (b : Block) (t : TableName) (m : BitVec 32) (down : Bool) (v : List Byte) (s : State) :
    Touches writeFields s (fillStep b t m down v s) := by
  unfold fillStep
  dsimp only
  have h : Touches writeFields s (recordWrite t b.next 16 m v s).1 := (recordWrite_touches t _ _ _ _ _).up t.fields_write
  split
  · split
    · exact (h.trans (withBlock_touches _ _).up).trans (reply_touches _ _ _ _ _ _).up
    · exact h.trans (withBlock_touches _ _).up
  · exact (h.trans (withBlock_touches _ _).up).trans (reply_touches _ _ _ _ _ _).up

theorem meterStep_touches (b : Block) (s : State) : Touches (.sources :: blockFields) s (meterStep b s) := by
  unfold meterStep
  dsimp only
  refine Touches.trans ?_ (withBlock_touches _ _).up
  refine Touches.trans (Touches.up (reply_touches _ _ _ _ _ _)) (Touches.foldl (fun _ _ => (setSource_touches _ _ _).up) _ _)

theorem routeListStep_touches (b : Block) (d : DestId) (p : Option Nat) (s : State) :
    Touches blockFields s (routeListStep b d p s) := by
  unfold routeListStep
  exact (withBlock_touches _ _).up.trans (reply_touches _ _ _ _ _ _).up

theorem eachRoute_touches {α β : Type} (l : List Fld) (f : α → State → State × β) (h : ∀ x t, Touches l t (f x t).1)
    (xs : List α) (s : State) : Touches l s (eachRoute f xs s).1 := by
  induction xs generalizing s with
  | nil => exact Touches.refl _ _
  | cons x xs ih =>
    unfold eachRoute
    exact (h x s).trans (ih _)

theorem addRoute_touches (r : RouteArg) (s : State) : Touches arriveFields s (addRoute r s).1 := by
  unfold addRoute
  dsimp only
  repeat' split
  all_goals first | exact Touches.refl _ _ | exact arrive_touches _ _ _ _ _ _

theorem removeRoute_touches (r : PairArg) (s : State) : Touches arriveFields s (removeRoute r s).1 := by
  unfold removeRoute
  dsimp only
  split
  · exact depart_touches _ _ _ _
  · exact Touches.refl _ _

theorem nudgeRoute_touches (down : Bool) (c : Nat) (r : PairArg) (s : State) :
    Touches arriveFields s (nudgeRoute down c r s).1 := by
  unfold nudgeRoute
  dsimp only
  split
  · exact Touches.refl _ _
  · split
    · exact (writeEntryLevel_touches _ _ _ _).up
    · exact Touches.refl _ _

/-- What a route order may touch. -/
abbrev routeFields : List Fld := arriveFields ++ [.replies, .draws]

theorem routeAddUnit_touches (tag c : Byte) (r : List RouteArg) (s : State) :
    Touches routeFields s (routeAddUnit tag c r s) := by
  unfold routeAddUnit
  dsimp only
  split
  · exact (eachRoute_touches arriveFields _ addRoute_touches _ _).up.trans (reply_touches _ _ _ _ _ _).up
  · exact (reply_touches _ _ _ _ _ _).up

theorem routeRemoveUnit_touches (tag c : Byte) (r : List PairArg) (s : State) :
    Touches routeFields s (routeRemoveUnit tag c r s) := by
  unfold routeRemoveUnit
  dsimp only
  split
  · exact (eachRoute_touches arriveFields _ removeRoute_touches _ _).up.trans (reply_touches _ _ _ _ _ _).up
  · exact (reply_touches _ _ _ _ _ _).up

theorem routeNudgeUnit_touches (tag c d k : Byte) (r : List PairArg) (s : State) :
    Touches routeFields s (routeNudgeUnit tag c d k r s) := by
  unfold routeNudgeUnit
  dsimp only
  split
  · exact (reply_touches _ _ _ _ _ _).up
  · split
    · split
      · exact (eachRoute_touches arriveFields _ (nudgeRoute_touches _ _) _ _).up.trans (reply_touches _ _ _ _ _ _).up
      · exact (reply_touches _ _ _ _ _ _).up
    · exact (reply_touches _ _ _ _ _ _).up

theorem swapStatics_touches (a b : DestId) (s : State) : Touches arriveFields s (swapStatics a b s) := by
  unfold swapStatics
  dsimp only
  have hc : ∀ l d t, Touches arriveFields t (clearStatics l d t) :=
    fun l d t => Touches.foldl (fun _ _ => depart_touches _ _ _ _) _ _
  have hp : ∀ l d t, Touches arriveFields t (placeStatics l d t) :=
    fun l d t => Touches.foldl (fun _ _ => arrive_touches _ _ _ _ _ _) _ _
  exact ((hc _ _ _).trans (hc _ _ _)).trans ((hp _ _ _).trans (hp _ _ _))

theorem swapUnit_touches (tag a b : Byte) (s : State) : Touches routeFields s (swapUnit tag a b s) := by
  unfold swapUnit
  dsimp only
  split
  · exact (swapStatics_touches _ _ _).up.trans (reply_touches _ _ _ _ _ _).up
  · exact (reply_touches _ _ _ _ _ _).up

/-- What a party order may touch. -/
abbrev partyOrderFields : List Fld := .replies :: partyFields

theorem partyJoinUnit_touches (tag p t l : Byte) (s : State) :
    Touches partyOrderFields s (partyJoinUnit tag p t l s) := by
  unfold partyJoinUnit
  dsimp only
  split
  · exact (reply_touches _ _ _ _ _ _).up
  · exact (changeParty_touches _ _ _).up.trans (reply_touches _ _ _ _ _ _).up

theorem partyLeaveUnit_touches (tag p t : Byte) (s : State) :
    Touches partyOrderFields s (partyLeaveUnit tag p t s) := by
  unfold partyLeaveUnit
  dsimp only
  split
  · split
    · exact (reply_touches _ _ _ _ _ _).up
    · refine Touches.trans ?_ (reply_touches _ _ _ _ _ _).up
      split
      · exact (changeParty_touches _ _ _).up.trans (handTalk_touches _ _ _).up
      · exact (changeParty_touches _ _ _).up
  · exact (reply_touches _ _ _ _ _ _).up

theorem partyFlagsUnit_touches (tag p t n v : Byte) (s : State) :
    Touches partyOrderFields s (partyFlagsUnit tag p t n v s) := by
  unfold partyFlagsUnit
  dsimp only
  split
  · split
    · exact (reply_touches _ _ _ _ _ _).up
    · split
      · exact (reply_touches _ _ _ _ _ _).up
      · refine Touches.trans ?_ (reply_touches _ _ _ _ _ _).up
        split
        · exact (changeParty_touches _ _ _).up
        · exact (changeParty_touches _ _ _).up.trans (handTalk_touches _ _ _).up
  · exact (reply_touches _ _ _ _ _ _).up

theorem statusReadUnit_touches (tag : Byte) (k : BitVec 16) (s : State) :
    Touches [.replies, .draws] s (statusReadUnit tag k s) := by
  unfold statusReadUnit
  dsimp only
  split <;> exact reply_touches _ _ _ _ _ _

theorem clearKinds_touches (k : BitVec 16) (s : State) : Touches [.events] s (clearKinds k s) := by
  refine Touches.foldl (fun t j => ?_) _ _
  split
  · exact setEvent_touches _ _ _
  · exact Touches.refl _ _

theorem statusClearUnit_touches (tag : Byte) (k : BitVec 16) (s : State) :
    Touches [.events, .replies, .draws] s (statusClearUnit tag k s) := by
  unfold statusClearUnit
  dsimp only
  split
  · exact (reply_touches _ _ _ _ _ _).up
  · exact (clearKinds_touches _ _).up.trans (reply_touches _ _ _ _ _ _).up

/-- What CLEAR_DYNAMIC may touch. -/
abbrev clearFields : List Fld :=
  [.keys, .entries, .parties, .arbiters, .panels, .circuits, .probeQueues, .lampDirty, .block, .replies, .draws]

theorem clearAll_touches (s : State) : Touches clearFields s (clearAll s) := by
  unfold clearAll
  refine Touches.trans ?_ (handAll_touches _).up
  refine Touches.trans ?_ (clearField_touches _).up
  refine Touches.trans ?_ (clearReplyLists_touches _).up
  refine Touches.trans ?_ (clearArbiters_touches _).up
  refine Touches.trans ?_ (clearTalk_touches _).up
  refine Touches.trans ?_ (clearStore_touches _).up
  exact (clearKeys_touches _).up

theorem abortReply_touches (b : Block) (s : State) : Touches [.replies, .draws] s (abortReply b s) := by
  unfold abortReply
  split <;> exact reply_touches _ _ _ _ _ _

theorem clearDynamicUnit_touches (tag : Byte) (s : State) : Touches clearFields s (clearDynamicUnit tag s) := by
  unfold clearDynamicUnit
  dsimp only
  refine Touches.trans ?_ (reply_touches _ _ _ _ _ _).up
  refine Touches.trans ?_ (clearAll_touches _)
  split
  · refine Touches.trans ?_ (abortReply_touches _ _).up
    exact (withBlock_touches s none).up
  · exact Touches.refl _ _

theorem restartUnit_touches (s : State) : Touches [.restart] s (restartUnit s) := by
  intro f hf; cases f <;> simp_all [Fld.same, restartUnit]

end Sys2Proof.Machine
end

