-- ==== Sys2Proof/Laws/Closure.lean ====
section
/-! SUPPORT. Laws/Closure.lean: what a command can do to the crosspoint store, the parties, the stations and the taps, said
once: a property of those tables that survives the few moves of `StoreClosed` survives every command. -/

set_option Elab.async false

namespace Sys2Proof.Machine

/-- Every field but the store, the parties, the stations and the taps. -/
abbrev storeBlind : List Fld :=
  [.phase, .straps, .restart, .clock, .reference, .mark, .ports, .orders, .replies, .notices, .probeQueues,
    .lampPositions, .block, .lastUnit, .unitTaken, .sources, .dests, .arbiters, .panels, .keys, .circuits, .cadences,
    .events, .sent, .lampDirty, .draws, .pending]

/-- A property of the store, the parties, the stations and the taps that survives each move the part makes on them. -/
structure StoreClosed (P : State → Prop) : Prop where
  other : ∀ {s t : State}, Touches storeBlind s t → P s → P t
  arrive : ∀ h l c a d s, (∀ p, h ≠ Holder.party p) → P s → P (arrive h l c a d s).1
  depart : ∀ h a d s, (∀ p, h ≠ Holder.party p) → P s → P (depart h a d s)
  level : ∀ l a d s, P s → P (writeEntryLevel l a d s)
  change : ∀ p r s, P s → P (changeParty p r s)
  assemble : ∀ before d s, P s → P (assembleDest before d s)
  clear : ∀ s, P s → P (clearTalk (clearStore s))
  station : ∀ t r s, s.stationInUse t = false → P s → P (s.setStation t r)
  tap : ∀ t l s, P s → P (writeTap t l s).1
  blank : ∀ ph st dr pe, P (State.blank ph st dr pe)

variable {P : State → Prop}

theorem foldl_keeps {α : Type} {f : State → α → State} (h : ∀ t x, P t → P (f t x)) (xs : List α) (s : State)
    (hs : P s) : P (xs.foldl f s) := by
  induction xs generalizing s with
  | nil => exact hs
  | cons x xs ih => exact ih _ (h s x hs)

namespace StoreClosed

/-! ## Grants and arbiters -/

theorem grant (hP : StoreClosed P) (k : KeyId) (a : SourceId) (d : DestId) (s : State) (h : P s) :
    P (requestGrant k a d s).1 := hP.arrive _ _ _ _ _ _ (by intro p; simp) h

theorem ungrant (hP : StoreClosed P) (k : KeyId) (a : SourceId) (d : DestId) (s : State) (h : P s) :
    P (Machine.depart (.grant k) a d s) := hP.depart _ _ _ _ (by intro p; simp) h

theorem raise (hP : StoreClosed P) (k : EventKind) (i : Option Nat) (s : State) (h : P s) : P (Machine.raise k i s) :=
  hP.other (raise_touches _ _ _).up h

theorem preempt (hP : StoreClosed P) (old : KeyId) (d : DestId) (s : State) (h : P s) : P (Machine.preempt old d s) := by
  unfold Machine.preempt
  dsimp only
  refine hP.other (takeWaiting_touches _ _ _ _ _).up ?_
  split
  · exact hP.ungrant _ _ _ _ h
  · exact h

theorem requestArbiter (hP : StoreClosed P) (k : KeyId) (a : SourceId) (d : DestId) (s : State) (h : P s) :
    P (Machine.requestArbiter k a d s).1 := by
  have hg := hP.grant k a d s h
  unfold Machine.requestArbiter
  dsimp only
  split
  · split
    · exact hP.other (makeCurrent_touches _ _ _).up hg
    · exact hP.raise _ _ _ hg
  · split
    · split
      · exact hP.preempt _ _ _ (hP.other (makeCurrent_touches _ _ _).up hg)
      · exact hP.other (placeWaiting_touches _ _ _ _).up (hP.raise _ _ _ hg)
    · exact hP.other (placeWaiting_touches _ _ _ _).up h

theorem promote (hP : StoreClosed P) (d : DestId) (l : List Waiter) (s : State) (h : P s) :
    P (Machine.promote d l s) := by
  induction l generalizing s with
  | nil => exact hP.other (setArbiter_touches _ _ _).up h
  | cons w ws ih =>
    unfold Machine.promote
    split
    · exact ih _ (hP.other (dropKey_touches _ _).up h)
    · rename_i src _
      have hg := hP.grant w.key src d s h
      dsimp only
      split
      · exact hP.other (setStanding_touches _ _ _).up (hP.other (setArbiter_touches _ _ _).up hg)
      · exact ih _ (hP.other (dropKey_touches _ _).up (hP.raise _ _ _ hg))

theorem leaveArbiter (hP : StoreClosed P) (k : KeyId) (s : State) (h : P s) : P (Machine.leaveArbiter k s) := by
  unfold Machine.leaveArbiter
  split
  · exact h
  · split
    · unfold currentLeaves
      dsimp only
      refine hP.promote _ _ _ (hP.other (setStanding_touches _ _ _).up ?_)
      split
      · exact hP.ungrant _ _ _ _ h
      · exact h
    · split
      · exact hP.other (waitingLeaves_touches _ _ _).up h
      · exact h

/-! ## Parties -/

theorem setTalk (hP : StoreClosed P) (p : PartyId) (t : StationId) (on : Bool) (s : State) (h : P s) :
    P (Machine.setTalk p t on s) := by
  unfold Machine.setTalk
  split
  · exact h
  · split
    · exact h
    · exact hP.other (handTalk_touches _ _ _).up (hP.change _ _ _ h)

theorem acquireTalk (hP : StoreClosed P) (k : KeyId) (s : State) (h : P s) : P (Machine.acquireTalk k s).1 := by
  unfold Machine.acquireTalk
  split
  · exact h
  · split
    · exact hP.setTalk _ _ _ _ h
    · exact h

theorem surrenderTalk (hP : StoreClosed P) (k : KeyId) (s : State) (h : P s) : P (Machine.surrenderTalk k s) := by
  unfold Machine.surrenderTalk
  split
  · exact h
  · split
    · exact h
    · exact hP.setTalk _ _ _ _ h

/-! ## The key unit -/

theorem acquireGrant (hP : StoreClosed P) (k : KeyId) (a : Option SourceId) (d : Option DestId) (s : State) (h : P s) :
    P (Machine.acquireGrant k a d s).1 := by
  unfold Machine.acquireGrant
  split
  · dsimp only
    split
    · exact hP.grant _ _ _ _ h
    · exact hP.raise _ _ _ (hP.grant _ _ _ _ h)
  · exact h

theorem acquireReply (hP : StoreClosed P) (k : KeyId) (s : State) (h : P s) : P (Machine.acquireReply k s).1 := by
  unfold Machine.acquireReply
  split
  · exact h
  · have hr := fun q t => hP.other (removeCaller_touches q t s).up h
    dsimp only
    split
    · exact hP.other (handKey_touches _ _).up (hP.other (setKey_touches _ _ _).up (hP.acquireGrant _ _ _ _ (hr _ _)))
    · exact hP.acquireGrant _ _ _ _ (hr _ _)

theorem acquireIfb (hP : StoreClosed P) (k : KeyId) (s : State) (h : P s) : P (Machine.acquireIfb k s).1 := by
  unfold Machine.acquireIfb
  split
  · split
    · exact hP.requestArbiter _ _ _ _ h
    · exact h
  · exact h

theorem acquire (hP : StoreClosed P) (k : KeyId) (s : State) (h : P s) : P (Machine.acquire k s).1 := by
  unfold Machine.acquire
  split
  · exact h
  · split
    · exact hP.acquireGrant _ _ _ _ h
    · exact h
  · split
    · exact hP.acquireGrant _ _ _ _ h
    · exact h
  · exact hP.acquireTalk _ _ h
  · exact hP.acquireIfb _ _ h
  · exact hP.other (acquireCall_touches _ _).up h
  · exact hP.acquireReply _ _ h

theorem surrenderGrant (hP : StoreClosed P) (k : KeyId) (s : State) (h : P s) : P (Machine.surrenderGrant k s) := by
  unfold Machine.surrenderGrant
  split
  · exact hP.ungrant _ _ _ _ h
  · exact h

theorem giveUp (hP : StoreClosed P) (k : KeyId) (s : State) (h : P s) : P (Machine.giveUp k s) := by
  unfold Machine.giveUp
  split
  · exact h
  · exact hP.surrenderGrant _ _ h
  · exact hP.surrenderGrant _ _ h
  · exact hP.other (handKey_touches _ _).up (hP.other (setKey_touches _ _ _).up (hP.surrenderGrant _ _ h))
  · exact hP.surrenderTalk _ _ h
  · exact hP.leaveArbiter _ _ h
  · exact h

theorem press (hP : StoreClosed P) (k : KeyId) (s : State) (h : P s) : P (Machine.press k s) := by
  unfold Machine.press
  split
  · exact h
  · split
    · dsimp only
      split
      · exact hP.other (enterByMode_touches _ _).up (hP.acquire _ _ h)
      · exact hP.other (startWink_touches _ _).up (hP.other (enterState_touches _ _ _).up (hP.acquire _ _ h))
    · exact hP.other (enterState_touches _ _ _).up (hP.giveUp _ _ h)
    all_goals exact h

theorem release (hP : StoreClosed P) (k : KeyId) (s : State) (h : P s) : P (Machine.release k s) := by
  unfold Machine.release
  split
  · exact hP.other (enterState_touches _ _ _).up h
  · exact hP.other (enterState_touches _ _ _).up (hP.giveUp _ _ h)
  · exact hP.other (enterState_touches _ _ _).up h
  · exact hP.other (enterState_touches _ _ _).up h
  · exact h
  · exact h

theorem keyPosition (hP : StoreClosed P) (k : KeyId) (down : Bool) (s : State) (h : P s) :
    P (Machine.keyPosition k down s) := by
  unfold Machine.keyPosition
  split
  · exact h
  · have h1 := hP.other (setKey_touches s k { s.key k with down := down }).up h
    dsimp only
    refine hP.other (flushLamps_touches _).up ?_
    split
    · exact hP.press _ _ h1
    · exact hP.release _ _ h1

theorem reconcile (hP : StoreClosed P) (p : PanelId) (m : BitVec 32) (s : State) (h : P s) :
    P (Machine.reconcile p m s) := foldl_keeps (fun _ _ k => hP.keyPosition _ _ _ k) _ _ h

theorem lossRelease (hP : StoreClosed P) (k : KeyId) (s : State) (h : P s) : P (Machine.lossRelease k s) := by
  unfold Machine.lossRelease
  split
  · exact hP.other (enterState_touches _ _ _).up (hP.giveUp _ _ h)
  · exact hP.other (enterState_touches _ _ _).up h

theorem applyPolicy (hP : StoreClosed P) (pol : LossPolicy) (p : PanelId) (s : State) (h : P s) :
    P (Machine.applyPolicy pol p s) := by
  refine foldl_keeps (fun t k ht => ?_) _ _ h
  split
  · exact hP.other (flushLamps_touches _).up (hP.lossRelease _ _ ht)
  · exact ht

theorem panelOffline (hP : StoreClosed P) (p : PanelId) (s : State) (h : P s) : P (Machine.panelOffline p s) :=
  hP.raise _ _ _ (hP.applyPolicy _ _ _ (hP.other (setPanel_touches _ _ _).up h))

theorem keyPortLost (hP : StoreClosed P) (x : PortId) (s : State) (h : P s) : P (Machine.keyPortLost x s) := by
  refine foldl_keeps (fun t p ht => ?_) _ _ h
  split
  · exact hP.panelOffline _ _ ht
  · exact ht

theorem panelOnline (hP : StoreClosed P) (p : PanelId) (m : BitVec 32) (s : State) (h : P s) :
    P (Machine.panelOnline p m s) := by
  unfold Machine.panelOnline
  dsimp only
  refine hP.raise _ _ _ (hP.other (setPanel_touches _ _ _).up (hP.reconcile _ _ _ ?_))
  exact hP.other (startSilence_touches _ _).up (hP.other (setPanel_touches _ _ _).up h)

theorem turnEncoder (hP : StoreClosed P) (p : PanelId) (i : Fin 4) (n : Int) (s : State) (h : P s) :
    P (Machine.turnEncoder p i n s) := by
  unfold Machine.turnEncoder
  dsimp only
  split
  · exact hP.other (setPanel_touches _ _ _).up h
  · unfold moveTarget
    split
    · split
      · exact hP.other (setDest_touches _ _ _).up (hP.other (setPanel_touches _ _ _).up h)
      · exact hP.other (setPanel_touches _ _ _).up h
    · dsimp only
      split
      · exact hP.level _ _ _ _ (hP.other (setKey_touches _ _ _).up (hP.other (setPanel_touches _ _ _).up h))
      · exact hP.other (setKey_touches _ _ _).up (hP.other (setPanel_touches _ _ _).up h)

theorem handleKeyCell (hP : StoreClosed P) (x : PortId) (node : Byte) (c : KeyCell) (s : State) (h : P s) :
    P (Machine.handleKeyCell x node c s) := by
  unfold Machine.handleKeyCell
  split
  · exact h
  · rename_i p _
    have h1 : P (startSilence p s) := hP.other (startSilence_touches _ _).up h
    split
    · unfold keyCellAtOnline
      split
      · split
        · split
          · exact hP.keyPosition _ _ _ h1
          · split
            · exact hP.keyPosition _ _ _ h1
            · exact h1
        · exact h1
      · exact hP.reconcile _ _ _ h1
      · split
        · exact hP.turnEncoder _ _ _ _ h1
        · exact h1
    · split
      · exact hP.panelOnline _ _ _ h
      · exact h
      · exact h
    · exact h

theorem unconfigure (hP : StoreClosed P) (p : PanelId) (s : State) (h : P s) : P (Machine.unconfigure p s) := by
  unfold Machine.unconfigure
  dsimp only
  refine hP.other (setPanel_touches _ _ _).up (hP.other (flushLamps_touches _).up ?_)
  refine foldl_keeps (fun t k ht => hP.other (setKey_touches _ _ _).up ht) _ _ ?_
  exact hP.other (emptyReplyList_touches _ _).up (hP.applyPolicy _ _ _ h)

/-! ## The boundary -/

theorem losePort (hP : StoreClosed P) (x : PortId) (st : PortState) (s : State) (h : P s) :
    P (Machine.losePort x st s) := by
  unfold Machine.losePort
  dsimp only
  refine hP.other (referenceGone_touches _ _).up (hP.other (fieldPortLost_touches _ _).up (hP.keyPortLost _ _ ?_))
  refine hP.raise _ _ _ ?_
  split
  · exact hP.other (hostLost_touches _).up (hP.other (setPort_touches _ _ _).up h)
  · exact hP.other (setPort_touches _ _ _).up h

theorem closePort (hP : StoreClosed P) (s : State) (x : PortId) (h : P s) : P (Machine.closePort s x) := by
  unfold Machine.closePort
  dsimp only
  have h1 := hP.other (reportSources_touches x (s.closesWithFrame x) s).up h
  split
  · split
    · exact hP.other (setPort_touches _ _ _).up h1
    · unfold closeState
      dsimp only
      split
      · split
        · exact hP.other (referenceBack_touches _ _).up (hP.other (fieldPortUp_touches _ _).up
            (hP.raise _ _ _ (hP.other (setPort_touches _ _ _).up h1)))
        · exact hP.other (setPort_touches _ _ _).up h1
      · split
        · exact hP.other (setPort_touches _ _ _).up h1
        · exact hP.losePort _ _ _ h1
  · exact h1

theorem assemblePort (hP : StoreClosed P) (before s : State) (x : PortId) (h : P s) :
    P (Machine.assemblePort before s x) := by
  unfold Machine.assemblePort
  dsimp only
  have h1 : P (flushLamps ((portDests x).foldl (fun t d => assembleDest before d t) s)) :=
    hP.other (flushLamps_touches _).up (foldl_keeps (fun t d ht => hP.assemble _ _ _ ht) _ _ h)
  split
  · refine hP.other ?_ h1
    intro f hf; cases f <;> simp_all [Fld.same]
  · unfold sendFrame
    dsimp only
    generalize flushLamps ((portDests x).foldl (fun t d => assembleDest before d t) s) = u at h1 ⊢
    refine hP.other (s := (fillLane x u.timing.sample u).2) ?_ (hP.other (fillLane_touches x _ u).up h1)
    intro f hf; cases f <;> simp_all [Fld.same]

theorem boundary (hP : StoreClosed P) (s : State) (h : P s) : P (Machine.boundary s) := by
  unfold Machine.boundary
  dsimp only
  refine hP.other (restartFalls_touches _).up (hP.other (beginPeriod_touches _).up ?_)
  refine hP.other (atBoundary_touches _ _).up (hP.other (flushLamps_touches _).up ?_)
  refine foldl_keeps (fun t x ht => hP.closePort _ _ ht) _ _ (hP.other (applyReference_touches _).up ?_)
  exact foldl_keeps (fun t x ht => hP.assemblePort _ _ _ ht) _ _ (hP.other (atBoundary_touches _ _).up h)

/-! ## Frames -/

theorem frameAt (hP : StoreClosed P) (x : PortId) (bytes : List Byte) (s : State) (h : P s) :
    P (Machine.frameAt x bytes s) := by
  have cell : ∀ a t c, P t → P (routeCell x a t c) := by
    intro a t c ht
    unfold routeCell
    dsimp only
    split
    · exact ht
    · split
      · exact ht
      · split
        · exact hP.other (offerOrder_touches _ _).up ht
        · exact ht
      · exact hP.handleKeyCell _ _ _ _ ht
      · exact hP.handleKeyCell _ _ _ _ ht
      · exact hP.handleKeyCell _ _ _ _ ht
      · exact hP.other (handleEcho_touches _ _ _ _ _ _).up ht
      all_goals exact ht
  have accept : ∀ f t, P t → P (acceptFrame x f t) := fun f t ht =>
    foldl_keeps (fun _ _ hu => cell _ _ _ hu) _ _ (hP.other (acceptAudio_touches _ _ _).up ht)
  have count : ∀ f t, P t → P (countFrame x f t) := by
    intro f t ht
    have h1 := hP.other (setPort_touches t x ((t.port x).counted f.seq)).up ht
    unfold countFrame
    dsimp only
    split
    · exact accept _ _ (hP.other (lockPort_touches _ _).up h1)
    · exact h1
  have good : P
      (match readFrame bytes with
        | none =>
          Machine.raise .frameError (some x.val)
            (s.setPort x { s.port x with frameErrors := satInc 65535 (s.port x).frameErrors })
        | some f => if (s.port x).state.carries then acceptFrame x f s else countFrame x f s) := by
    split
    · exact hP.raise _ _ _ (hP.other (setPort_touches _ _ _).up h)
    · split
      · exact accept _ _ h
      · exact count _ _ h
  unfold Machine.frameAt
  dsimp only
  split
  · exact h
  all_goals exact good

/-! ## Orders -/

theorem reply (hP : StoreClosed P) (tag c : Byte) (r : Result) (m : Byte) (l : List (Option Byte)) (s : State)
    (h : P s) : P (Machine.reply tag c r m l s) := hP.other (reply_touches _ _ _ _ _ _).up h

theorem orderUnit (hP : StoreClosed P) (tag : Byte) (o : Order) (body : State → State) (s : State)
    (hb : ∀ t, P t → P (body t)) (h : P s) : P (Machine.orderUnit tag o body s) := by
  unfold Machine.orderUnit
  split
  · exact hP.other (flushLamps_touches _).up (hb _ (hP.other (takeHead_touches _).up h))
  · exact h

theorem writeRecord (hP : StoreClosed P) (t : TableName) (i : Nat) (l : List FieldValue) (s : State) (h : P s) :
    P (Machine.writeRecord t i l s).1 := by
  have at_ : ∀ {n : Nat} (w : Fin n → State → Written), (∀ j, P (w j s).1) → P (atIndex n i w s).1 := by
    intro n w hw
    unfold atIndex
    split
    · exact hw _
    · exact h
  cases t <;> unfold Machine.writeRecord <;> dsimp only
  · split
    · exact hP.other (writeReference_touches _ _).up h
    · refine at_ _ fun x => ?_
      unfold writePort
      split
      · exact h
      · split
        · exact h
        · rename_i r _ _
          have h1 := hP.other (setPort_touches s x { s.port x with width := r.width }).up h
          dsimp only
          split
          · split
            · exact hP.other (enablePort_touches _ _).up h1
            · unfold disablePort
              dsimp only
              split
              · exact hP.losePort _ _ _ (hP.other (setPort_touches _ _ _).up h1)
              · exact hP.other (setPort_touches _ _ _).up (hP.other (setPort_touches _ _ _).up h1)
          · exact h1
  · exact at_ _ fun _ => hP.other (writeSource_touches _ _ _).up h
  · exact at_ _ fun _ => hP.other (writeDest_touches _ _ _).up h
  · refine at_ _ fun t => ?_
    unfold writeStation
    split
    · exact h
    · split
      · rename_i r _ _ hc
        refine hP.other (handStation_touches _ _).up (hP.station _ _ _ ?_ h)
        revert hc
        unfold State.stationCheck
        cases s.stationInUse t <;> simp
        split_ifs <;> simp_all
      · exact h
  · refine at_ _ fun p => ?_
    unfold writePanel
    split
    · exact h
    · split
      · have h1 := hP.other (storePanel_touches p (by assumption) l s).up h
        unfold configurePanel
        split
        · exact hP.other (setPanel_touches _ _ _).up h1
        · exact hP.unconfigure _ _ h1
        · exact h1
        · exact h1
      · exact h
  · exact at_ _ fun _ => hP.other (writeKey_touches _ _ _).up h
  · refine at_ _ fun p => ?_
    unfold writeParty
    split
    · exact h
    · exact hP.change _ _ _ h
  · exact at_ _ fun _ => hP.other (writeCircuit_touches _ _ _).up h
  · exact at_ _ fun _ => hP.tap _ _ _ h
  · exact at_ _ fun _ => hP.other (writeCadence_touches _ _ _).up h
  · exact at_ _ fun _ => hP.other (writeEvent_touches _ _ _).up h

theorem recordWrite (hP : StoreClosed P) (t : TableName) (i area : Nat) (m : BitVec 32) (v : List Byte) (s : State)
    (h : P s) : P (Machine.recordWrite t i area m v s).1 := by
  unfold Machine.recordWrite
  split
  · exact hP.writeRecord _ _ _ _ h
  · exact h

theorem writeUnit (hP : StoreClosed P) (tag t : Byte) (i : BitVec 16) (m : BitVec 32) (v : List Byte) (s : State)
    (h : P s) : P (Machine.writeUnit tag t i m v s) := by
  unfold Machine.writeUnit
  dsimp only
  split
  · exact hP.reply _ _ _ _ _ _ h
  · exact hP.reply _ _ _ _ _ _ (hP.recordWrite _ _ _ _ _ _ h)

theorem fillStep (hP : StoreClosed P) (b : Block) (t : TableName) (m : BitVec 32) (down : Bool) (v : List Byte)
    (s : State) (h : P s) : P (Machine.fillStep b t m down v s) := by
  have h1 := hP.recordWrite t b.next 16 m v s h
  unfold Machine.fillStep
  dsimp only
  split
  · split
    · exact hP.reply _ _ _ _ _ _ (hP.other (withBlock_touches _ _).up h1)
    · exact hP.other (withBlock_touches _ _).up h1
  · exact hP.reply _ _ _ _ _ _ (hP.other (withBlock_touches _ _).up h1)

theorem eachRoute {α β : Type} {f : α → State → State × β} (hf : ∀ x t, P t → P (f x t).1)
    (xs : List α) (s : State) (h : P s) : P (Machine.eachRoute f xs s).1 := by
  induction xs generalizing s with
  | nil => exact h
  | cons x xs ih =>
    unfold Machine.eachRoute
    exact ih _ (hf x s h)

theorem addRoute (hP : StoreClosed P) (r : RouteArg) (s : State) (h : P s) : P (Machine.addRoute r s).1 := by
  unfold Machine.addRoute
  dsimp only
  repeat' split
  all_goals first | exact h | exact hP.arrive _ _ _ _ _ _ (by intro p; simp) h

theorem removeRoute (hP : StoreClosed P) (r : PairArg) (s : State) (h : P s) : P (Machine.removeRoute r s).1 := by
  unfold Machine.removeRoute
  dsimp only
  split
  · exact hP.depart _ _ _ _ (by intro p; simp) h
  · exact h

theorem nudgeRoute (hP : StoreClosed P) (down : Bool) (c : Nat) (r : PairArg) (s : State) (h : P s) :
    P (Machine.nudgeRoute down c r s).1 := by
  unfold Machine.nudgeRoute
  dsimp only
  split
  · exact h
  · split
    · exact hP.level _ _ _ _ h
    · exact h

theorem swapStatics (hP : StoreClosed P) (a b : DestId) (s : State) (h : P s) : P (Machine.swapStatics a b s) := by
  have hc : ∀ l d t, P t → P (clearStatics l d t) :=
    fun l d t ht => foldl_keeps (fun _ _ hu => hP.depart _ _ _ _ (by intro p; simp) hu) _ _ ht
  have hp : ∀ l d t, P t → P (placeStatics l d t) :=
    fun l d t ht => foldl_keeps (fun _ _ hu => hP.arrive _ _ _ _ _ _ (by intro p; simp) hu) _ _ ht
  unfold Machine.swapStatics
  dsimp only
  exact hp _ _ _ (hp _ _ _ (hc _ _ _ (hc _ _ _ h)))

theorem clearAll (hP : StoreClosed P) (s : State) (h : P s) : P (Machine.clearAll s) := by
  unfold Machine.clearAll
  refine hP.other (handAll_touches _).up (hP.other (clearField_touches _).up (hP.other (clearReplyLists_touches _).up ?_))
  exact hP.other (clearArbiters_touches _).up (hP.clear _ (hP.other (clearKeys_touches _).up h))

theorem start (hP : StoreClosed P) (st : Straps) (s : State) : P (Machine.start st s) :=
  hP.raise _ _ _ (hP.blank _ _ _ _)

end StoreClosed

theorem event_keeps {can : Bool} {f : State → State} {s t : State} (hf : P s → P (f s))
    (he : event can f s = .next t) (h : P s) : P t := by
  unfold event at he
  cases he
  split
  · exact hf h
  · exact h

theorem order_keeps (hP : StoreClosed P) {tag : Byte} {o : Order} {f : State → State} {s t : State}
    (hf : ∀ u, P u → P (f u)) (he : order tag o f s = .next t) (h : P s) : P t := by
  unfold order at he
  cases he
  exact hP.orderUnit _ _ _ _ hf h

theorem blockStep_keeps (hP : StoreClosed P) {f : Block → State → Option State} {s t : State}
    (hf : ∀ b u v, P u → f b u = some v → P v) (he : takeBlockStep f s = .next t) (h : P s) : P t := by
  unfold takeBlockStep at he
  cases he
  split
  · split
    · rename_i b _ _
      cases hx : f b (takeStep s) with
      | none => exact h
      | some v => exact hP.other (flushLamps_touches _).up (hf _ _ _ (hP.other (takeStep_touches _).up h) hx)
    · exact h
  · exact h

theorem writeRow_keeps (hP : StoreClosed P) {tn : TableName} {r : Nat → List FieldValue → Bool} {tag : Byte}
    {i : BitVec 16} {m : BitVec 32} {v : List Byte} {s t : State} (he : writeRow tn r tag i m v s = .next t)
    (h : P s) : P t := by
  unfold writeRow at he
  cases he
  split
  · exact hP.orderUnit _ _ _ _ (fun u hu => hP.writeUnit _ _ _ _ _ _ hu) h
  · exact h

theorem powerOn_keeps (hP : StoreClosed P) (x : Straps) {s t : State} (he : execPowerOn x s = .next t) (_h : P s) :
    P t := by
  unfold execPowerOn at he
  split at he <;> cases he
  · exact hP.start _ _
  · exact hP.blank _ _ _ _

theorem resetNAssert_keeps (hP : StoreClosed P) {s t : State} (he : execResetNAssert s = .next t) (_h : P s) :
    P t := by
  cases he
  exact hP.blank _ _ _ _

theorem resetNRelease_keeps (hP : StoreClosed P) (x : Straps) {s t : State} (he : execResetNRelease x s = .next t) (h : P s) :
    P t := by
  unfold execResetNRelease at he
  split at he <;> cases he
  · exact h
  · exact hP.start _ _

theorem restartStart_keeps (hP : StoreClosed P) (x : Straps) {s t : State} (he : execRestartStart x s = .next t) (h : P s) :
    P t := by
  unfold execRestartStart at he
  cases he
  split
  · exact hP.start _ _
  · exact h

theorem frameArrival_keeps (hP : StoreClosed P) (x : PortId) (b : List Byte) {s t : State} (he : execFrameArrival x b s = .next t) (h : P s) :
    P t := by
  refine event_keeps (fun h => ?_) he h
  exact hP.other (flushLamps_touches _).up (hP.frameAt _ _ _ h)

theorem periodBoundary_keeps (hP : StoreClosed P) {s t : State} (he : execPeriodBoundary s = .next t) (h : P s) :
    P t := by
  exact event_keeps (hP.boundary s) he h

theorem refclkAbsent_keeps (hP : StoreClosed P) {s t : State} (he : execRefclkAbsent s = .next t) (h : P s) :
    P t := by
  refine event_keeps (fun h => ?_) he h
  exact hP.other (referenceGone_touches _ _).up (hP.other (s := s) (reference_touches s { s.timing with refclkPresent := false } rfl rfl rfl rfl rfl).up h)

theorem refclkPresent_keeps (hP : StoreClosed P) {s t : State} (he : execRefclkPresent s = .next t) (h : P s) :
    P t := by
  refine event_keeps (fun h => ?_) he h
  exact hP.other (referenceBack_touches _ _).up (hP.other (s := s) (reference_touches s { s.timing with refclkPresent := true } rfl rfl rfl rfl rfl).up h)

theorem latchWindowExpiry_keeps (hP : StoreClosed P) (k : KeyId) {s t : State} (he : execLatchWindowExpiry k s = .next t) (h : P s) :
    P t := by
  refine event_keeps (fun h => ?_) he h
  exact hP.other (flushLamps_touches _).up (hP.other (enterState_touches _ _ _).up h)

theorem winkTimerExpiry_keeps (hP : StoreClosed P) (k : KeyId) {s t : State} (he : execWinkTimerExpiry k s = .next t) (h : P s) :
    P t := by
  refine event_keeps (fun h => ?_) he h
  exact hP.other (flushLamps_touches _).up (hP.other (handKey_touches _ _).up (hP.other (setKey_touches _ _ _).up h))

theorem silenceTimerExpiry_keeps (hP : StoreClosed P) (p : PanelId) {s t : State} (he : execSilenceTimerExpiry p s = .next t) (h : P s) :
    P t := by
  exact event_keeps (hP.panelOffline _ _) he h

theorem replyExpiry_keeps (hP : StoreClosed P) (p : PanelId) (x : StationId) {s t : State} (he : execReplyExpiry p x s = .next t) (h : P s) :
    P t := by
  refine event_keeps (fun h => ?_) he h
  exact hP.other (flushLamps_touches _).up (hP.other (removeCaller_touches _ _ _).up h)

theorem intervalTimerExpiry_keeps (hP : StoreClosed P) (c : CircuitId) {s t : State} (he : execIntervalTimerExpiry c s = .next t) (h : P s) :
    P t := by
  refine event_keeps (fun h => ?_) he h
  exact hP.other (requestProbe_touches _ _).up (hP.other (startInterval_touches _ _).up h)

theorem probeTimeout_keeps (hP : StoreClosed P) (c : CircuitId) (x : BitVec 15) {s t : State} (he : execProbeTimeout c x s = .next t) (h : P s) :
    P t := by
  refine event_keeps (fun h => ?_) he h
  exact hP.other (timeoutProbe_touches _ _ _).up h

theorem recordRead_keeps (hP : StoreClosed P) (a b : Byte) (i : BitVec 16) (m : BitVec 32) {s t : State} (he : execRecordRead a b i m s = .next t) (h : P s) :
    P t := by
  exact order_keeps hP (fun u hu => hP.other (readUnit_touches _ _ _ _ u).up hu) he h

theorem recordWrite_keeps (hP : StoreClosed P) (a b : Byte) (i : BitVec 16) (m : BitVec 32) (v : List Byte) {s t : State} (he : execRecordWrite a b i m v s = .next t) (h : P s) :
    P t := by
  exact order_keeps hP (fun u hu => hP.writeUnit _ _ _ _ _ u hu) he h

theorem blockRead_keeps (hP : StoreClosed P) (a b : Byte) (i : BitVec 16) (m : BitVec 32) (n : BitVec 16) (d : Byte) {s t : State} (he : execBlockRead a b i m n d s = .next t) (h : P s) :
    P t := by
  exact order_keeps hP (fun u hu => hP.other (blockReadUnit_touches _ _ _ _ _ _ u).up hu) he h

theorem fill_keeps (hP : StoreClosed P) (a b : Byte) (i : BitVec 16) (m : BitVec 32) (n : BitVec 16) (d : Byte) (v : List Byte) {s t : State} (he : execFill a b i m n d v s = .next t) (h : P s) :
    P t := by
  exact order_keeps hP (fun u hu => hP.other (fillUnit_touches _ _ _ _ _ _ _ u).up hu) he h

theorem meterRead_keeps (hP : StoreClosed P) (a b c : Byte) {s t : State} (he : execMeterRead a b c s = .next t) (h : P s) :
    P t := by
  exact order_keeps hP (fun u hu => hP.other (meterUnit_touches _ _ _ u).up hu) he h

theorem routeList_keeps (hP : StoreClosed P) (a b : Byte) {s t : State} (he : execRouteList a b s = .next t) (h : P s) :
    P t := by
  exact order_keeps hP (fun u hu => hP.other (routeListUnit_touches _ _ u).up hu) he h

theorem blockReadStep_keeps (hP : StoreClosed P) {s t : State} (he : execBlockReadStep s = .next t) (h : P s) :
    P t := by
  refine blockStep_keeps hP (fun b u v hu hv => ?_) he h
  split at hv <;> cases hv
  exact hP.other (blockReadStep_touches _ _ _ _ _).up hu

theorem fillStep_keeps (hP : StoreClosed P) {s t : State} (he : execFillStep s = .next t) (h : P s) : P t := by
  refine blockStep_keeps hP (fun b u v hu hv => ?_) he h
  split at hv <;> cases hv
  exact hP.fillStep _ _ _ _ _ _ hu

theorem meterReadStep_keeps (hP : StoreClosed P) {s t : State} (he : execMeterReadStep s = .next t) (h : P s) :
    P t := by
  refine blockStep_keeps hP (fun b u v hu hv => ?_) he h
  split at hv <;> cases hv
  exact hP.other (meterStep_touches _ _).up hu

theorem routeListStep_keeps (hP : StoreClosed P) {s t : State} (he : execRouteListStep s = .next t) (h : P s) :
    P t := by
  refine blockStep_keeps hP (fun b u v hu hv => ?_) he h
  split at hv <;> cases hv
  exact hP.other (routeListStep_touches _ _ _ _).up hu

theorem routeAdd_keeps (hP : StoreClosed P) (a b : Byte) (l : List RouteArg) {s t : State} (he : execRouteAdd a b l s = .next t) (h : P s) :
    P t := by
  refine order_keeps hP (fun u hu => ?_) he h
  unfold routeAddUnit
  dsimp only
  split
  · exact hP.reply _ _ _ _ _ _ (StoreClosed.eachRoute (fun _ _ k => hP.addRoute _ _ k) _ _ hu)
  · exact hP.reply _ _ _ _ _ _ hu

theorem routeRemove_keeps (hP : StoreClosed P) (a b : Byte) (l : List PairArg) {s t : State} (he : execRouteRemove a b l s = .next t) (h : P s) :
    P t := by
  refine order_keeps hP (fun u hu => ?_) he h
  unfold routeRemoveUnit
  dsimp only
  split
  · exact hP.reply _ _ _ _ _ _ (StoreClosed.eachRoute (fun _ _ k => hP.removeRoute _ _ k) _ _ hu)
  · exact hP.reply _ _ _ _ _ _ hu

theorem routeNudge_keeps (hP : StoreClosed P) (a b c d : Byte) (l : List PairArg) {s t : State} (he : execRouteNudge a b c d l s = .next t) (h : P s) :
    P t := by
  refine order_keeps hP (fun u hu => ?_) he h
  unfold routeNudgeUnit
  dsimp only
  split
  · exact hP.reply _ _ _ _ _ _ hu
  · split
    · split
      · exact hP.reply _ _ _ _ _ _ (StoreClosed.eachRoute (fun _ _ k => hP.nudgeRoute _ _ _ _ k) _ _ hu)
      · exact hP.reply _ _ _ _ _ _ hu
    · exact hP.reply _ _ _ _ _ _ hu

theorem swap_keeps (hP : StoreClosed P) (a b c : Byte) {s t : State} (he : execSwap a b c s = .next t) (h : P s) :
    P t := by
  refine order_keeps hP (fun u hu => ?_) he h
  unfold swapUnit
  dsimp only
  split
  · exact hP.reply _ _ _ _ _ _ (hP.swapStatics _ _ _ hu)
  · exact hP.reply _ _ _ _ _ _ hu

theorem partyJoin_keeps (hP : StoreClosed P) (a b c d : Byte) {s t : State} (he : execPartyJoin a b c d s = .next t) (h : P s) :
    P t := by
  refine order_keeps hP (fun u hu => ?_) he h
  unfold partyJoinUnit
  dsimp only
  split
  · exact hP.reply _ _ _ _ _ _ hu
  · exact hP.reply _ _ _ _ _ _ (hP.change _ _ _ hu)

theorem partyLeave_keeps (hP : StoreClosed P) (a b c : Byte) {s t : State} (he : execPartyLeave a b c s = .next t) (h : P s) :
    P t := by
  refine order_keeps hP (fun u hu => ?_) he h
  unfold partyLeaveUnit
  dsimp only
  split
  · split
    · exact hP.reply _ _ _ _ _ _ hu
    · refine hP.reply _ _ _ _ _ _ ?_
      split
      · exact hP.other (handTalk_touches _ _ _).up (hP.change _ _ _ hu)
      · exact hP.change _ _ _ hu
  · exact hP.reply _ _ _ _ _ _ hu

theorem partyFlags_keeps (hP : StoreClosed P) (a b c d e : Byte) {s t : State} (he : execPartyFlags a b c d e s = .next t) (h : P s) :
    P t := by
  refine order_keeps hP (fun u hu => ?_) he h
  unfold partyFlagsUnit
  dsimp only
  split
  · split
    · exact hP.reply _ _ _ _ _ _ hu
    · split
      · exact hP.reply _ _ _ _ _ _ hu
      · refine hP.reply _ _ _ _ _ _ ?_
        split
        · exact hP.change _ _ _ hu
        · exact hP.other (handTalk_touches _ _ _).up (hP.change _ _ _ hu)
  · exact hP.reply _ _ _ _ _ _ hu

theorem clearDynamic_keeps (hP : StoreClosed P) (a : Byte) {s t : State} (he : execClearDynamic a s = .next t) (h : P s) :
    P t := by
  refine order_keeps hP (fun u hu => ?_) he h
  unfold clearDynamicUnit
  dsimp only
  refine hP.reply _ _ _ _ _ _ (hP.clearAll _ ?_)
  split
  · refine hP.other (abortReply_touches _ _).up (hP.other ?_ hu)
    exact (withBlock_touches u none).up
  · exact hu

theorem statusRead_keeps (hP : StoreClosed P) (a : Byte) (k : BitVec 16) {s t : State} (he : execStatusRead a k s = .next t) (h : P s) :
    P t := by
  exact order_keeps hP (fun u hu => hP.other (statusReadUnit_touches _ _ u).up hu) he h

theorem statusClear_keeps (hP : StoreClosed P) (a : Byte) (k : BitVec 16) {s t : State} (he : execStatusClear a k s = .next t) (h : P s) :
    P t := by
  exact order_keeps hP (fun u hu => hP.other (statusClearUnit_touches _ _ u).up hu) he h

theorem restart_keeps (hP : StoreClosed P) (a : Byte) {s t : State} (he : execRestart a s = .next t) (h : P s) :
    P t := by
  exact order_keeps hP (fun u hu => hP.other (restartUnit_touches u).up hu) he h

theorem sampleInstant_keeps (hP : StoreClosed P) {s t : State} (he : execSampleInstant s = .next t) (h : P s) :
    P t := by
  refine event_keeps (fun h => ?_) he h
  exact hP.other (sampleTick_touches _).up h

theorem unlistedOrderCode_keeps (hP : StoreClosed P) (a b : Byte) {s t : State} (he : execUnlistedOrderCode a b s = .next t) (h : P s) :
    P t := by
  exact order_keeps hP (fun u hu => hP.reply _ _ _ _ _ u hu) he h

/-- What every command leaves of such a property: it survives. -/
theorem exec_keeps (hP : StoreClosed P) (c : Instr) {s t : State} (he : exec c s = .next t) (h : P s) : P t := by
  cases c
  case powerOn => exact powerOn_keeps hP _ he h
  case resetNAssert => exact resetNAssert_keeps hP he h
  case resetNRelease => exact resetNRelease_keeps hP _ he h
  case restartStart => exact restartStart_keeps hP _ he h
  case frameArrival => exact frameArrival_keeps hP _ _ he h
  case periodBoundary => exact periodBoundary_keeps hP he h
  case refclkAbsent => exact refclkAbsent_keeps hP he h
  case refclkPresent => exact refclkPresent_keeps hP he h
  case latchWindowExpiry => exact latchWindowExpiry_keeps hP _ he h
  case winkTimerExpiry => exact winkTimerExpiry_keeps hP _ he h
  case silenceTimerExpiry => exact silenceTimerExpiry_keeps hP _ he h
  case replyExpiry => exact replyExpiry_keeps hP _ _ he h
  case intervalTimerExpiry => exact intervalTimerExpiry_keeps hP _ he h
  case probeTimeout => exact probeTimeout_keeps hP _ _ he h
  case recordRead => exact recordRead_keeps hP _ _ _ _ he h
  case recordWrite => exact recordWrite_keeps hP _ _ _ _ _ he h
  case blockRead => exact blockRead_keeps hP _ _ _ _ _ _ he h
  case fill => exact fill_keeps hP _ _ _ _ _ _ _ he h
  case meterRead => exact meterRead_keeps hP _ _ _ he h
  case routeList => exact routeList_keeps hP _ _ he h
  case blockReadStep => exact blockReadStep_keeps hP he h
  case fillStep => exact fillStep_keeps hP he h
  case meterReadStep => exact meterReadStep_keeps hP he h
  case routeListStep => exact routeListStep_keeps hP he h
  case routeAdd => exact routeAdd_keeps hP _ _ _ he h
  case routeRemove => exact routeRemove_keeps hP _ _ _ he h
  case routeNudge => exact routeNudge_keeps hP _ _ _ _ _ he h
  case swap => exact swap_keeps hP _ _ _ he h
  case partyJoin => exact partyJoin_keeps hP _ _ _ _ he h
  case partyLeave => exact partyLeave_keeps hP _ _ _ he h
  case partyFlags => exact partyFlags_keeps hP _ _ _ _ _ he h
  case clearDynamic => exact clearDynamic_keeps hP _ he h
  case statusRead => exact statusRead_keeps hP _ _ he h
  case statusClear => exact statusClear_keeps hP _ _ he h
  case restart => exact restart_keeps hP _ he h
  case sampleInstant => exact sampleInstant_keeps hP he h
  case unlistedOrderCode => exact unlistedOrderCode_keeps hP _ _ he h
  all_goals exact writeRow_keeps hP he h

end Sys2Proof.Machine
end

