-- ==== Sys2Proof/Laws/Ops.lean ====
section
/-! SUPPORT. Laws/Ops.lean: what each shared operation answers, said once: an event and an order's unit taken or not, a raise, a
reply, the end of a command at the lamp unit, and a holder's arrival and departure. -/

set_option Elab.async false

namespace Sys2Proof.Machine

/-! ## Commands taken or not -/

theorem event_taken {can : Bool} {f : State → State} {s : State} (ha : s.awake = true) (hc : can = true) :
    event can f s = .next (f s) := by simp [event, ha, hc]

theorem event_idle {can : Bool} {f : State → State} {s : State} (h : s.awake = false ∨ can = false) :
    event can f s = .next s := by
  unfold event
  rcases h with h | h <;> simp [h]

theorem flushLamps_settled {s : State} (h : s.lampDirty = []) : flushLamps s = s := by
  unfold flushLamps
  rw [h]
  cases s
  simp_all

theorem order_taken {tag : Byte} {o : Order} {body : State → State} {s : State} (h : s.orderReady tag o = true) :
    order tag o body s = .next (flushLamps (body (takeHead s))) := by simp [order, orderUnit, h]

theorem order_waits {tag : Byte} {o : Order} {body : State → State} {s : State} (h : s.orderReady tag o = false) :
    order tag o body s = .next s := by simp [order, orderUnit, h]

theorem writeRow_taken {t : TableName} {isRow : Nat → List FieldValue → Bool} {tag : Byte} {index : BitVec 16}
    {mask : BitVec 32} {values : List Byte} {s : State} (hr : isRow index.toNat (writtenValues t index mask values) = true) :
    writeRow t isRow tag index mask values s =
      order tag (.recordWrite t.code index mask values) (writeUnit tag t.code index mask values) s := by
  simp [writeRow, order, hr]

theorem blockStep_taken {f : Block → State → Option State} {s t : State} {b : Block} (h : s.block = some b)
    (hr : s.stepReady = true) (hf : f b (takeStep s) = some t) : takeBlockStep f s = .next (flushLamps t) := by
  simp [takeBlockStep, h, hr, hf]

theorem blockStep_waits {f : Block → State → Option State} {s : State} (hr : s.stepReady = false) :
    takeBlockStep f s = .next s := by
  unfold takeBlockStep
  cases s.block <;> simp [hr]

/-! ## Table codes -/

theorem tableOf_code (t : TableName) : tableOf t.code = some t := by cases t <;> rfl

theorem recordCheck_code (t : TableName) {i : Nat} (h : i < t.records) : recordCheck t.code i = .ok t := by
  simp [recordCheck, tableOf_code, h]

/-! ## Replies -/

theorem sealBody_length (draw : Nat) (l : List (Option Byte)) : (sealBody draw l).length = 28 := by simp [sealBody]

/-- A sealed body spells its layout, whatever the free values are. -/
theorem sealBody_spells (draw : Nat) (l : List (Option Byte)) (h : l.length ≤ 28) : Spells (sealBody draw l) l := by
  refine ⟨sealBody_length _ _, fun i x hx => ?_⟩
  have hi : i < l.length := by
    rcases Nat.lt_or_ge i l.length with hi | hi
    · exact hi
    · simp [List.getElem?_eq_none hi] at hx
  have hi' : i < 28 := Nat.lt_of_lt_of_le hi h
  simp [sealBody, hi', List.getD_eq_getElem?_getD, hx]

theorem reply_replied (tag code : Byte) (r : Result) (mark : Byte) (rest : List (Option Byte)) (s : State)
    (h : rest.length ≤ 25) :
    Replied s (reply tag code r mark rest s) tag (stated [code, r.code, mark] ++ rest) :=
  ⟨_, sealBody_spells s.draws _ (by simp [stated]; omega), rfl⟩

/-! ## Events -/

/-- What a raise leaves outside a boundary (R195, R196). -/
theorem raise_raised (k : EventKind) (i : Option Nat) (s : State) (h : s.timing.atBoundary = false) :
    Raised s (raise k i s) k i := by
  have hj : ∀ t : State, ∀ r j, j ≠ k → (t.setEvent k r).event j = t.event j := fun t r j hn => by
    rw [State.event_setEvent]
    simp [hn]
  have he : ∀ t u : State, t.events = u.events → ∀ j, t.event j = u.event j := fun t u e j => by simp [State.event, e]
  cases hc : (!(s.event k).isSet && (s.event k).enable && (s.event k).route.notices) with
  | false =>
    have hr : raise k i s = s.setEvent k ((s.event k).raised i) := by simp [raise, hc]
    rw [hr]
    refine ⟨State.event_setEvent_same _ _ _, fun j hn => hj _ _ _ hn, ?_⟩
    simp [hc, State.setEvent]
  | true =>
    by_cases hn : s.notices.length < 8
    · have hr : raise k i s =
          { s.setEvent k ((s.event k).raised i) with
              notices := s.notices ++ [{ kind := k, inst := i, period := s.timing.period }] } := by
        simp [raise, hc, State.noticePeriod, State.offerNotice, h, hn, Config.noticeCap, State.setEvent]
      rw [hr]
      refine ⟨?_, fun j hm => ?_, ?_⟩
      · exact (he _ (s.setEvent k ((s.event k).raised i)) rfl k).trans (State.event_setEvent_same _ _ _)
      · exact (he _ (s.setEvent k ((s.event k).raised i)) rfl j).trans (hj _ _ _ hm)
      · simp [hc, hn]
    · have hr : raise k i s = s.setEvent k ((s.event k).raised i) := by
        simp [raise, hc, State.offerNotice, h, hn, Config.noticeCap, State.setEvent]
      rw [hr]
      refine ⟨State.event_setEvent_same _ _ _, fun j hm => hj _ _ _ hm, ?_⟩
      simp [hc, hn, State.setEvent]

/-- In every case a raise sets its kind's record, with the instance given. -/
theorem raise_event (k : EventKind) (i : Option Nat) (s : State) : (raise k i s).event k = (s.event k).raised i := by
  have hk : ∀ t : State, ∀ r, (t.setEvent k r).event k = r := fun t r => State.event_setEvent_same t k r
  have h : ∀ t u : State, t.events = u.events → t.event k = u.event k := fun t u e => by simp [State.event, e]
  unfold raise
  dsimp only
  split
  · have ho : ∀ t n, (State.offerNotice t n).events = t.events := fun t n => by unfold State.offerNotice; split <;> rfl
    split
    · exact (h _ (s.setEvent k ((s.event k).raised i)) (by simp [State.drawn, ho])).trans (hk _ _)
    · exact (h _ (s.setEvent k ((s.event k).raised i)) (ho _ _)).trans (hk _ _)
  · exact hk _ _

/-! ## The crosspoint store -/

/-- Every answer an arrival can give (R65). -/
theorem arrive_cases (h : Holder) (l : Level) (c : EntryClass) (src : SourceId) (d : DestId) (s : State) :
    (s.findEntry src d = none ∧ s.hasRoom d 1 = true ∧ arrive h l c src d s = (createEntry h l c src d s, true)) ∨
    (s.findEntry src d = none ∧ s.hasRoom d 1 = false ∧ arrive h l c src d s = (s, false)) ∨
    ∃ e, s.findEntry src d = some e ∧
      ((e.holds h = true ∧ arrive h l c src d s = (s, true)) ∨
        (e.holds h = false ∧ h.isGrant = true ∧ 32 ≤ e.grants.length ∧ arrive h l c src d s = (s, false)) ∨
        (e.holds h = false ∧ (h.isGrant = true → e.grants.length < 32) ∧ (arrive h l c src d s).2 = true ∧
          (arrive h l c src d s).1.entries = (s.mapEntry src d fun e => e.joined h l c).entries)) := by
  unfold arrive
  cases hf : s.findEntry src d with
  | none => cases hr : s.hasRoom d 1 <;> simp
  | some e =>
    refine .inr (.inr ⟨e, rfl, ?_⟩)
    have hd : ∀ u : State, (handEntry src d u).entries = u.entries := fun _ => rfl
    cases hh : e.holds h with
    | true => exact .inl ⟨rfl, by simp [hh]⟩
    | false =>
      by_cases hg : h.isGrant = true ∧ 32 ≤ e.grants.length
      · exact .inr (.inl ⟨rfl, hg.1, hg.2, by simp [hh, hg.1, hg.2, Config.grantCap]⟩)
      · refine .inr (.inr ⟨rfl, fun hk => ?_, ?_, ?_⟩)
        · exact Nat.lt_of_not_le fun hl => hg ⟨hk, hl⟩
        all_goals
          simp only [hh, Bool.false_eq_true, if_false, Config.grantCap, Bool.and_eq_true, decide_eq_true_eq, hg]
        split <;> simp [hd]

/-- Every answer a departure can give (R66). -/
theorem depart_cases (h : Holder) (src : SourceId) (d : DestId) (s : State) :
    ((∀ e, s.findEntry src d = some e → e.holds h = false) ∧ depart h src d s = s) ∨
    ∃ e, s.findEntry src d = some e ∧ e.holds h = true ∧
      (depart h src d s).entries = (s.mapEntry src d fun e => e.left h).entries := by
  unfold depart
  cases hf : s.findEntry src d with
  | none => simp
  | some e =>
    cases hh : e.holds h with
    | false => simp [hh]
    | true =>
      refine .inr ⟨e, rfl, hh, ?_⟩
      have hd : ∀ u : State, (handEntry src d u).entries = u.entries := fun _ => rfl
      simp only [hh, if_true]
      split <;> simp [hd]

end Sys2Proof.Machine
end

