-- ==== Sys2Proof/Tests/Slice0.lean ====
section
/-! SUPPORT. Tests/Slice0.lean: the well-formedness smoke tests, values worked out in the spec's own examples, and for each
statement that has hypotheses a state and operands that meet them (`witness_…`). -/

set_option Elab.async false

namespace Sys2Proof.Machine.Tests

open Sys2Proof Sys2Proof.Machine

/-! ## Small states -/

/-- 20 bytes of a value area. -/
def area (l : List Byte) : List Byte := slice l 0 20

/-- Reset with one order queued. -/
def asked (tag : Byte) (o : Order) (s : State := State.reset) : State := { s with orders := [{ tag := tag, body := o.body }] }

/-- Reset with one RECORD_WRITE queued. -/
def writing (t : TableName) (i : BitVec 16) (m : BitVec 32) (v : List Byte) (s : State := State.reset) : State :=
  asked 7 (.recordWrite t.code i m (area v)) s

/-- A static entry of src → d. -/
def route (src : SourceId) (d : DestId) (serial : Nat) : Entry := newEntry .static 128 .programme src d serial

/-- Reset with routes from the first n sources to destination d. -/
def routed (n : Nat) (d : DestId) : State :=
  { State.reset.setEntries d ((List.finRange 256).take n |>.map fun i => route i d i.val) with nextSerial := n }

/-- Reset with a period whose boundary is due. -/
def atEnd (s : State := State.reset) : State := { s with timing := { s.timing with place := 48 } }

/-- A port record in a state. -/
def portIn (st : PortState) : Port := { Port.reset false with state := st }

/-- Reset with port 0 in a state. -/
def linked (st : PortState) : State := State.reset.setPort 0 (portIn st)

/-- A frame with no slots and no cells. -/
def bareFrame : List Byte := frameBytes 5 0 .w24 [] []

/-- That frame as read. -/
def bare : Frame := { seq := 5, width := .w24, slotCount := 0, slots := [], cells := [] }

/-- A buffer position that holds a stamp. -/
def heldAt (stamp : Count) : BufferPosition := { BufferPosition.empty with stamp := some stamp }

/-- Stations 1 (source 10, destination 20) and 2 (source 11, destination 21); panel 0 in service for station 1. -/
def manned (s : State := State.reset) : State :=
  ((s.setStation 1 { kind := .panel, source := some 10, dest := some 20 }).setStation 2
    { kind := .panel, source := some 11, dest := some 21 }).setPanel 0
    { Panel.reset with configured := true, ownStation := 1, online := .online, silenceTimer := some 0 }

/-- Key 3 of panel 0, a TALK_STATION key to station 2. -/
def talkKey (st : KeyState) (down : Bool) : Key :=
  { Key.reset with function := .talkStation, target := some 2, state := st, down := down }

/-! ## Ill-formed commands -/

theorem test_value_area_of_19 : (Instr.recordWrite 1 1 0 1 (slice [] 0 19)).wellFormed = false := by decide
theorem test_fill_area_of_20 : (Instr.fill 1 1 0 1 1 0 (area [])).wellFormed = false := by decide
theorem test_route_add_without_routes : (Instr.routeAdd 1 1 []).wellFormed = false := by decide
theorem test_route_remove_too_many : (Instr.routeRemove 1 0 [⟨1, 2⟩]).wellFormed = false := by decide
theorem test_route_nudge_of_seven :
    (Instr.routeNudge 1 7 0 1 (List.replicate 7 ⟨1, 2⟩)).wellFormed = false := by decide
theorem test_listed_code : (Instr.unlistedOrderCode 1 17).wellFormed = false := by decide
theorem test_probe_tag_zero : (Instr.probeTimeout 0 0).wellFormed = false := by decide

/-- Each write row with a mask that names none of its row's fields, or the other value of its yes/no field. -/
theorem test_rows_of_other_fields :
    ([.portEnable 1 0 2 (area [0]), .portDisable 1 0 2 (area [1]), .outgoingWidthWrite 1 0 2 (area [1]),
      .referenceSelect 1 3 1 (area [0]), .sourceWrite 1 0 4 (area [0]), .destinationKindWrite 1 0 1 (area [0]),
      .destinationEnableWrite 1 0 2 (area [0]), .outputLevelWrite 1 0 1 (area [0]), .dimCodeWrite 1 0 1 (area [0]),
      .clipCounterWrite 1 0 1 (area [0]), .stationWrite 1 0 0 (area []), .panelConfigure 1 0 1 (area [0]),
      .panelUnconfigure 1 0 1 (area [1]), .panelSettingsWrite 1 0 1 (area [1]), .keyWrite 1 0 32 (area []),
      .partyEnable 1 0 1 (area [0]), .partyDisable 1 0 1 (area [1]), .partyLevelWrite 1 0 1 (area [1]),
      .circuitEnable 1 0 1 (area [0]), .circuitDisable 1 0 1 (area [1]), .circuitSettingsWrite 1 0 1 (area [1]),
      .tapEnable 1 0 1 (area [0]), .tapDisable 1 0 1 (area [1]), .tapLevelWrite 1 0 1 (area [1]),
      .tapSettingsWrite 1 0 1 (area [1]), .cadenceWrite 1 0 32 (area []), .eventWrite 1 0 1 (area [1])] :
        List Instr).all (fun c => !c.wellFormed) = true := by decide

/-- A write of each row that is one of the row's. -/
theorem test_rows_of_their_fields :
    ([.portEnable 1 0 2 (area [1]), .portDisable 1 0 2 (area [0]), .outgoingWidthWrite 1 3 4 (area [16]),
      .referenceSelect 1 4 1 (area [1]), .sourceWrite 1 255 2 (area [9]), .destinationKindWrite 1 0 2 (area [1]),
      .destinationEnableWrite 1 0 1 (area [0]), .outputLevelWrite 1 0 4 (area [9]), .dimCodeWrite 1 0 16 (area [9]),
      .clipCounterWrite 1 0 64 (area [0, 9]), .stationWrite 1 191 1 (area [1]), .panelConfigure 1 0 1 (area [1]),
      .panelUnconfigure 1 0 1 (area [0]), .panelSettingsWrite 1 0 2 (area [1]), .keyWrite 1 1535 16 (area [9]),
      .partyEnable 1 0 1 (area [1]), .partyDisable 1 0 1 (area [0]), .partyLevelWrite 1 0 2 (area [1]),
      .circuitEnable 1 0 1 (area [1]), .circuitDisable 1 0 1 (area [0]), .circuitSettingsWrite 1 0 8 (area [1]),
      .tapEnable 1 0 1 (area [1]), .tapDisable 1 0 1 (area [0]), .tapLevelWrite 1 0 32 (area [1]),
      .tapSettingsWrite 1 0 64 (area [1]), .cadenceWrite 1 0 1 (area [0, 9]), .eventWrite 1 0 8 (area [1])] :
        List Instr).all (fun c => c.wellFormed) = true := by decide

/-! ## Values from the spec's text -/

/-- R83's table of chapter 5: (150 ⊕ 140) ⊕ 96 is 127, factor 3968; the other order gives 130, factor 4608. -/
theorem test_combine_in_order :
    combine (combine 150 140) 96 = 127 ∧ factor 127 = 3968 ∧ combine 150 (combine 140 96) = 130 ∧ factor 130 = 4608 := by
  decide
/-- R82's table. -/
theorem test_factors : factor 128 = 4096 ∧ factor 143 = 7936 ∧ factor 159 = 15872 ∧ factor 16 = 32 ∧ factor 1 = 17 := by
  decide
/-- R87: a ramp from 0 to 17 and one from 17 to 0. -/
theorem test_small_ramps :
    (List.range 5).map (ramp 0 17) = [0, 0, 1, 1, 1] ∧ ramp 0 17 47 = 17 ∧
      (List.range 5).map (ramp 17 0) = [17, 17, 16, 16, 16] := by decide
/-- R91's examples. -/
theorem test_roundings :
    roundShift 2048 = 1 ∧ roundShift (-2048) = 0 ∧ roundShift (-6144) = -1 ∧ roundShift (-10240) = -2 := by decide
/-- The full frame with two ramps of chapter 5, at samples 0, 23 and 47. -/
theorem test_two_ramps :
    let l : List Contribution :=
      [{ applied := 0, target := 4096, samples := List.replicate 48 480000 },
        { applied := 2048, target := 2048, samples := List.replicate 48 (-96000) }]
    mixSum l 0 = -155808000 ∧ mixZ l 4096 2048 0 = -37649 ∧ mixZ l 4096 2048 23 = 144000 ∧
      mixZ l 4096 2048 47 = 216000 := by decide +kernel
/-- R162: 8192 is followed by 16385 and then by 3; circuit 4 starts 10, 20, 40. -/
theorem test_tags : nextTag 8192 = 16385 ∧ nextTag 16385 = 3 ∧ nextTag 5 = 10 ∧ nextTag 10 = 20 := by decide
/-- R168's examples and the run of chapter 9. -/
theorem test_estimates :
    nextEstimate (some 12000) 20000 = 13000 ∧ nextEstimate (some 13000) 9000 = 12500 ∧
      nextEstimate (some 12000) 40000 = 15500 ∧ nextEstimate (some 15500) 40000 = 18562 := by decide
/-- R176: base 5 with mask 192 matches slot 5 of each port; bases 64 and 67 with mask 7 match the same eight. -/
theorem test_matched :
    ({ Tap.reset with base := 5, mask := 192 } : Tap).matched = [5, 69, 133, 197] ∧
      ({ Tap.reset with base := 67, mask := 7 } : Tap).matched = [64, 65, 66, 67, 68, 69, 70, 71] := by decide +kernel
/-- The encoder of chapter 6 in X2 mode: deltas +4, −7, −1, +3. -/
theorem test_encoder_steps :
    Int.tdiv (1 + 4) 2 = 2 ∧ Int.tdiv (1 - 7) 2 = -3 ∧ Int.tdiv (0 - 1) 2 = 0 ∧ stepLevel 126 2 0 128 = 128 ∧
      stepLevel 128 (-3) 0 128 = 125 := by decide
/-- R6: 16-bit sample 1000 is kept as 256,000 and −32,768 as −8,388,608. -/
theorem test_placed : Width.w16.place 1000 = 256000 ∧ Width.w16.place (-32768) = -8388608 := by decide
/-- The CRC-16 of the generator of R1, register all ones, over the nine digits: the value its family gives (29B1). -/
theorem test_crc :
    crc16 [0x31, 0x32, 0x33, 0x34, 0x35, 0x36, 0x37, 0x38, 0x39] = 0x29B1 := by decide +kernel
/-- R23, R42: the bytes of a PARTY_FLAGS order, written out. -/
theorem test_order_bytes :
    readOrder [12, 3, 25, 1, 1] = .partyFlags 3 25 1 1 ∧ readOrder [14, 0x12, 0x34] = .statusRead 0x1234 := by decide
/-- R146: a HIGH key stands before every LOW key; R147: a pre-empted key before every LOW key too. -/
theorem test_waiting_places :
    (insertByRank ⟨391, true⟩ [⟨480, false⟩, ⟨514, false⟩]).map Waiter.key = [391, 480, 514] ∧
      (insertPreempted 448 [⟨391, true⟩, ⟨480, false⟩]).map Waiter.key = [391, 448, 480] := by decide
/-- R192: at most eight keys, lowest first. -/
theorem test_lamp_keys : lampKeys (BitVec.allOnes 32) = [0, 1, 2, 3, 4, 5, 6, 7] := by decide +kernel
/-- R29: an absent field is carried as all ones at its width. -/
theorem test_absent_members : (Party.values Party.reset).drop 3 = List.replicate 24 65535 := by decide +kernel
/-- No timer runs out at the running instant of a state with the timers of the one after reset. -/
theorem expiryDue_reset {s : State} (hk : s.keys = State.reset.keys) (hp : s.panels = State.reset.panels)
    (hc : s.circuits = State.reset.circuits) : s.expiryDue = false := by
  have k : ∀ k, (s.key k).state = .idle ∧ (s.key k).winkTimer = none := fun k => by
    simp [State.key, hk, State.reset, State.blank, Key.reset]
  have p : ∀ p, (s.panel p).online = .unconfigured ∧ (s.panel p).replyList = [] := fun p => by
    simp [State.panel, hp, State.reset, State.blank, Panel.reset]
  have c : ∀ c, (s.circuit c).intervalTimer = none ∧ (s.circuit c).outstanding = [] := by
    unfold State.circuit
    rw [hc]
    decide +kernel
  simp [State.expiryDue, State.latchDue, State.silenceDue, State.timerDue, k, p, c]
/-- One step: the sample counter rises. -/
theorem test_sample_step :
    exec .sampleInstant State.reset = .next (sampleTick State.reset) ∧ (sampleTick State.reset).timing.sample = 1 :=
  ⟨event_taken rfl (by
    simp only [State.instantOver, expiryDue_reset (s := State.reset) rfl rfl rfl]; decide +kernel), by decide +kernel⟩
/-- R98: the instant at which a timer runs out does not pass before its expiry is taken. -/
theorem test_sample_waits :
    exec .sampleInstant (manned) = .next manned :=
  event_idle (.inr (by
    have h : manned.silenceDue 0 = true := by decide +kernel
    have : manned.expiryDue = true := by
      simp only [State.expiryDue, Bool.or_eq_true, List.any_eq_true]
      exact .inl (.inr ⟨0, List.mem_finRange 0, .inl h⟩)
    simp [State.instantOver, this]))
/-- One step: a trim of 200 is stored as 159 (R46). -/
theorem test_trim_step :
    (match exec (.sourceWrite 7 5 2 (area [200])) (writing .source 5 2 [200]) with
      | .next t => (t.source 5).trim == 159 && t.replies.length == 1
      | .fault _ | .refused _ => false) = true := by decide +kernel
/-- One step: a talk key pressed by a KEY_EVENT cell's handling (chapter 4's press in period 400). -/
theorem test_press :
    let t := keyPosition 3 true (manned.setKey 3 (talkKey .idle false))
    (t.key 3).state = .momentaryOn ∧ ((t.entriesOf 21).map Entry.grants) = [[3]] := by decide +kernel

/-! ## Witnesses: states and operands that meet the statements' hypotheses -/

/-- One destination's list as `StoreInv` asks of it, below a serial. -/
def listInv (d : DestId) (l : List Entry) (n : Nat) : Prop :=
  EntriesInv d l ∧ (l.map Entry.serial).Pairwise (· < ·) ∧ ∀ e ∈ l, e.serial < n

theorem store_reset : StoreInv State.reset := by
  intro d; simp [State.reset, State.blank, State.entriesOf, EntriesInv]
theorem store_same {s t : State} (hs : StoreInv s) (he : t.entries = s.entries) (hn : t.nextSerial = s.nextSerial) :
    StoreInv t := by
  intro d; have h := hs d; simpa [State.entriesOf, he, hn] using h
theorem store_set {s t : State} {d : DestId} {l : List Entry} (hs : StoreInv s) (he : t.entries = tset s.entries d l)
    (hn : s.nextSerial ≤ t.nextSerial) (hl : listInv d l t.nextSerial) : StoreInv t := by
  intro x
  obtain ⟨h1, h2, h3⟩ := hs x
  by_cases hx : x = d
  · subst hx; simpa [State.entriesOf, he, tget_tset_same, listInv] using hl
  · simp only [State.entriesOf, he, tget_tset_ne _ _ _ _ hx] at h1 h2 h3 ⊢
    exact ⟨h1, h2, fun e m => Nat.lt_of_lt_of_le (h3 e m) hn⟩
theorem party_same {s : State} (he : s.entries = State.reset.entries) : PartyInv s := by
  intro d e m; simp [State.entriesOf, he, State.reset, State.blank] at m

/-- A state with routes into destination 5, a party that holds a wanted pair, and a command waiting. -/
def busyState : State :=
  let s := (routed 2 5).setParty 3
    { enabled := true, level := 128, members := [⟨1, true, false⟩, ⟨2, false, true⟩] }
  let s := { s with pending := [.sampleInstant] }
  let s := (s.setStation 1 { kind := .panel, source := some 10, dest := some 20 }).setStation 2
    { kind := .panel, source := some 11, dest := some 21 }
  { s.setEntries 21 [{ newEntry (.party 3) 128 .talk 10 21 2 with serial := 2 }] with nextSerial := 3 }

/-- The busy state after its command. -/
def busyAfter : State := sampleTick { busyState with pending := [] }

theorem witness_kept_step : step busyState = .next busyAfter :=
  event_taken rfl (by
    simp only [State.instantOver, expiryDue_reset (s := { busyState with pending := [] }) rfl rfl rfl]; decide +kernel)
theorem witness_ClockKept : ClockInv busyState := by unfold ClockInv; decide +kernel
theorem witness_StoreKept : StoreInv busyState :=
  store_set (s := routed 2 5) (store_set store_reset rfl (by decide +kernel) (by unfold listInv EntriesInv; decide +kernel)) rfl (by decide +kernel)
    (by unfold listInv EntriesInv; decide +kernel)
theorem witness_LimitsKept : LimitsInv busyState := by unfold LimitsInv; decide +kernel
theorem witness_PartyHoldersKept : PartyInv busyState := by unfold PartyInv Wanted; decide +kernel
theorem witness_QueuesKept : QueuesInv busyState := by unfold QueuesInv; decide +kernel
/-- With empty arbiters and every standing NONE the arbiters' invariant holds. -/
theorem arbiter_empty {s : State} (ha : s.arbiters = State.reset.arbiters) (hk : ∀ k, (s.key k).standing = .outside) :
    ArbiterInv s := by
  have a : ∀ d, s.arbiter d = Arbiter.empty := fun d => by simp [State.arbiter, ha, State.reset, State.blank]
  constructor
  · intro d; simp [a, Arbiter.empty]
  · intro k h; exact absurd (hk k) h
theorem standing_set {s t : State} {k : KeyId} {r : Key} (hs : ∀ j, (s.key j).standing = .outside)
    (hk : t.keys = tset s.keys k r) (hr : r.standing = .outside) : ∀ j, (t.key j).standing = .outside := by
  intro j
  unfold State.key at hs ⊢
  rw [hk]
  by_cases h : j = k
  · subst h; rw [tget_tset_same]; exact hr
  · rw [tget_tset_ne _ _ _ _ h]; exact hs j
theorem standing_reset : ∀ k, (State.reset.key k).standing = .outside := fun k => by
  simp [State.key, State.reset, State.blank, Key.reset]
theorem witness_QueuesKept_arbiters : ArbiterInv busyState := arbiter_empty rfl standing_reset
theorem witness_SettledKept : Settled busyState := by decide +kernel
theorem witness_SettledKept_lamps : LampsInv busyState := by
  have p : ∀ p, (busyState.panel p).online = .unconfigured ∧ (busyState.panel p).configured = false := fun p => by
    simp [busyState, routed, State.panel, State.reset, State.blank, Panel.reset]
  exact ⟨fun q => by simp [p], fun k h => by simp [p] at h⟩

theorem witness_StartsAndResets :
    State.reset.phase = .running ∧ (stop State.reset).phase = .inReset ∧
      { State.reset with restart := .due }.phase = .running ∧ { State.reset with restart := .due }.restart = .due ∧
      (∀ x, Instr.sampleInstant ≠ .powerOn x) ∧ (∀ x, Instr.sampleInstant ≠ .resetNRelease x) ∧
      Instr.sampleInstant ≠ .resetNAssert := by
  refine ⟨rfl, rfl, rfl, rfl, ?_, ?_, ?_⟩ <;> simp

theorem witness_OrderBodyRoundTrip :
    (Order.routeAdd 6 (List.replicate 6 ⟨1, 2, 159, 1⟩)).wellFormed = true ∧
      (Order.recordWrite 10 14 0xFFFFFFFF (area [255])).wellFormed = true ∧ (Order.unlisted 18).wellFormed = true := by
  decide
theorem witness_FrameRoundTrip :
    let slots : List (List Int) := [List.replicate 48 (-8388608), List.replicate 48 8388607]
    let cells : List (List Byte) := [List.replicate 32 7]
    slots.length ≤ 64 ∧ cells.length ≤ 8 ∧ (∀ l ∈ slots, l.length = 48 ∧ ∀ x ∈ l, -8388608 ≤ x ∧ x ≤ 8388607) ∧
      ∀ c ∈ cells, c.length = 32 := by decide +kernel

theorem witness_SampleInstantTicks :
    let s := { State.reset with timing := { State.reset.timing with place := 47 } }
    s.awake = true ∧ s.timing.place < 48 ∧
      ¬((∃ k, ((s.key k).state = .pressed ∧ (s.key k).latchTimer = some s.timing.sample) ∨
          (s.key k).winkTimer = some s.timing.sample) ∨
        (∃ p, ((s.panel p).online = .online ∧ (s.panel p).silenceTimer = some s.timing.sample) ∨
          ∃ e ∈ (s.panel p).replyList, e.expiresAt = s.timing.sample) ∨
        ∃ c, (s.circuit c).intervalTimer = some s.timing.sample ∨
          ∃ p ∈ (s.circuit c).outstanding, p.expiresAt = s.timing.sample) ∧
      s.stepReady = false ∧ s.orders = [] := by
  intro s
  have k : ∀ k, s.key k = Key.reset := fun k => by simp [s, State.key, State.reset, State.blank]
  have p : ∀ p, s.panel p = Panel.reset := fun p => by simp [s, State.panel, State.reset, State.blank]
  have c : ∀ c, (s.circuit c).intervalTimer = none ∧ (s.circuit c).outstanding = [] := by decide +kernel
  refine ⟨by decide +kernel, by decide +kernel, ?_, by decide +kernel, rfl⟩
  simp [k, p, c, Key.reset, Panel.reset]
theorem witness_SampleInstantTicks_waits :
    48 ≤ (atEnd).timing.place ∧ (atEnd).awake = true ∧ manned.awake = true ∧ (manned.panel 0).online = .online ∧
      (manned.panel 0).silenceTimer = some manned.timing.sample ∧ (asked 7 (.swap 1 2)).awake = true ∧
      (asked 7 (.swap 1 2)).orders = [{ tag := 7, body := (Order.swap 1 2).body }] ∧
      (asked 7 (.swap 1 2)).orderReady 7 (readOrder (Order.swap 1 2).body) = true := by decide +kernel
theorem witness_BoundaryMixesAndSends : (atEnd).awake = true ∧ (atEnd).timing.place = 48 := by decide +kernel

/-- A port at the end of a period, whose buffer holds its stamp or not. -/
def closing (st : PortState) (settling held : Bool) (misses : Nat) : State :=
  atEnd (State.reset.setPort 0
    { portIn st with settling := settling, missCount := misses,
                     buffer := #v[if held then heldAt 0 else BufferPosition.empty, BufferPosition.empty,
                       BufferPosition.empty] })

theorem witness_BoundaryClosesPorts_open : (closing .down false false 0).awake = true ∧
    (closing .down false false 0).timing.place = 48 ∧ ((closing .down false false 0).port 0).state.carries = false := by decide +kernel
theorem witness_BoundaryClosesPorts_settling : (closing .up true false 0).awake = true ∧
    (closing .up true false 0).timing.place = 48 ∧
    ((closing .up true false 0).port 0).state.carries = true ∧ ((closing .up true false 0).port 0).settling = true := by
  decide +kernel
theorem witness_BoundaryClosesPorts_held :
    let s := closing .holdover false true 7
    s.awake = true ∧ s.timing.place = 48 ∧ (s.port 0).state.carries = true ∧ (s.port 0).settling = false ∧ s.closesWithFrame 0 = true ∧
      (s.port 0).state = .holdover := by decide +kernel
theorem witness_BoundaryClosesPorts_missed :
    let s := closing .up false false 6
    s.awake = true ∧ s.timing.place = 48 ∧ (s.port 0).state.carries = true ∧ (s.port 0).settling = false ∧ s.closesWithFrame 0 = false ∧
      (s.port 0).missCount < 7 := by decide +kernel
theorem witness_BoundaryClosesPorts_lost :
    let s := closing .holdover false false 7
    s.awake = true ∧ s.timing.place = 48 ∧ (s.port 0).state.carries = true ∧ (s.port 0).settling = false ∧ s.closesWithFrame 0 = false ∧
      7 ≤ (s.port 0).missCount ∧ s.straps.mgmt = 0 := by decide +kernel

theorem witness_FramesBeforeUp_ignored :
    (linked .disabled).awake = true ∧ Settled (linked .disabled) ∧ ((linked .disabled).port 0).state = .disabled := by
  decide +kernel
theorem witness_FramesBeforeUp_bad :
    (linked .up).awake = true ∧ Settled (linked .up) ∧ ((linked .up).port 0).state ≠ .disabled ∧
      readFrame (bareFrame.take 9) = none := by decide +kernel
theorem witness_FramesBeforeUp_down : (linked .down).awake = true ∧ Settled (linked .down) ∧ readFrame bareFrame = some bare ∧ ((linked .down).port 0).state = .down := by
  decide +kernel

/-- Port 0 in LOCKING with a last sequence number and a lock count. -/
def lockingAt (seq : BitVec 16) (n : Nat) : State :=
  State.reset.setPort 0 { portIn .locking with lastSeq := some seq, lockCount := n }

theorem witness_FramesBeforeUp_broken : (lockingAt 5 3).awake = true ∧ Settled (lockingAt 5 3) ∧
    readFrame bareFrame = some bare ∧ ((lockingAt 5 3).port 0).state = .locking ∧
    ((lockingAt 5 3).port 0).lastSeq ≠ some (bare.seq - 1) := by decide +kernel
theorem witness_FramesBeforeUp_counted : (lockingAt 4 6).awake = true ∧ Settled (lockingAt 4 6) ∧
    readFrame bareFrame = some bare ∧ ((lockingAt 4 6).port 0).state = .locking ∧
    ((lockingAt 4 6).port 0).lastSeq = some (bare.seq - 1) ∧ ((lockingAt 4 6).port 0).lockCount < 7 := by decide +kernel
theorem witness_FramesBeforeUp_locked : (lockingAt 4 7).awake = true ∧ Settled (lockingAt 4 7) ∧
    readFrame bareFrame = some bare ∧ ((lockingAt 4 7).port 0).state = .locking ∧
    ((lockingAt 4 7).port 0).lastSeq = some (bare.seq - 1) ∧ 7 ≤ ((lockingAt 4 7).port 0).lockCount := by decide +kernel

/-- Port 0 UP in period 0 with stamps in the positions of periods 1 and 2. -/
def stamped (a b : Bool) : State :=
  State.reset.setPort 0
    { portIn .up with buffer := #v[BufferPosition.empty, if a then heldAt 1 else BufferPosition.empty,
        if b then heldAt 2 else BufferPosition.empty] }

theorem witness_FramesStamped_first :
    let s := stamped false false
    s.awake = true ∧ Settled s ∧ readFrame bareFrame = some bare ∧ (s.port 0).state.carries = true ∧
      (tget (s.port 0).buffer (s.timing.position + 1)).stamp ≠ some (s.timing.period + 1) := by decide +kernel
theorem witness_FramesStamped_second :
    let s := stamped true false
    s.awake = true ∧ Settled s ∧ readFrame bareFrame = some bare ∧ (s.port 0).state.carries = true ∧
      (tget (s.port 0).buffer (s.timing.position + 1)).stamp = some (s.timing.period + 1) ∧
      (tget (s.port 0).buffer (s.timing.position + 2)).stamp ≠ some (s.timing.period + 2) := by decide +kernel
theorem witness_FramesStamped_slip :
    let s := stamped true true
    s.awake = true ∧ Settled s ∧ readFrame bareFrame = some bare ∧ (s.port 0).state.carries = true ∧
      (tget (s.port 0).buffer (s.timing.position + 1)).stamp = some (s.timing.period + 1) ∧
      (tget (s.port 0).buffer (s.timing.position + 2)).stamp = some (s.timing.period + 2) := by decide +kernel

theorem witness_OrderCellsQueued :
    let s := State.reset
    let full := { s with orders := List.replicate 16 ⟨1, []⟩ }
    s.timing.atBoundary = false ∧ 28 < (byteAt [1, 0, 7, 29] 3).toNat ∧
      byteAt [1, 0, 7, 28] 0 = 1 ∧ (byteAt [1, 0, 7, 28] 3).toNat ≤ 28 ∧ (1 : PortId) ≠ s.straps.mgmt ∧
      (0 : PortId) = s.straps.mgmt ∧ byteAt [1, 0, 7, 28] 1 = s.straps.node.setWidth 8 ∧ s.orders.length < 16 ∧
      full.timing.atBoundary = false ∧ 16 ≤ full.orders.length ∧
      byteAt [0x20] 0 ∉ ([0x01, 0x10, 0x11, 0x12, 0x21] : List Byte) ∧
      byteAt [0x22] 0 ∉ ([0x01, 0x10, 0x11, 0x12, 0x21] : List Byte) := by decide +kernel
theorem witness_OrderCellsQueued_keys :
    let event : List Byte := [0x10, 0, 0, 2, 31, 1]
    let map : List Byte := [0x11, 0, 0, 4, 0, 0, 0, 8]
    let turn : List Byte := [0x12, 0, 0, 2, 3, 255]
    let off := manned.setPanel 0 { manned.panel 0 with online := .offline }
    let bare := manned.setPanel 0 { manned.panel 0 with online := .unconfigured }
    (byteAt event 3).toNat ≤ 28 ∧ byteAt event 0 = 0x10 ∧ byteAt (cellBody event) 0 = 31 ∧
      byteAt (cellBody event) 1 = 1 ∧ (byteAt map 3).toNat ≤ 28 ∧ byteAt map 0 = 0x11 ∧ u32At (cellBody map) 0 = 8 ∧
      (byteAt turn 3).toNat ≤ 28 ∧ byteAt turn 0 = 0x12 ∧ byteAt (cellBody turn) 0 = 3 ∧
      byteAt (cellBody turn) 1 = 255 ∧ (∀ p, ¬(State.reset.panel p).configured = true) ∧
      (manned.panel 0).configured = true ∧ (manned.panel 0).port = 0 ∧
      (manned.panel 0).node.toNat = (byteAt event 1).toNat ∧ (∀ q, (manned.panel q).configured = true → q = 0) ∧
      (manned.panel 0).online = .online ∧ (∀ q, (off.panel q).configured = true → q = 0) ∧
      (off.panel 0).configured = true ∧ (off.panel 0).online = .offline ∧
      (∀ q, (bare.panel q).configured = true → q = 0) ∧ (bare.panel 0).configured = true ∧
      (bare.panel 0).online = .unconfigured := by decide +kernel

/-- Reset with REFCLK present or not, a selected source and an active one. -/
def refclk (present : Bool) (sel act : RefSource) : State :=
  { State.reset with timing := { State.reset.timing with refclkPresent := present, selected := sel, active := act } }

theorem witness_RefclkMoves_absent :
    (refclk true .refclk .refclk).awake = true ∧ Settled (refclk true .refclk .refclk) ∧
      (refclk true .refclk .refclk).timing.refclkPresent = true ∧
      (refclk true .refclk .refclk).timing.selected = .refclk ∧
      (refclk true .internal .internal).awake = true ∧ Settled (refclk true .internal .internal) ∧
      (refclk true .internal .internal).timing.refclkPresent = true ∧
      (refclk true .internal .internal).timing.selected ≠ .refclk := by decide +kernel
theorem witness_RefclkMoves_present :
    (refclk false .refclk .internal).awake = true ∧ Settled (refclk false .refclk .internal) ∧
      (refclk false .refclk .internal).timing.refclkPresent = false ∧
      (refclk false .refclk .internal).timing.selected = .refclk ∧
      (refclk false .refclk .internal).timing.active ≠ .refclk ∧
      (refclk false .internal .internal).awake = true ∧ Settled (refclk false .internal .internal) ∧
      (refclk false .internal .internal).timing.refclkPresent = false ∧
      (refclk false .internal .internal).timing.selected ≠ .refclk := by decide +kernel

/-! ## Orders -/

theorem witness_OrderWaits :
    commandOrder (.swap 7 1 2) = some (7, .swap 1 2) ∧ State.reset.orderReady 7 (.swap 1 2) = false ∧
      State.reset.stepReady = false := by decide +kernel

theorem witness_RecordReadAnswers :
    (asked 7 (.recordRead 5 1535 0x3FF)).Ready 7 (.recordRead 5 1535 0x3FF) ∧ tableOf 5 = some .key ∧
      (1535 : BitVec 16).toNat < TableName.key.records ∧
      maskOk (TableName.key.widths (1535 : BitVec 16).toNat) 20 0x3FF = true := by decide +kernel

theorem witness_RecordOrdersRefused_read :
    (asked 7 (.recordRead 11 0 1)).Ready 7 (.recordRead 11 0 1) ∧ tableOf 11 = none ∧
      (asked 7 (.recordRead 0 5 1)).Ready 7 (.recordRead 0 5 1) ∧ tableOf 0 = some .port ∧
      TableName.port.records ≤ (5 : BitVec 16).toNat ∧
      (asked 7 (.recordRead 0 4 32)).Ready 7 (.recordRead 0 4 32) ∧
      (4 : BitVec 16).toNat < TableName.port.records ∧
      maskOk (TableName.port.widths (4 : BitVec 16).toNat) 20 32 = false := by decide +kernel
theorem witness_RecordOrdersRefused_write :
    (asked 7 (.recordWrite 11 0 1 (area []))).Ready 7 (.recordWrite 11 0 1 (area [])) ∧
      (asked 7 (.recordWrite 1 256 1 (area []))).Ready 7 (.recordWrite 1 256 1 (area [])) ∧
      tableOf 1 = some .source ∧ TableName.source.records ≤ (256 : BitVec 16).toNat ∧
      (asked 7 (.recordWrite 1 255 8 (area []))).Ready 7 (.recordWrite 1 255 8 (area [])) ∧
      (255 : BitVec 16).toNat < TableName.source.records ∧
      writeMaskOk .source (255 : BitVec 16).toNat 20 8 = false := by decide +kernel

theorem witness_RecordWriteAnswers :
    (Instr.sourceWrite 7 255 2 (area [200])).wellFormed = true ∧
      commandOrder (.sourceWrite 7 255 2 (area [200])) =
        some (7, .recordWrite TableName.source.code 255 2 (area [200])) ∧
      WriteReady (writing .source 255 2 [200]) .source 7 255 2 (area [200]) := by decide +kernel

/-- Reset with a block in flight. -/
def inFlight (w : BlockWork) (next remaining : Nat) (s : State := State.reset) : State :=
  { s with block := some { tag := 9, work := w, next := next, remaining := remaining, handled := 0 } }

/-- The same with a step done last, so that the head order is next. -/
def inFlightThen (o : Order) : State :=
  { asked 7 o (inFlight .meterRead 0 1) with lastUnit := .step }

theorem witness_BlockOrdersPlaced_read :
    let o := Order.blockRead 5 1535 1 256 1
    (asked 7 o).Ready 7 o ∧ (inFlightThen o).Ready 7 o ∧ tableOf 5 = some .key ∧
      (1535 : BitVec 16).toNat < TableName.key.records ∧ readDirection 1 = some true ∧ 1 ≤ (256 : BitVec 16).toNat ∧
      (256 : BitVec 16).toNat ≤ 256 ∧ maskOk (TableName.key.widths (1535 : BitVec 16).toNat) 20 1 = true ∧
      (asked 7 o).block = none ∧ (inFlightThen o).block ≠ none := by decide +kernel
theorem witness_BlockOrdersPlaced_fill :
    let o := Order.fill 1 0 2 1 0 (slice [] 0 16)
    (asked 7 o).Ready 7 o ∧ (inFlightThen o).Ready 7 o ∧ tableOf 1 = some .source ∧
      (0 : BitVec 16).toNat < TableName.source.records ∧ readDirection 0 = some false ∧
      writeMaskOk .source (0 : BitVec 16).toNat 16 2 = true ∧
      valuesRefused .source (0 : BitVec 16).toNat
        (namedValues (TableName.source.widths (0 : BitVec 16).toNat) 2 (slice [] 0 16)) = false := by decide +kernel
theorem witness_BlockOrdersPlaced_meter :
    (asked 7 (.meterRead 255 64)).Ready 7 (.meterRead 255 64) ∧
      (inFlightThen (.meterRead 255 1)).Ready 7 (.meterRead 255 1) ∧ (64 : Byte).toNat ≤ 64 ∧ 1 ≤ (1 : Byte).toNat := by
  decide +kernel
theorem witness_BlockOrdersPlaced_list :
    (asked 7 (.routeList 255)).Ready 7 (.routeList 255) ∧
      (inFlightThen (.routeList 255)).Ready 7 (.routeList 255) := by decide +kernel
theorem witness_BlockOrdersPlaced_refused :
    let r := fun (t : Byte) (i : BitVec 16) (m : BitVec 32) (n : BitVec 16) (d : Byte) =>
      (asked 7 (.blockRead t i m n d)).Ready 7 (.blockRead t i m n d)
    let f := fun (t : Byte) (i : BitVec 16) (m : BitVec 32) (n : BitVec 16) (d : Byte) (v : List Byte) =>
      (asked 7 (.fill t i m n d v)).Ready 7 (.fill t i m n d v)
    let v : List Byte := slice [] 0 16
    r 11 0 1 1 0 ∧ tableOf 11 = none ∧ r 1 256 1 1 0 ∧ tableOf 1 = some .source ∧
      TableName.source.records ≤ (256 : BitVec 16).toNat ∧ r 1 255 1 1 2 ∧
      (255 : BitVec 16).toNat < TableName.source.records ∧ 1 < (2 : Byte).toNat ∧ r 1 255 1 0 0 ∧
      (0 : BitVec 16).toNat = 0 ∧ r 1 255 1 257 0 ∧ 256 < (257 : BitVec 16).toNat ∧ r 1 255 64 1 0 ∧
      maskOk (TableName.source.widths (255 : BitVec 16).toNat) 20 64 = false ∧ f 11 0 1 1 0 v ∧ f 1 256 1 1 0 v ∧
      f 1 255 1 1 2 v ∧ f 1 255 8 1 0 v ∧ writeMaskOk .source (255 : BitVec 16).toNat 16 8 = false := by decide +kernel
theorem witness_BlockOrdersPlaced_values :
    let limits : List Byte := slice [0, 5, 0, 5] 0 16
    (asked 7 (.fill 7 0 192 16 0 limits)).Ready 7 (.fill 7 0 192 16 0 limits) ∧ tableOf 7 = some .circuit ∧
      (0 : BitVec 16).toNat < TableName.circuit.records ∧
      writeMaskOk .circuit (0 : BitVec 16).toNat 16 192 = true ∧
      valuesRefused .circuit (0 : BitVec 16).toNat
        (namedValues (TableName.circuit.widths (0 : BitVec 16).toNat) 192 limits) = true ∧
      15 < TableName.circuit.records ∧ (∀ c, (State.reset.circuit c).upperLimit ≤ 65535) ∧
      valuesRefused .port 4 [(0, 6)] = true ∧ 4 < TableName.port.records ∧
      valuesRefused .panel 0 [(16, 9), (20, 8)] = true ∧ valuesRefused .key 0 [(0, 3), (1, 16)] = true ∧
      valuesRefused .station 0 [(0, 3), (2, 65535)] = false ∧ valuesRefused .cadence 0 [(3, 16)] = true := by
  decide +kernel
theorem witness_BlockOrdersPlaced_meterRefused :
    (asked 7 (.meterRead 0 0)).Ready 7 (.meterRead 0 0) ∧ (0 : Byte).toNat = 0 ∧
      (asked 7 (.meterRead 0 65)).Ready 7 (.meterRead 0 65) ∧ 64 < (65 : Byte).toNat := by decide +kernel

theorem witness_BlockReadAndFillSteps_read :
    let s := inFlight (.blockRead .key 1 true) 0 1
    s.StepReady { tag := 9, work := .blockRead .key 1 true, next := 0, remaining := 1, handled := 0 } ∧
      maskOk (TableName.key.widths 0) 20 1 = true := by decide +kernel
theorem witness_BlockReadAndFillSteps_mask :
    let s := inFlight (.blockRead .port 256 false) 4 1
    let f := inFlight (.fill .port 2 false (slice [1] 0 16)) 4 1
    s.StepReady { tag := 9, work := .blockRead .port 256 false, next := 4, remaining := 1, handled := 0 } ∧
      maskOk (TableName.port.widths 4) 20 256 = false ∧
      f.StepReady { tag := 9, work := .fill .port 2 false (slice [1] 0 16), next := 4, remaining := 1, handled := 0 } ∧
      writeMaskOk .port 4 16 2 = false := by decide +kernel
theorem witness_BlockReadAndFillSteps_fill :
    let v : List Byte := slice [200] 0 16
    let s := inFlight (.fill .source 2 false v) 255 1
    let more := inFlight (.fill .source 2 false v) 254 2
    s.StepReady { tag := 9, work := .fill .source 2 false v, next := 255, remaining := 1, handled := 0 } ∧
      more.StepReady { tag := 9, work := .fill .source 2 false v, next := 254, remaining := 2, handled := 0 } ∧
      writeMaskOk .source 255 16 2 = true ∧ 255 < TableName.source.records ∧
      (writeRecord .source 255 (namedValues (TableName.source.widths 255) 2 v) (takeStep s)).2 = .ok := by decide +kernel
theorem witness_BlockReadAndFillSteps_refused :
    let v : List Byte := slice [2] 0 16
    let s := inFlight (.fill .source 1 false v) 0 1
    s.StepReady { tag := 9, work := .fill .source 1 false v, next := 0, remaining := 1, handled := 0 } ∧
      (writeRecord .source 0 (namedValues (TableName.source.widths 0) 1 v) (takeStep s)).2 ≠ .ok := by decide +kernel

theorem witness_MeterAndListSteps_meter :
    let s := inFlight .meterRead 248 8
    s.StepReady { tag := 9, work := .meterRead, next := 248, remaining := 8, handled := 0 } ∧ 248 + 8 ≤ 256 := by
  decide +kernel
theorem witness_MeterAndListSteps_list :
    let s := inFlight (.routeList 5 none) 0 0 (routed 3 5)
    let more := inFlight (.routeList 5 none) 0 0 (routed 4 5)
    s.StepReady { tag := 9, work := .routeList 5 none, next := 0, remaining := 0, handled := 0 } ∧
      more.StepReady { tag := 9, work := .routeList 5 none, next := 0, remaining := 0, handled := 0 } ∧
      (s.entriesOf 5).length ≤ 3 ∧ 3 < (more.entriesOf 5).length := by decide +kernel

theorem witness_RouteOrdersAnswer :
    let a := Order.routeAdd 6 (List.replicate 6 ⟨1, 2, 128, 0⟩)
    let r := Order.routeRemove 1 [⟨1, 2⟩]
    let n := Order.routeNudge 1 1 15 [⟨1, 2⟩]
    let far := Order.routeNudge 1 1 16 [⟨1, 2⟩]
    (asked 7 a).Ready 7 a ∧ (asked 7 r).Ready 7 r ∧ (asked 7 n).Ready 7 n ∧ (asked 7 far).Ready 7 far ∧
      countOk 6 = true ∧ countOk 1 = true ∧ readDirection 1 = some true ∧ (15 : Byte).toNat ≤ 15 ∧
      15 < (16 : Byte).toNat := by decide +kernel
theorem witness_RouteOrdersAnswer_refused :
    let a := Order.routeAdd 7 []
    let r := Order.routeRemove 0 []
    let n := Order.routeNudge 7 0 1 []
    (asked 7 a).Ready 7 a ∧ (asked 7 r).Ready 7 r ∧ (asked 7 n).Ready 7 n ∧ countOk 7 = false ∧ countOk 0 = false ∧
      readDirection 0 = some false := by decide +kernel

theorem witness_RouteResults_add :
    let s := State.reset
    (1 < (⟨1, 5, 128, 2⟩ : RouteArg).cls.toNat) ∧ ((⟨1, 5, 1, 1⟩ : RouteArg).cls.toNat ≤ 1) ∧ (1 : Byte) ≠ 0 ∧
      ((s.setDest 5 { s.dest 5 with kind := .monitor }).dest 5).kind = .monitor ∧ (s.dest 5).kind ≠ .monitor ∧
      (routed 2 5).findEntry 1 5 = some (route 1 5 1) ∧ (route 1 5 1).static = true ∧
      s.findEntry 1 5 = none ∧ s.hasRoom 5 1 = true ∧
      (routed 32 5).findEntry 200 5 = none ∧ (routed 32 5).hasRoom 5 1 = false := by decide +kernel
theorem witness_RouteResults_kept :
    let e := newEntry (.grant 3) 128 .talk 1 5 0
    let s := State.reset.setEntries 5 [e]
    s.findEntry 1 5 = some e ∧ e.static = false := by decide +kernel
theorem witness_RouteResults_remove : StoreInv (routed 2 5) ∧ (routed 2 5).findEntry 1 5 = some (route 1 5 1) ∧
    (route 1 5 1).static = true ∧ (routed 2 5).findEntry 9 5 = none :=
  ⟨store_set store_reset rfl (by decide +kernel) (by unfold listInv EntriesInv; decide +kernel),
    by decide +kernel⟩

theorem witness_SwapExchanges : StoreInv (asked 7 (.swap 5 6) (routed 2 5)) ∧
    (asked 7 (.swap 5 6) (routed 2 5)).Ready 7 (.swap 5 6) ∧ (asked 7 (.swap 5 6) (routed 2 5)).swapCheck 5 6 = .ok :=
  ⟨store_set store_reset rfl (by decide +kernel) (by unfold listInv EntriesInv; decide +kernel),
    by decide +kernel⟩

/-- Routes into destination 5, and 31 others into 6. -/
def crowded (o : Order) : State :=
  asked 7 o { (routed 2 5).setEntries 6 ((List.finRange 256).drop 100 |>.take 31 |>.map fun i => route i 6 (i.val + 2))
    with nextSerial := 300 }

theorem witness_SwapExchanges_refused :
    let s := State.reset
    let other := asked 7 (.swap 5 6) (s.setDest 6 { s.dest 6 with kind := .ifb })
    (asked 7 (.swap 5 5)).Ready 7 (.swap 5 5) ∧ other.Ready 7 (.swap 5 6) ∧
      (other.dest 5).kind ≠ (other.dest 6).kind ∧ (crowded (.swap 5 6)).Ready 7 (.swap 5 6) ∧
      ((crowded (.swap 5 6)).dest 5).kind = ((crowded (.swap 5 6)).dest 6).kind ∧
      ((crowded (.swap 5 6)).dest 5).kind ≠ .monitor ∧ (crowded (.swap 5 6)).swapCheck 5 6 = .full := by decide +kernel
theorem witness_SwapExchanges_store : StoreInv (crowded (.swap 5 6)) :=
  store_set (s := routed 2 5) (store_set store_reset rfl (by decide +kernel) (by unfold listInv EntriesInv; decide +kernel)) rfl (by decide +kernel)
    (by unfold listInv EntriesInv; decide +kernel)

/-- Station 1 in party 3, or not. -/
def partied (o : Order) (members : List Member) : State :=
  asked 7 o (manned.setParty 3 { enabled := true, level := 128, members := members })

theorem witness_PartyOrdersAnswer_index :
    let j := Order.partyJoin 16 1 0
    let l := Order.partyLeave 3 192
    let f := Order.partyFlags 16 192 1 1
    (asked 7 j).Ready 7 j ∧ (asked 7 l).Ready 7 l ∧ (asked 7 f).Ready 7 f ∧ 16 ≤ (16 : Byte).toNat ∧
      192 ≤ (192 : Byte).toNat := by decide +kernel
theorem witness_PartyOrdersAnswer_join :
    let s := partied (.partyJoin 3 1 1) []
    s.Ready 7 (.partyJoin 3 1 1) ∧ (3 : Byte).toNat = (3 : PartyId).val ∧ (1 : Byte).toNat = (1 : StationId).val ∧
      (1 : Byte).toNat ≤ 1 ∧ (s.station 1).kind ≠ .unused ∧ (s.party 3).find 1 = none ∧
      (s.party 3).members.length < 24 ∧ s.membershipCount 1 < 4 := by decide +kernel
theorem witness_PartyOrdersAnswer_joinRefused :
    let s := partied (.partyJoin 3 1 2) []
    let unused := partied (.partyJoin 3 5 0) []
    let again := partied (.partyJoin 3 1 0) [⟨1, false, true⟩]
    let full := partied (.partyJoin 3 1 0) ((List.finRange 192).drop 2 |>.take 24 |>.map fun i => ⟨i, false, false⟩)
    s.Ready 7 (.partyJoin 3 1 2) ∧ 1 < (2 : Byte).toNat ∧ unused.Ready 7 (.partyJoin 3 5 0) ∧
      (unused.station 5).kind = .unused ∧ again.Ready 7 (.partyJoin 3 1 0) ∧ (again.party 3).find 1 ≠ none ∧
      full.Ready 7 (.partyJoin 3 1 0) ∧ (full.party 3).find 1 = none ∧ 24 ≤ (full.party 3).members.length := by
  decide +kernel
theorem witness_PartyOrdersAnswer_leave :
    let s := partied (.partyLeave 3 1) [⟨1, true, true⟩]
    let none_ := partied (.partyLeave 3 2) [⟨1, true, true⟩]
    s.Ready 7 (.partyLeave 3 1) ∧ (s.party 3).find 1 ≠ none ∧ none_.Ready 7 (.partyLeave 3 2) ∧
      (none_.party 3).find 2 = none := by decide +kernel
theorem witness_PartyOrdersAnswer_flags :
    let s := partied (.partyFlags 3 1 3 1) [⟨1, true, true⟩]
    let bad := partied (.partyFlags 3 1 4 1) [⟨1, true, true⟩]
    let none_ := partied (.partyFlags 3 2 1 3) [⟨1, true, true⟩]
    s.Ready 7 (.partyFlags 3 1 3 1) ∧ (3 : Byte) ≠ 0 ∧ (3 : Byte).toNat ≤ 3 ∧ (s.party 3).find 1 ≠ none ∧
      bad.Ready 7 (.partyFlags 3 1 4 1) ∧ 3 < (4 : Byte).toNat ∧ none_.Ready 7 (.partyFlags 3 2 1 3) ∧
      (none_.party 3).find 2 = none := by decide +kernel

theorem witness_StatusOrdersAnswer :
    (asked 7 (.statusRead 0x7FFF)).Ready 7 (.statusRead 0x7FFF) ∧ (0x7FFF : BitVec 16).getLsbD 15 = false ∧
      (asked 7 (.statusRead 0x8000)).Ready 7 (.statusRead 0x8000) ∧ (0x8000 : BitVec 16).getLsbD 15 = true ∧
      (asked 7 (.statusClear 0x7FFF)).Ready 7 (.statusClear 0x7FFF) ∧
      (asked 7 (.statusClear 0x8000)).Ready 7 (.statusClear 0x8000) := by decide +kernel

/-- CLEAR_DYNAMIC with a block in flight and room for two replies. -/
def clearing (w : BlockWork) : State := { asked 7 .clearDynamic (inFlight w 0 0) with lastUnit := .step }

/-- A FILL of SOURCE records from 7 on after three steps. -/
def threeWritten (down : Bool) : Block :=
  { tag := 9, work := .fill .source 2 down (area [200]), next := if down then 4 else 10, remaining := 2, handled := 3 }

/-- CLEAR_DYNAMIC with that block in flight. -/
def written (down : Bool) : State := { clearing .meterRead with block := some (threeWritten down) }

theorem witness_ClearDynamicClears :
    (asked 7 .clearDynamic).Ready 7 .clearDynamic ∧ (asked 7 .clearDynamic).block = none ∧
      (∀ w ∈ [BlockWork.blockRead .key 1 false, .fill .source 2 true (area [200]), .meterRead, .routeList 5 none],
        (clearing w).Ready 7 .clearDynamic ∧
          (clearing w).block = some { tag := 9, work := w, next := 0, remaining := 0, handled := 0 }) ∧
      (written true).Ready 7 .clearDynamic ∧ (written false).Ready 7 .clearDynamic ∧
      (State.reset.circuit 0).state = .disabled ∧
      ((State.reset.setCircuit 0 { State.reset.circuit 0 with state := .normal }).circuit 0).state ≠ .disabled := by
  decide +kernel
/-- R36, R43: from record 7 on three records are written, the last of them 5 descending and 9 ascending. -/
theorem test_aborted_fill :
    let bytes := fun (down : Bool) => (abortReply (threeWritten down) State.reset).replies.map fun r => r.body.take 8
    bytes true = [[4, 10, 128, 1, 0, 5, 0, 3]] ∧ bytes false = [[4, 10, 128, 1, 0, 9, 0, 3]] := by decide +kernel
/-- Circuit 4 NORMAL at a reporter whose destination's port is UP or not. -/
def measured (st : PortState) : State :=
  asked 7 .clearDynamic
    (((State.reset.setPort 1 (portIn st)).setStation 9 { kind := .reporter, source := none, dest := some 70 }).setCircuit 4
      { Circuit.reset 4 with enabled := true, state := .normal, reporter := 9, estimate := some 5 })

theorem witness_ClearDynamicClears_circuits :
    (measured .up).Ready 7 .clearDynamic ∧ ((measured .up).circuit 4).state ≠ .disabled ∧
      ((measured .up).station ((measured .up).circuit 4).reporter).dest = some 70 ∧
      ((measured .up).port (portOf 70)).state = .up ∧ (measured .down).Ready 7 .clearDynamic ∧
      ((measured .down).circuit 4).state ≠ .disabled ∧
      ((measured .down).station ((measured .down).circuit 4).reporter).dest = some 70 ∧
      ((measured .down).port (portOf 70)).state = .down := by decide +kernel
theorem witness_RestartAndUnlisted :
    (asked 7 .restart).Ready 7 .restart ∧ { State.reset with restart := .marked }.restart = .marked ∧
      (asked 7 (.unlisted 18)).Ready 7 (.unlisted 18) ∧ 17 < (18 : Byte).toNat ∧
      (asked 7 (.unlisted 0)).Ready 7 (.unlisted 0) ∧ (0 : Byte).toNat = 0 := by decide +kernel

/-- A value that a closed evaluation finds, as a witness. -/
theorem holds_of_any {α : Type} {o : Option α} {P : α → Prop} [DecidablePred P] (h : (o.any fun r => decide (P r)) = true) :
    ∃ r, o = some r ∧ P r := by
  cases o with
  | none => exact absurd h (by simp)
  | some r => exact ⟨r, rfl, of_decide_eq_true h⟩

/-! ## Record writes -/

theorem witness_PortWritesTakeEffect_enable :
    let s := writing .port 0 6 [1, 16]
    WriteReady s .port 7 0 6 (area [1, 16]) ∧ (0 : BitVec 16).toNat = (0 : PortId).val ∧
      isPortEnable 0 (writtenValues .port 0 6 (area [1, 16])) = true ∧
      widthField (writtenValues .port 0 6 (area [1, 16])) 2 (s.port 0).width ≠ none := by decide +kernel
theorem witness_PortWritesTakeEffect_disable :
    let s := writing .port 0 2 [0]
    let other := writing .port 3 2 [0]
    WriteReady s .port 7 0 2 (area [0]) ∧ isPortDisable 0 (writtenValues .port 0 2 (area [0])) = true ∧
      widthField (writtenValues .port 0 2 (area [0])) 2 (s.port 0).width ≠ none ∧ s.straps.mgmt = 0 ∧
      WriteReady other .port 7 3 2 (area [0]) ∧ (3 : BitVec 16).toNat = (3 : PortId).val ∧
      isPortDisable 3 (writtenValues .port 3 2 (area [0])) = true ∧
      widthField (writtenValues .port 3 2 (area [0])) 2 (other.port 3).width ≠ none ∧ other.straps.mgmt ≠ 3 ∧
      (other.port 3).state.carries = false := by decide +kernel
theorem witness_PortWritesTakeEffect_lost :
    let s := writing .port 3 2 [0] (State.reset.setPort 3 (portIn .holdover))
    WriteReady s .port 7 3 2 (area [0]) ∧ isPortDisable 3 (writtenValues .port 3 2 (area [0])) = true ∧
      widthField (writtenValues .port 3 2 (area [0])) 2 (s.port 3).width ≠ none ∧ s.straps.mgmt ≠ 3 ∧
      (s.port 3).state.carries = true := by decide +kernel
theorem witness_PortWritesTakeEffect_width :
    let s := writing .port 0 4 [16]
    let bad := writing .port 0 4 [17]
    WriteReady s .port 7 0 4 (area [16]) ∧ isOutgoingWidthWrite 0 (writtenValues .port 0 4 (area [16])) = true ∧
      names (writtenValues .port 0 4 (area [16])) 1 = false ∧
      widthField (writtenValues .port 0 4 (area [16])) 2 (s.port 0).width = some .w16 ∧
      WriteReady bad .port 7 0 4 (area [17]) ∧ isOutgoingWidthWrite 0 (writtenValues .port 0 4 (area [17])) = true ∧
      widthField (writtenValues .port 0 4 (area [17])) 2 (bad.port 0).width = none := by decide +kernel

theorem witness_ReferenceSelectTakesEffect :
    let s := writing .port 4 1 [5]
    let bad := writing .port 4 1 [6]
    WriteReady s .port 7 4 1 (area [5]) ∧ (4 : BitVec 16).toNat = 4 ∧
      (writtenValues .port 4 1 (area [5])).lookup 0 = some 5 ∧
      [RefSource.internal, .refclk, .port 0, .port 1, .port 2, .port 3][5]? = some (.port 3) ∧
      s.refPresent (.port 3) = false ∧ s.refPresent .internal = true ∧
      WriteReady bad .port 7 4 1 (area [6]) ∧ (writtenValues .port 4 1 (area [6])).lookup 0 = some 6 := by decide +kernel

theorem witness_SourceWritesTakeEffect :
    let s := writing .source 255 35 [1, 200, 255, 255]
    let bad := writing .source 255 1 [2]
    WriteReady s .source 7 255 35 (area [1, 200, 255, 255]) ∧ (255 : BitVec 16).toNat = (255 : SourceId).val ∧
      isSourceWrite 255 (writtenValues .source 255 35 (area [1, 200, 255, 255])) = true ∧
      boolField (writtenValues .source 255 35 (area [1, 200, 255, 255])) 0 (s.source 255).enabled = some true ∧
      WriteReady bad .source 7 255 1 (area [2]) ∧ isSourceWrite 255 (writtenValues .source 255 1 (area [2])) = true ∧
      boolField (writtenValues .source 255 1 (area [2])) 0 (bad.source 255).enabled = none := by decide +kernel

theorem witness_DestinationWritesTakeEffect_values :
    let v : List Byte := [0, 0, 200, 9, 255, 255]
    let s := writing .destination 255 87 v
    let l := writtenValues .destination 255 87 (area v)
    WriteReady s .destination 7 255 87 (area v) ∧ (255 : BitVec 16).toNat = (255 : DestId).val ∧
      boolField l 0 (s.dest 255).enabled = some false ∧ enumField l 1 destKinds (s.dest 255).kind = some .plain ∧
      DestKind.plain = (s.dest 255).kind ∧ isDestinationEnableWrite 255 l = true ∧ isOutputLevelWrite 255 l = true ∧
      isDimCodeWrite 255 l = true ∧ isClipCounterWrite 255 l = true ∧ isDestinationKindWrite 255 l = true := by
  decide +kernel
theorem witness_DestinationWritesTakeEffect_kind :
    let s := writing .destination 5 2 [1]
    let l := writtenValues .destination 5 2 (area [1])
    WriteReady s .destination 7 5 2 (area [1]) ∧ isDestinationKindWrite 5 l = true ∧
      boolField l 0 (s.dest 5).enabled = some true ∧ enumField l 1 destKinds (s.dest 5).kind = some .ifb ∧
      DestKind.ifb ≠ (s.dest 5).kind ∧ s.entriesOf 5 = [] ∧ (s.arbiter 5).current = none ∧
      (s.arbiter 5).waiting = [] ∧ (∀ x, ¬(s.tap x).enabled = true) ∧ (s.dest 5).circuit = none ∧
      (s.dest 5).kind ≠ .ifb ∧ ¬64 ≤ ((allOf 256).filter fun m => (s.dest m).kind == .ifb).length := by decide +kernel
theorem witness_DestinationWritesTakeEffect_refused :
    let used := writing .destination 5 2 [1] (routed 1 5)
    let named := writing .destination 20 2 [2] manned
    let many := writing .destination 5 2 [1]
      { State.reset with dests := State.reset.dests.mapFinIdx fun i r _ =>
          if 100 ≤ i ∧ i < 164 then { r with kind := .ifb } else r }
    let bad := writing .destination 5 1 [2]
    let b := writtenValues .destination 5 1 (area [2])
    WriteReady used .destination 7 5 2 (area [1]) ∧ used.entriesOf 5 ≠ [] ∧
      WriteReady named .destination 7 20 2 (area [2]) ∧ named.entriesOf 20 = [] ∧
      (∀ x, ¬(named.tap x).enabled = true) ∧ (named.dest 20).circuit = none ∧ (named.station 1).dest = some 20 ∧
      enumField (writtenValues .destination 20 2 (area [2])) 1 destKinds (named.dest 20).kind = some .monitor ∧
      WriteReady many .destination 7 5 2 (area [1]) ∧ many.entriesOf 5 = [] ∧
      (∀ x, (many.station x).dest = none) ∧ 64 ≤ ((allOf 256).filter fun m => (many.dest m).kind == .ifb).length ∧
      WriteReady bad .destination 7 5 1 (area [2]) ∧ isDestinationEnableWrite 5 b = true ∧
      boolField b 0 (bad.dest 5).enabled = none := by decide +kernel

theorem reset_key_idle (k : KeyId) : (State.reset.key k).state = .idle := by
  simp [State.key, State.reset, State.blank, Key.reset]
/-- No station is in use while no party has members, every key is IDLE and every circuit DISABLED. -/
theorem stationInUse_free {s : State} (t : StationId) (hp : ∀ p, (s.party p).find t = none)
    (hk : ∀ k, (s.key k).state = .idle) (hc : ∀ c, (s.circuit c).state = .disabled) : s.stationInUse t = false := by
  simp [State.stationInUse, hp, hk, hc, KeyState.isOn]

theorem witness_StationWritesTakeEffect :
    let v : List Byte := [1, 0, 10, 0, 20]
    let s := writing .station 191 7 v
    let l := writtenValues .station 191 7 (area v)
    WriteReady s .station 7 191 7 (area v) ∧ (191 : BitVec 16).toNat = (191 : StationId).val ∧
      isStationWrite 191 l = true ∧ enumField l 0 stationKinds (s.station 191).kind = some .panel ∧
      optionalField l 1 65535 (s.station 191).source = some (some 10) ∧
      optionalField l 2 65535 (s.station 191).dest = some (some 20) ∧ (s.dest 20).kind ≠ .monitor ∧
      s.stationInUse 191 = false :=
  ⟨by decide +kernel, by decide +kernel, by decide +kernel, by decide +kernel, by decide +kernel, by decide +kernel,
    by decide +kernel, stationInUse_free _ (by decide +kernel) reset_key_idle (by decide +kernel)⟩
theorem witness_StationWritesTakeEffect_none :
    let v : List Byte := [3, 255, 255]
    let l := writtenValues .station 1 5 (area v)
    let s := writing .station 1 5 v
    WriteReady s .station 7 1 5 (area v) ∧ isStationWrite 1 l = true ∧
      enumField l 0 stationKinds (s.station 1).kind = some .reporter ∧
      optionalField l 2 65535 (s.station 1).dest = some none := by decide +kernel
theorem witness_StationWritesTakeEffect_refused :
    let w : List Byte := [3, 0, 20]
    let k := writtenValues .station 1 5 (area w)
    let plain := writing .station 1 5 w
    let used := partied (.recordWrite 3 1 5 (area w)) [⟨1, false, false⟩]
    WriteReady plain .station 7 1 5 (area w) ∧ enumField k 0 stationKinds (plain.station 1).kind = some .reporter ∧
      optionalField k 1 65535 (plain.station 1).source = some none ∧
      optionalField k 2 65535 (plain.station 1).dest = some (some 20) ∧ (plain.dest 20).kind ≠ .ifb ∧
      WriteReady used .station 7 1 5 (area w) ∧ used.stationInUse 1 = true ∧ plain.stationInUse 1 = false :=
  ⟨by decide +kernel, by decide +kernel, by decide +kernel, by decide +kernel, by decide +kernel, by decide +kernel,
    by decide +kernel, stationInUse_free _ (by decide +kernel) reset_key_idle (by decide +kernel)⟩

theorem witness_PanelWritesTakeEffect_configure :
    let v : List Byte := [1, 0, 9, 3]
    let s := writing .panel 47 15 v
    let l := writtenValues .panel 47 15 (area v)
    WriteReady s .panel 7 47 15 (area v) ∧ (47 : BitVec 16).toNat = (47 : PanelId).val ∧ isPanelConfigure 47 l = true ∧
      (∃ r, (s.panel 47).updated l = some r ∧ r.configured = true ∧
        ∀ i, ¬(tget r.encoders i).maximum < (tget r.encoders i).minimum) ∧
      (s.panel 47).online = .unconfigured ∧ (∀ q, ¬(s.panel q).configured = true) := by
  refine ⟨by decide +kernel, by decide, by decide +kernel, holds_of_any (by decide +kernel), by decide +kernel⟩
theorem witness_PanelWritesTakeEffect_unconfigure :
    let s := writing .panel 0 1 [0]
      { ((State.reset.setKey 3 (talkKey .latched true)).setEntries 21 [newEntry (.grant 3) 128 .talk 10 21 0]) with
        stations := manned.stations, nextSerial := 1
        panels := tset State.reset.panels 0 { manned.panel 0 with online := .offline, silenceTimer := none } }
    let l := writtenValues .panel 0 1 (area [0])
    WriteReady s .panel 7 0 1 (area [0]) ∧ isPanelUnconfigure 0 l = true ∧
      (∃ r, (s.panel 0).updated l = some r ∧ r.configured = false ∧
        ∀ i, ¬(tget r.encoders i).maximum < (tget r.encoders i).minimum) ∧
      ((s.panel 0).online = .offline ∧ names l 1 = false ∧ names l 2 = false ∧ names l 3 = false ∧
        (s.panel 0).configured = true ∧ keyPanel 3 = 0 ∧ s.grantPair 3 = some (10, 21)) ∧ StoreInv s ∧ ArbiterInv s := by
  refine ⟨by decide +kernel, by decide +kernel, holds_of_any (by decide +kernel), by decide +kernel,
    store_set store_reset rfl (by decide +kernel) (by unfold listInv EntriesInv; decide +kernel),
    arbiter_empty rfl (standing_set standing_reset rfl (by decide))⟩
theorem witness_PanelWritesTakeEffect_settings :
    let s := writing .panel 0 32 [1, 44]
    let l := writtenValues .panel 0 32 (area [1, 44])
    WriteReady s .panel 7 0 32 (area [1, 44]) ∧ isPanelSettingsWrite 0 l = true ∧
      (∃ r, (s.panel 0).updated l = some r ∧ r.configured = (s.panel 0).configured ∧ r.configured = false ∧
        ∀ i, ¬(tget r.encoders i).maximum < (tget r.encoders i).minimum) ∧
      (s.panel 0).online = .unconfigured := by
  refine ⟨by decide +kernel, by decide +kernel, holds_of_any (by decide +kernel), by decide +kernel⟩
theorem witness_PanelWritesTakeEffect_refused :
    let crossed := writing .panel 0 0x110000 [9, 8]
    let busy := writing .panel 0 4 [9] manned
    let on := writing .panel 0 4 [9]
      ((manned.setPanel 0 { manned.panel 0 with online := .offline }).setKey 3 (talkKey .latched false))
    let twice := writing .panel 5 1 [1] manned
    let bad := writing .panel 5 16 [3]
    let k := writtenValues .panel 0 4 (area [9])
    WriteReady crossed .panel 7 0 0x110000 (area [9, 8]) ∧
      (∃ r, (crossed.panel 0).updated (writtenValues .panel 0 0x110000 (area [9, 8])) = some r ∧
        (tget r.encoders 0).maximum < (tget r.encoders 0).minimum) ∧
      (isPanelSettingsWrite 0 (writtenValues .panel 0 0x110000 (area [9, 8])) = true ∧
        WriteReady busy .panel 7 0 4 (area [9]) ∧ isPanelSettingsWrite 0 k = true ∧
        (busy.panel 0).online = .online ∧ names k 2 = true ∧ WriteReady on .panel 7 0 4 (area [9]) ∧
        (on.panel 0).online = .offline ∧ keyPanel 3 = 0 ∧ (on.key 3).state = .latched) ∧
      (∃ r, (on.panel 0).updated k = some r ∧ ∀ i, ¬(tget r.encoders i).maximum < (tget r.encoders i).minimum) ∧
      (∃ r, (twice.panel 5).updated (writtenValues .panel 5 1 (area [1])) = some r ∧ r.configured = true ∧ r.port = 0 ∧
        r.node = 0) ∧
      (WriteReady twice .panel 7 5 1 (area [1]) ∧ (twice.panel 5).online = .unconfigured ∧ (0 : PanelId) ≠ 5 ∧
        (twice.panel 0).configured = true ∧ (twice.panel 0).port = 0 ∧ (twice.panel 0).node = 0 ∧
        isPanelConfigure 5 (writtenValues .panel 5 1 (area [1])) = true) ∧
      WriteReady bad .panel 7 5 16 (area [3]) ∧ isPanelSettingsWrite 5 (writtenValues .panel 5 16 (area [3])) = true ∧
      (bad.panel 5).updated (writtenValues .panel 5 16 (area [3])) = none := by
  refine ⟨by decide +kernel, holds_of_any (by decide +kernel), by decide +kernel, holds_of_any (by decide +kernel),
    holds_of_any (by decide +kernel), by decide +kernel⟩

theorem witness_KeyWritesTakeEffect :
    let v : List Byte := [1, 0, 191, 2, 1, 200]
    let s := writing .key 1535 31 v
    let held := writing .key 1535 31 v (State.reset.setKey 1535 (talkKey .latched false))
    let l := writtenValues .key 1535 31 (area v)
    WriteReady s .key 7 1535 31 (area v) ∧ (1535 : BitVec 16).toNat = (1535 : KeyId).val ∧ isKeyWrite 1535 l = true ∧
      enumField l 0 keyFunctions (s.key 1535).function = some .talkStation ∧
      optionalField l 1 65535 (s.key 1535).target = some (some 191) ∧ (191 : Fin 256).val < 192 ∧
      enumField l 2 keyModes (s.key 1535).mode = some .auto ∧
      enumField l 3 priorities (s.key 1535).priority = some .high ∧ (s.key 1535).state = .idle ∧
      WriteReady held .key 7 1535 31 (area v) ∧ (held.key 1535).state ≠ .idle := by decide +kernel
theorem witness_KeyWritesTakeEffect_range :
    let v : List Byte := [3, 0, 16]
    let s := writing .key 0 3 v
    let l := writtenValues .key 0 3 (area v)
    WriteReady s .key 7 0 3 (area v) ∧ isKeyWrite 0 l = true ∧
      enumField l 0 keyFunctions (s.key 0).function = some .talkParty ∧
      optionalField l 1 65535 (s.key 0).target = some (some 16) ∧ ¬(16 : Fin 256).val < 16 ∧
      enumField l 2 keyModes (s.key 0).mode = some .momentary ∧
      enumField l 3 priorities (s.key 0).priority = some .low := by decide +kernel

/-- A write to party 3 of stations 1 (talking) and 2 (listening). -/
def partyWrite (enabled : Bool) (m : BitVec 32) (v : List Byte) : State :=
  writing .party 3 m v (manned.setParty 3 { enabled := enabled, level := 128, members := [⟨1, true, false⟩, ⟨2, false, true⟩] })

theorem witness_PartyWritesTakeEffect_store :
    StoreInv (partyWrite false 1 [1]) ∧ StoreInv (partyWrite true 1 [0]) ∧ StoreInv (partyWrite true 2 [9]) :=
  ⟨store_same store_reset rfl rfl, store_same store_reset rfl rfl, store_same store_reset rfl rfl⟩
theorem witness_PartyWritesTakeEffect_parties :
    PartyInv (partyWrite false 1 [1]) ∧ PartyInv (partyWrite true 1 [0]) ∧ PartyInv (partyWrite true 2 [9]) :=
  ⟨party_same rfl, party_same rfl, party_same rfl⟩
theorem witness_PartyWritesTakeEffect :
    let on := partyWrite false 1 [1]
    let off := partyWrite true 1 [0]
    let lev := partyWrite true 2 [9]
    WriteReady on .party 7 3 1 (area [1]) ∧ (3 : BitVec 16).toNat = (3 : PartyId).val ∧
      boolField (writtenValues .party 3 1 (area [1])) 0 (on.party 3).enabled = some true ∧
      isPartyEnable 3 (writtenValues .party 3 1 (area [1])) = true ∧ (on.party 3).enabled = false ∧
      WriteReady off .party 7 3 1 (area [0]) ∧
      boolField (writtenValues .party 3 1 (area [0])) 0 (off.party 3).enabled = some false ∧
      isPartyDisable 3 (writtenValues .party 3 1 (area [0])) = true ∧
      WriteReady lev .party 7 3 2 (area [9]) ∧
      boolField (writtenValues .party 3 2 (area [9])) 0 (lev.party 3).enabled = some (lev.party 3).enabled ∧
      isPartyLevelWrite 3 (writtenValues .party 3 2 (area [9])) = true := by decide +kernel

/-- Station 9 a reporter at IFB destination 70, with circuit 4 set for it. -/
def reporting (s : State := State.reset) : State :=
  ((s.setDest 70 { Dest.reset with kind := .ifb }).setStation 9 { kind := .reporter, source := none, dest := some 70 }).setCircuit
    4 { Circuit.reset 4 with reporter := 9 }

/-- The same with the circuit in service. -/
def reported (s : State := State.reset) : State :=
  let s := reporting s
  (s.setDest 70 { s.dest 70 with circuit := some 4 }).setCircuit 4
    { s.circuit 4 with enabled := true, state := .linkLost }

theorem witness_CircuitWritesTakeEffect_enable :
    let s := writing .circuit 4 1 [1] (reporting)
    let up := writing .circuit 4 1 [1] (reporting (State.reset.setPort 1 (portIn .up)))
    let l := writtenValues .circuit 4 1 (area [1])
    WriteReady s .circuit 7 4 1 (area [1]) ∧ WriteReady up .circuit 7 4 1 (area [1]) ∧ isCircuitEnable 4 l = true ∧
      (∃ r, (s.circuit 4).updated l = some r ∧ r.lowerLimit < r.upperLimit ∧ r.enabled = true ∧
        (s.station r.reporter).kind = .reporter ∧ (s.station r.reporter).dest = some 70) ∧
      (∃ r, (up.circuit 4).updated l = some r ∧ r.lowerLimit < r.upperLimit ∧ r.enabled = true ∧
        (up.station r.reporter).kind = .reporter ∧ (up.station r.reporter).dest = some 70) ∧
      (s.circuit 4).state = .disabled ∧ (s.circuit 4).enabled = false ∧ (up.circuit 4).enabled = false ∧
      (s.dest 70).circuit = none ∧ (s.port (portOf 70)).state.carries = false ∧
      (up.port (portOf 70)).state.carries = true := by
  refine ⟨by decide +kernel, by decide +kernel, by decide +kernel, holds_of_any (by decide +kernel),
    holds_of_any (by decide +kernel), by decide +kernel⟩
theorem witness_CircuitWritesTakeEffect_disable :
    let s := writing .circuit 4 1 [0] reported
    let l := writtenValues .circuit 4 1 (area [0])
    WriteReady s .circuit 7 4 1 (area [0]) ∧ (4 : BitVec 16).toNat = (4 : CircuitId).val ∧
      (∃ r, (s.circuit 4).updated l = some r ∧ r.lowerLimit < r.upperLimit ∧ r.enabled = false) ∧
      names l 2 = false ∧ names l 3 = false ∧ isCircuitDisable 4 l = true ∧ (s.circuit 4).enabled = true := by
  refine ⟨by decide +kernel, by decide, holds_of_any (by decide +kernel), by decide +kernel⟩
theorem witness_CircuitWritesTakeEffect_settings :
    let s := writing .circuit 4 16 [0, 100]
    let l := writtenValues .circuit 4 16 (area [0, 100])
    WriteReady s .circuit 7 4 16 (area [0, 100]) ∧
      (∃ r, (s.circuit 4).updated l = some r ∧ r.lowerLimit < r.upperLimit ∧ r.enabled = (s.circuit 4).enabled) ∧
      (s.circuit 4).state = .disabled ∧ isCircuitSettingsWrite 4 l = true := by
  refine ⟨by decide +kernel, holds_of_any (by decide +kernel), by decide +kernel⟩
theorem witness_CircuitWritesTakeEffect_refused :
    let bad := writing .circuit 4 8 [64]
    let crossed := writing .circuit 4 64 [0, 5]
    let bound := writing .circuit 4 4 [9] reported
    let b := writtenValues .circuit 4 4 (area [9])
    let wrong := writing .circuit 4 1 [1]
    let taken := writing .circuit 4 1 [1] ((reporting).setDest 70 { Dest.reset with kind := .ifb, circuit := some 5 })
    let l := writtenValues .circuit 4 1 (area [1])
    WriteReady bad .circuit 7 4 8 (area [64]) ∧
      isCircuitSettingsWrite 4 (writtenValues .circuit 4 8 (area [64])) = true ∧
      (bad.circuit 4).updated (writtenValues .circuit 4 8 (area [64])) = none ∧
      WriteReady crossed .circuit 7 4 64 (area [0, 5]) ∧
      isCircuitSettingsWrite 4 (writtenValues .circuit 4 64 (area [0, 5])) = true ∧
      (∃ r, (crossed.circuit 4).updated (writtenValues .circuit 4 64 (area [0, 5])) = some r ∧
        r.upperLimit ≤ r.lowerLimit) ∧
      (WriteReady bound .circuit 7 4 4 (area [9]) ∧ isCircuitSettingsWrite 4 b = true ∧ names b 2 = true ∧
        (bound.circuit 4).state ≠ .disabled) ∧
      (∃ r, (bound.circuit 4).updated b = some r ∧ r.lowerLimit < r.upperLimit) ∧
      (WriteReady wrong .circuit 7 4 1 (area [1]) ∧ isCircuitEnable 4 l = true ∧ (wrong.circuit 4).enabled = false) ∧
      (∃ r, (wrong.circuit 4).updated l = some r ∧ r.lowerLimit < r.upperLimit ∧ r.enabled = true ∧
        (wrong.station r.reporter).kind ≠ .reporter) ∧
      WriteReady taken .circuit 7 4 1 (area [1]) ∧ (taken.dest 70).circuit ≠ none ∧
      ∃ r, (taken.circuit 4).updated l = some r ∧ r.lowerLimit < r.upperLimit ∧ r.enabled = true ∧
        (taken.station r.reporter).kind = .reporter ∧ (taken.station r.reporter).dest = some 70 := by
  refine ⟨by decide +kernel, by decide +kernel, by decide +kernel, by decide +kernel, by decide +kernel,
    holds_of_any (by decide +kernel), by decide +kernel, holds_of_any (by decide +kernel), by decide +kernel,
    holds_of_any (by decide +kernel), by decide +kernel, by decide +kernel, holds_of_any (by decide +kernel)⟩
theorem witness_OrderCellsQueued_echo :
    let cell := fun (hi lo c : Byte) => ([0x21, 0, 0, 28, hi, lo, c] : List Byte)
    (byteAt (cell 0 10 4) 3).toNat ≤ 28 ∧ byteAt (cell 0 10 4) 0 = 0x21 ∧
      16 ≤ (byteAt (cellBody (cell 0 10 16)) 2).toNat ∧
      (byteAt (cellBody (cell 0 10 4)) 2).toNat = (4 : CircuitId).val ∧ (State.reset.circuit 4).state = .disabled ∧
      (reported.circuit 4).state ≠ .disabled ∧ (reported.station (reported.circuit 4).reporter).dest = some 70 ∧
      portOf 70 = 1 ∧ (byteAt (cell 0 10 4) 1).toNat = (reported.circuit 4).gateway.toNat ∧
      (u16At (cellBody (cell 0 10 4)) 0).toNat < 32768 ∧ 32768 ≤ (u16At (cellBody (cell 128 0 4)) 0).toNat := by
  decide +kernel
/-- The end of a period with port 1 the selected reference and circuit 4, in a state, behind it. -/
def closingField (r : Port) (st : CircuitState) : State :=
  let s := reported.setPort 1 r
  atEnd
    { s.setCircuit 4 { s.circuit 4 with state := st } with
      timing := { s.timing with selected := .port 1, active := if r.state = .up then .port 1 else .internal } }

theorem witness_BoundaryClosesPorts_field :
    let lost := closingField { portIn .up with missCount := 7 } .normal
    let back := closingField { portIn .holdover with buffer := Vector.replicate 3 (heldAt 0) } .linkLost
    lost.awake = true ∧ lost.timing.place = 48 ∧ (lost.port 1).state.carries = true ∧ (lost.port 1).settling = false ∧
      lost.closesWithFrame 1 = false ∧ 7 ≤ (lost.port 1).missCount ∧ lost.timing.selected = .port 1 ∧
      (lost.circuit 4).state = .normal ∧ (lost.station (lost.circuit 4).reporter).dest = some 70 ∧ portOf 70 = 1 ∧
      back.awake = true ∧ back.timing.place = 48 ∧ back.closesWithFrame 1 = true ∧ (back.port 1).state = .holdover ∧
      (back.port 1).settling = false ∧ back.timing.selected = .port 1 ∧ back.timing.pending.getD back.timing.active ≠ .port 1 ∧
      (back.circuit 4).state = .linkLost := by decide +kernel
/-- The locking port 1 with circuit 4 behind it is the selected reference. -/
theorem witness_FramesBeforeUp_restarts :
    let s := closingField { portIn .locking with lastSeq := some 4, lockCount := 7 } .linkLost
    s.awake = true ∧ Settled s ∧ readFrame bareFrame = some bare ∧ (s.port 1).state = .locking ∧
      (s.port 1).lastSeq = some (bare.seq - 1) ∧ 7 ≤ (s.port 1).lockCount ∧ (s.circuit 4).state = .linkLost ∧
      (s.station (s.circuit 4).reporter).dest = some 70 ∧ portOf 70 = 1 ∧ s.timing.selected = .port 1 ∧
      s.timing.active ≠ .port 1 := by decide +kernel
theorem witness_PortWritesTakeEffect_field :
    let s := writing .port 1 2 [0] (closingField (portIn .up) .degraded)
    WriteReady s .port 7 1 2 (area [0]) ∧ (1 : BitVec 16).toNat = (1 : PortId).val ∧
      isPortDisable 1 (writtenValues .port 1 2 (area [0])) = true ∧
      widthField (writtenValues .port 1 2 (area [0])) 2 (s.port 1).width ≠ none ∧ s.straps.mgmt ≠ 1 ∧
      (s.port 1).state.carries = true ∧ (s.circuit 4).state = .degraded ∧
      (s.station (s.circuit 4).reporter).dest = some 70 ∧ portOf 70 = 1 ∧ s.timing.selected = .port 1 := by decide +kernel

/-- A write to tap 2, set for sources 64 to 67 (or destinations) on monitor 9. -/
def tapWrite (enabled : Bool) (side : TapSide) (m : BitVec 32) (v : List Byte) : State :=
  writing .tap 2 m v
    ((State.reset.setDest 9 { Dest.reset with kind := .monitor }).setTap 2
      { Tap.reset with enabled := enabled, side := side, base := 64, mask := 3, monitor := 9, forward := false })

theorem witness_TapWritesTakeEffect_store :
    StoreInv (tapWrite false .source 1 [1]) ∧ StoreInv (tapWrite true .source 32 [9]) ∧
      StoreInv (tapWrite false .destination 8 [1]) :=
  ⟨store_same store_reset rfl rfl, store_same store_reset rfl rfl, store_same store_reset rfl rfl⟩
theorem witness_TapWritesTakeEffect_enable :
    let s := tapWrite false .source 1 [1]
    let d := tapWrite false .destination 1 [1]
    let l := writtenValues .tap 2 1 (area [1])
    WriteReady s .tap 7 2 1 (area [1]) ∧ (2 : BitVec 16).toNat = (2 : TapId).val ∧
      (∃ r, (s.tap 2).updated l = some r ∧ r.enabled = true ∧ r.side = .source ∧ r.mask = 3 ∧ r.monitor = 9 ∧
        s.entriesOf r.monitor = [] ∧ r.matched.length = 4) ∧
      (∃ r, (d.tap 2).updated l = some r ∧ r.enabled = true ∧ r.side = .destination ∧ r.mask = 3 ∧
        r.monitor ∉ r.matched ∧ d.entriesOf r.monitor = [] ∧ r.matched.length = 4) ∧
      isTapEnable 2 l = true ∧ (s.tap 2).enabled = false ∧ (s.dest 9).kind = .monitor ∧
      (∀ y, ¬(s.tap y).enabled = true) ∧ WriteReady d .tap 7 2 1 (area [1]) ∧ (d.tap 2).enabled = false ∧
      (d.dest 9).kind = .monitor ∧ (∀ y, ¬(d.tap y).enabled = true) := by
  refine ⟨by decide +kernel, by decide, holds_of_any (by decide +kernel),
    holds_of_any (by decide +kernel), by decide +kernel⟩
theorem witness_TapWritesTakeEffect_refused :
    let none_ := tapWrite false .source 2 [2]
    let n := writtenValues .tap 2 2 (area [2])
    let wide := tapWrite false .source 9 [1, 63]
    let w := writtenValues .tap 2 9 (area [1, 63])
    let kind := tapWrite false .source 17 [1, 8]
    let k := writtenValues .tap 2 17 (area [1, 8])
    let full := writing .tap 2 1 [1]
      (((routed 30 9).setDest 9 { Dest.reset with kind := .monitor }).setTap 2
        { Tap.reset with base := 64, mask := 3, monitor := 9 })
    let l := writtenValues .tap 2 1 (area [1])
    (WriteReady none_ .tap 7 2 2 (area [2]) ∧ isTapSettingsWrite 2 n = true ∧ (none_.tap 2).updated n = none) ∧
      (WriteReady wide .tap 7 2 9 (area [1, 63]) ∧ isTapEnable 2 w = true ∧ (wide.tap 2).enabled = false) ∧
      (∃ r, (wide.tap 2).updated w = some r ∧ r.enabled = true ∧ r.side = .source ∧
        5 < ((List.range 8).filter fun i => r.mask.getLsbD i).length) ∧
      (WriteReady kind .tap 7 2 17 (area [1, 8]) ∧ isTapEnable 2 k = true ∧ (kind.tap 2).enabled = false) ∧
      (∃ r, (kind.tap 2).updated k = some r ∧ r.enabled = true ∧ r.side = .source ∧ r.mask = 3 ∧
        (kind.dest r.monitor).kind ≠ .monitor) ∧
      (WriteReady full .tap 7 2 1 (area [1]) ∧ isTapEnable 2 l = true ∧ (full.tap 2).enabled = false) ∧
      ∃ r, (full.tap 2).updated l = some r ∧ r.enabled = true ∧ r.side = .source ∧ r.mask = 3 ∧
        (full.dest r.monitor).kind = .monitor ∧ (full.entriesOf r.monitor).length = 30 ∧
        (r.matched.filter fun n => (full.findEntry n r.monitor).isNone).length = 4 := by
  refine ⟨by decide +kernel, by decide +kernel, holds_of_any (by decide +kernel), by decide +kernel,
    holds_of_any (by decide +kernel), by decide +kernel, holds_of_any (by decide +kernel)⟩
theorem witness_TapWritesTakeEffect_full : StoreInv (writing .tap 2 1 [1]
    (((routed 30 9).setDest 9 { Dest.reset with kind := .monitor }).setTap 2
      { Tap.reset with base := 64, mask := 3, monitor := 9 })) ∧ StoreInv (tapWrite false .source 2 [2]) ∧
    StoreInv (tapWrite false .source 9 [1, 63]) ∧ StoreInv (tapWrite false .source 17 [1, 8]) :=
  ⟨store_set store_reset rfl (by decide +kernel) (by unfold listInv EntriesInv; decide +kernel),
    store_same store_reset rfl rfl, store_same store_reset rfl rfl, store_same store_reset rfl rfl⟩
theorem witness_TapWritesTakeEffect_disable :
    let s := tapWrite true .source 1 [0]
    let l := writtenValues .tap 2 1 (area [0])
    WriteReady s .tap 7 2 1 (area [0]) ∧ (∃ r, (s.tap 2).updated l = some r ∧ r.side = .source) ∧
      isTapDisable 2 l = true ∧ (s.tap 2).enabled = true ∧ namesTapSettings l = false := by
  refine ⟨by decide +kernel, holds_of_any (by decide +kernel), by decide +kernel⟩
theorem witness_TapWritesTakeEffect_level :
    let s := tapWrite true .source 32 [0]
    let off := tapWrite false .source 32 [0]
    let l := writtenValues .tap 2 32 (area [0])
    WriteReady s .tap 7 2 32 (area [0]) ∧ (∃ r, (s.tap 2).updated l = some r ∧ r.enabled = true) ∧
      isTapLevelWrite 2 l = true ∧ namesTapSettings l = false ∧ (s.tap 2).enabled = true ∧
      WriteReady off .tap 7 2 32 (area [0]) ∧ (∃ r, (off.tap 2).updated l = some r ∧ r.enabled = false) ∧
      (off.tap 2).enabled = false := by
  refine ⟨by decide +kernel, holds_of_any (by decide +kernel), by decide +kernel, by decide +kernel, by decide +kernel,
    by decide +kernel, holds_of_any (by decide +kernel), by decide +kernel⟩
theorem witness_TapWritesTakeEffect_settings :
    let s := tapWrite false .destination 8 [1]
    let on := tapWrite true .destination 8 [1]
    let l := writtenValues .tap 2 8 (area [1])
    WriteReady s .tap 7 2 8 (area [1]) ∧ (∃ r, (s.tap 2).updated l = some r ∧ r.enabled = false) ∧
      isTapSettingsWrite 2 l = true ∧ (s.tap 2).enabled = false ∧ namesAny l [1, 2, 3, 4] = true ∧
      WriteReady on .tap 7 2 8 (area [1]) ∧ (∃ r, (on.tap 2).updated l = some r) ∧ (on.tap 2).enabled = true := by
  refine ⟨by decide +kernel, holds_of_any (by decide +kernel), by decide +kernel, by decide +kernel, by decide +kernel,
    by decide +kernel, Option.isSome_iff_exists.mp (by decide +kernel), by decide +kernel⟩

theorem witness_CadenceWritesTakeEffect :
    let v : List Byte := [2, 88, 0, 200]
    let s := writing .cadence 5 3 v
    let bad := writing .cadence 1 1 [0, 100]
    let l := writtenValues .cadence 5 3 (area v)
    let k := writtenValues .cadence 1 1 (area [0, 100])
    WriteReady s .cadence 7 5 3 (area v) ∧ (5 : BitVec 16).toNat = (5 : CadenceId).val ∧ isCadenceWrite 5 l = true ∧
      l.lookup 0 = some 600 ∧ l.lookup 1 = some 200 ∧ (s.cadence 5).dim ≤ 600 - 200 ∧ l.lookup 3 = none ∧
      l.lookup 4 = none ∧ WriteReady bad .cadence 7 1 1 (area [0, 100]) ∧ isCadenceWrite 1 k = true ∧
      k.lookup 0 = some 100 ∧ 100 < (bad.cadence 1).bright := by decide +kernel
theorem witness_EventWritesTakeEffect :
    let s := writing .event 0 24 [1, 1]
    let bad := writing .event 14 16 [3]
    let l := writtenValues .event 0 24 (area [1, 1])
    WriteReady s .event 7 0 24 (area [1, 1]) ∧ (0 : BitVec 16).toNat = EventKind.started.number.val ∧
      isEventWrite 0 l = true ∧ boolField l 3 (s.event .started).enable = some true ∧
      enumField l 4 eventRoutes (s.event .started).route = some .alarm ∧ (s.event .started).isSet = true ∧
      EventRoute.alarm ≠ .notice ∧ WriteReady bad .event 7 14 16 (area [3]) ∧
      (14 : BitVec 16).toNat = EventKind.returnSilent.number.val ∧
      isEventWrite 14 (writtenValues .event 14 16 (area [3])) = true ∧
      enumField (writtenValues .event 14 16 (area [3])) 4 eventRoutes (bad.event .returnSilent).route = none := by
  decide +kernel

/-! ## Timers and blocks -/

theorem witness_KeyUnitTimersExpire_latch :
    let s := manned.setKey 3 { talkKey .pressed true with latchTimer := some 0 }
    s.awake = true ∧ Settled s ∧ (s.key 3).state = .pressed ∧ s.timerDue (s.key 3).latchTimer = true := by decide +kernel
theorem witness_KeyUnitTimersExpire_wink :
    let s := manned.setKey 3 { talkKey .refusedHeld true with winkTimer := some 0 }
    s.awake = true ∧ Settled s ∧ s.timerDue (s.key 3).winkTimer = true := by decide +kernel
theorem witness_KeyUnitTimersExpire_reply :
    let s := State.reset.setPanel 0 { Panel.reset with replyList := [⟨9, 0⟩] }
    s.awake = true ∧ Settled s ∧ ∃ e ∈ (s.panel 0).replyList, e.station = 9 ∧ s.due e.expiresAt = true := by
  decide +kernel
theorem witness_PanelPresence_silence :
    let s := manned.setPanel 0 { manned.panel 0 with lossPolicy := .keepAll }
    s.awake = true ∧ Settled s ∧ (s.panel 0).online = .online ∧ s.timerDue (s.panel 0).silenceTimer = true ∧
      (s.panel 0).lossPolicy = .keepAll := by decide +kernel
/-- Panel 0 with a loss policy and its silence timer due, key 3 in a state with its grant held. -/
def losing (policy : LossPolicy) (st : KeyState) : State :=
  { ((manned.setPanel 0 { manned.panel 0 with lossPolicy := policy }).setKey 3 (talkKey st true)).setEntries 21
      [newEntry (.grant 3) 128 .talk 10 21 0] with nextSerial := 1 }

theorem witness_PanelPresence_releases :
    let s := losing .dropAll .latched
    let l := losing .keepLatched .momentaryOn
    let k := losing .keepLatched .latched
    s.awake = true ∧ Settled s ∧ (s.panel 0).online = .online ∧ s.timerDue (s.panel 0).silenceTimer = true ∧
      keyPanel 3 = 0 ∧ (s.key 3).state ≠ .idle ∧ (s.panel 0).lossPolicy = .dropAll ∧ s.grantPair 3 = some (10, 21) ∧
      l.awake = true ∧ Settled l ∧ (l.panel 0).online = .online ∧ l.timerDue (l.panel 0).silenceTimer = true ∧
      (l.panel 0).lossPolicy = .keepLatched ∧ (l.key 3).state = .momentaryOn ∧ l.grantPair 3 = some (10, 21) ∧
      k.awake = true ∧ Settled k ∧ (k.panel 0).online = .online ∧ k.timerDue (k.panel 0).silenceTimer = true ∧
      (k.panel 0).lossPolicy = .keepLatched ∧ (k.key 3).state = .latched ∧ (k.key 3).standing ≠ .waiting := by
  decide +kernel
theorem witness_PanelPresence_invariants (policy : LossPolicy) (st : KeyState) :
    StoreInv (losing policy st) ∧ ArbiterInv (losing policy st) :=
  ⟨store_set store_reset rfl (show (0 : Nat) ≤ 1 by decide)
      (show listInv 21 [newEntry (.grant 3) 128 .talk 10 21 0] 1 by unfold listInv EntriesInv; decide +kernel),
    arbiter_empty rfl (standing_set standing_reset rfl rfl)⟩
/-- The panel's port is lost at a boundary, or, on a port that is not the management port, by PORT_DISABLE. -/
theorem witness_PanelsFollow (policy : LossPolicy) (st : KeyState) :
    let s := atEnd ((losing policy st).setPort 0 { portIn .holdover with missCount := 7 })
    let w := { writing .port 0 2 [0] ((losing policy st).setPort 0 (portIn .up)) with straps := { Straps.reset with mgmt := 1 } }
    (StoreInv s ∧ ArbiterInv s) ∧ StoreInv w ∧ ArbiterInv w :=
  have h := witness_PanelPresence_invariants policy st
  ⟨⟨store_same h.1 rfl rfl, h.2⟩, store_same h.1 rfl rfl, h.2⟩
theorem witness_PanelsFollow_lost :
    let s := atEnd ((losing .dropAll .latched).setPort 0 { portIn .holdover with missCount := 7 })
    let w := { writing .port 0 2 [0] ((losing .dropAll .latched).setPort 0 (portIn .up)) with
      straps := { Straps.reset with mgmt := 1 } }
    s.awake = true ∧ s.timing.place = 48 ∧ s.closesWithFrame 0 = false ∧ 7 ≤ (s.port 0).missCount ∧
      (s.port 0).settling = false ∧ (s.panel 0).configured = true ∧ (s.panel 0).online = .online ∧ (s.panel 0).port = 0 ∧
      keyPanel 3 = 0 ∧ (s.key 3).state ≠ .idle ∧ (s.panel 0).lossPolicy = .dropAll ∧ s.grantPair 3 = some (10, 21) ∧
      (s.key 4).state = .idle ∧ (s.key 4).standing ≠ .waiting ∧ WriteReady w .port 7 0 2 (area [0]) ∧ w.straps.mgmt ≠ 0 ∧
      (w.port 0).state.carries = true ∧ (w.panel 0).online = .online ∧ w.grantPair 3 = some (10, 21) := by decide +kernel
theorem witness_PanelPresence_encoder :
    let turned := fun (s : State) (target : Option (Fin 32)) =>
      s.setPanel 0 { s.panel 0 with encoders := tset (s.panel 0).encoders 0 { Encoder.reset with target := target, residue := 3 } }
    let own := turned manned none
    let held := turned (manned.setKey 3 (talkKey .momentaryOn true)) (some 3)
    Int.tdiv ((tget (own.panel 0).encoders 0).residue + 0) 4 = 0 ∧
      Int.tdiv ((tget (own.panel 0).encoders 0).residue + 1) 4 ≠ 0 ∧ (tget (own.panel 0).encoders 0).target = none ∧
      (own.station (own.panel 0).ownStation).dest = some 20 ∧ (tget (held.panel 0).encoders 0).target = some 3 ∧
      held.grantPair (keyIndex 0 3) = some (10, 21) ∧ (turned manned (some 3)).grantPair (keyIndex 0 3) = none ∧
      (State.reset.station (State.reset.panel 0).ownStation).dest = none := by decide +kernel
theorem witness_CircuitTimersExpire :
    let s := State.reset.setCircuit 0
      { Circuit.reset 0 with state := .starting, intervalTimer := some 0, outstanding := [⟨2, 0, 0⟩], lostInARow := 2 }
    s.awake = true ∧ Settled s ∧ s.timerDue (s.circuit 0).intervalTimer = true ∧ s.probeDue 0 2 = true ∧
      (s.circuit 0).lostInARow = 2 := by decide +kernel
theorem witness_CircuitTimersExpire_departs :
    let four := State.reset.setCircuit 4
      { Circuit.reset 4 with outstanding := [⟨1, 0, 0⟩, ⟨2, 0, 0⟩, ⟨3, 0, 0⟩, ⟨4, 0, 0⟩], lostInARow := 2 }
    (State.reset.circuit 4).outstanding.length < 4 ∧ four.timing.atBoundary = false ∧
      (atBoundary true four).timing.atBoundary = true ∧ 4 ≤ ((atBoundary true four).circuit 4).outstanding.length ∧
      ((atBoundary true four).circuit 4).lostInARow = 2 := by
  decide +kernel

theorem witness_HoldersArriveAndDepart : StoreInv (routed 2 5) ∧ StoreInv (routed 32 5) :=
  ⟨store_set store_reset rfl (by decide +kernel) (by unfold listInv EntriesInv; decide +kernel),
    store_set store_reset rfl (by decide +kernel) (by unfold listInv EntriesInv; decide +kernel)⟩
theorem witness_HoldersArriveAndDepart_arrive :
    (routed 2 5).findEntry 9 5 = none ∧ (routed 2 5).hasRoom 5 1 = true ∧ (routed 32 5).findEntry 99 5 = none ∧
      (routed 32 5).hasRoom 5 1 = false ∧ (routed 2 5).findEntry 1 5 = some (route 1 5 1) ∧
      (∀ k, Holder.grant 3 = .grant k → k ∈ (route 1 5 1).grants ∨ (route 1 5 1).grants.length < 32) := by
  refine ⟨by decide +kernel, by decide +kernel, by decide +kernel, by decide +kernel, by decide +kernel, ?_⟩
  intro k _; right; decide
theorem witness_HoldersArriveAndDepart_full :
    let e := { newEntry (.grant 3) 128 .talk 1 5 0 with grants := (allOf 32).map (keyIndex 0) }
    let s := { State.reset.setEntries 5 [e] with nextSerial := 1 }
    StoreInv s ∧ s.findEntry 1 5 = some e ∧ Holder.grant 40 = .grant 40 ∧ (40 : KeyId) ∉ e.grants ∧ 32 ≤ e.grants.length :=
  ⟨store_set store_reset rfl (by decide +kernel) (by unfold listInv EntriesInv; decide +kernel), by decide +kernel⟩
theorem witness_HoldersArriveAndDepart_depart :
    (routed 2 5).findEntry 1 5 = some (route 1 5 1) ∧ (route 1 5 1).holds .static = true ∧
      (routed 2 5).findEntry 9 5 = none := by decide +kernel
theorem witness_AssemblyClosesEntries :
    let s := State.reset.setDest 5 { Dest.reset with enabled := false }
    (s.dest 5).enabled = false ∧ (State.reset.dest 5).enabled = true := by decide +kernel

/-- A received period of one channel at full scale. -/
def loud : BufferPosition :=
  { BufferPosition.empty with stamp := some 0, slotCount := 1, slots := [List.replicate 48 8388607] }

/-- Destination 5 fed above full scale by source 0, so that it clips. -/
def clipping : State :=
  { ((State.reset.setPort 0 { portIn .up with buffer := #v[loud, .empty, .empty] }).setEntries 5
      [{ route 0 5 0 with level := 159, applied := 15872 }]) with nextSerial := 1 }

theorem witness_AssemblyClosesEntries_clips :
    (clipping.dest 5).enabled = true ∧ ∃ z ∈ clipping.destZ clipping 5, 8388607 < z ∨ z < -8388608 := by decide +kernel
/-- IFB destination 70 with a current key or not, and with circuit 4 in a state. -/
def dimming (talker : Bool) (st : CircuitState) : State :=
  ((State.reset.setDest 70 { Dest.reset with kind := .ifb, circuit := some 4 }).setCircuit 4
    { Circuit.reset 4 with state := st }).setArbiter 70 { current := if talker then some 4 else none, waiting := [] }

theorem witness_AssemblyClosesEntries_targets :
    let e := route 1 70 0
    let isolated := State.reset.setSource 1 { State.reset.source 1 with isolation := 1 }
    { e with state := .releasing }.state = .releasing ∧ 0 < (isolated.source 1).isolation ∧
      (isolated.dest 70).kind ≠ .monitor ∧ e.state ≠ .releasing ∧ e.cls = .programme ∧
      ((dimming true .degraded).source 1).isolation = 0 ∧ (State.reset.dest 70).kind ≠ .ifb ∧
      ((dimming false .normal).dest 70).kind = .ifb ∧ ((dimming false .normal).arbiter 70).current = none ∧
      ((dimming false .normal).circuit 4).state ≠ .degraded ∧ ((dimming true .normal).arbiter 70).current ≠ none ∧
      ((dimming true .normal).circuit 4).state ≠ .degraded ∧ ((dimming true .degraded).dest 70).circuit = some 4 ∧
      ((dimming true .degraded).circuit 4).state = .degraded ∧ ((dimming false .degraded).arbiter 70).current = none := by
  decide +kernel
theorem witness_AssemblyClosesEntries_samples :
    (clipping.source 0).enabled = true ∧
      (tget (clipping.port (portOf 0)).buffer clipping.timing.position).stamp = some clipping.timing.period ∧
      (slotOf 0).val < (tget (clipping.port (portOf 0)).buffer clipping.timing.position).slotCount ∧
      (tget (State.reset.port 0).buffer State.reset.timing.position).stamp ≠ some State.reset.timing.period := by
  decide +kernel

theorem witness_TalkKeyMoves_press :
    let s := manned.setKey 3 { talkKey .idle false with mode := .auto }
    Settled s ∧ (s.key 3).function = .talkStation ∧ (s.key 3).targetStation = some 2 ∧ s.ownSource 3 = some 10 ∧
      (s.station 2).dest = some 21 ∧ (s.key 3).state = .idle ∧ (s.key 3).down = false ∧ s.findEntry 10 21 = none ∧
      s.hasRoom 21 1 = true ∧ (s.key 3).mode = .auto := by decide +kernel
theorem witness_TalkKeyMoves_refused :
    let s := (manned (routed 0 0)).setEntries 21 ((List.finRange 256).drop 100 |>.take 32 |>.map fun i => route i 21 i.val)
    let s := s.setKey 3 (talkKey .idle false)
    Settled s ∧ (s.key 3).function = .talkStation ∧ (s.key 3).targetStation = some 2 ∧ s.ownSource 3 = some 10 ∧
      (s.station 2).dest = some 21 ∧ (s.key 3).state = .idle ∧ (s.key 3).down = false ∧ s.findEntry 10 21 = none ∧
      s.hasRoom 21 1 = false := by decide +kernel

/-- Key 3 on, its grant held. -/
def talking (st : KeyState) : State :=
  { (manned.setKey 3 (talkKey st true)).setEntries 21 [newEntry (.grant 3) 128 .talk 10 21 0] with nextSerial := 1 }

theorem witness_TalkKeyMoves_store : StoreInv (talking .momentaryOn) ∧ StoreInv (talking .pressed) :=
  ⟨store_set store_reset rfl (by decide +kernel) (by unfold listInv EntriesInv; decide +kernel),
    store_set store_reset rfl (by decide +kernel) (by unfold listInv EntriesInv; decide +kernel)⟩
theorem witness_TalkKeyMoves_release :
    let s := talking .momentaryOn
    let p := talking .pressed
    Settled s ∧ (s.key 3).function = .talkStation ∧ (s.key 3).targetStation = some 2 ∧ s.ownSource 3 = some 10 ∧
      (s.station 2).dest = some 21 ∧ (s.key 3).down = true ∧ (s.key 3).state = .momentaryOn ∧ Settled p ∧
      (p.key 3).function = .talkStation ∧ (p.key 3).targetStation = some 2 ∧ p.ownSource 3 = some 10 ∧
      (p.station 2).dest = some 21 ∧ (p.key 3).down = true ∧ (p.key 3).state = .pressed := by decide +kernel
theorem witness_TalkKeyMoves_states :
    let at_ := fun (st : KeyState) (down : Bool) => (manned.setKey 3 (talkKey st down)).key 3
    let pressed := manned.setKey 3 (talkKey .idle true)
    let lone := State.reset.setKey 3 (talkKey .idle true)
    (at_ .idle false).down = false ∧ (at_ .idle false).state = .idle ∧ (at_ .idle false).function ≠ .unassigned ∧
      (State.reset.key 3).function = .unassigned ∧ (State.reset.key 3).down = false ∧
      (acquire 3 pressed).2 = true ∧ (acquire 3 lone).2 = false ∧ (at_ .latched false).state = .latched ∧
      (at_ .refusedHeld false).state ≠ .idle ∧ (at_ .refusedHeld false).state ≠ .latched ∧
      (at_ .pressed true).state = .pressed ∧ (at_ .momentaryOn true).state = .momentaryOn ∧
      (at_ .unlatching true).state = .unlatching ∧ (at_ .refusedHeld true).state = .refusedHeld ∧
      (at_ .idle true).state = .idle ∧ (at_ .idle true).down = true := by decide +kernel

/-- Key 3 of a function and target, in a state. -/
def keyed (f : KeyFunction) (target : Option (Fin 256)) (st : KeyState) (s : State := manned) : State :=
  s.setKey 3 { Key.reset with function := f, target := target, state := st }

theorem witness_TalkKeyMoves_grants :
    let talk := keyed .talkStation (some 2) .idle
    let bare := keyed .talkStation (some 5) .idle
    let listen := keyed .listenStation (some 2) .idle
    let full := talk.setEntries 21 ((List.finRange 256).drop 100 |>.take 32 |>.map fun i => route i 21 i.val)
    let granted := fun (s : State) (a : SourceId) (b : DestId) => (arrive (.grant 3) (s.key 3).talkLevel .talk a b s).2
    let own := fun (s : State) => s.station (s.panel (keyPanel 3)).ownStation
    talk.timing.atBoundary = false ∧ (talk.key 3).function = .talkStation ∧ (talk.key 3).targetStation = some 2 ∧
      (own talk).source = some 10 ∧ (talk.station 2).dest = some 21 ∧ granted talk 10 21 = true ∧
      bare.timing.atBoundary = false ∧ (bare.key 3).targetStation = some 5 ∧ (bare.station 5).dest = none ∧
      (listen.key 3).function = .listenStation ∧ (listen.key 3).targetStation = some 2 ∧
      (listen.station 2).source = some 11 ∧ (own listen).dest = some 20 ∧ granted listen 11 20 = true ∧
      full.timing.atBoundary = false ∧ (full.key 3).targetStation = some 2 ∧ granted full 10 21 = false := by
  decide +kernel
theorem witness_TalkKeyMoves_reply :
    let idle := keyed .reply none .idle
    let called := fun (x : StationId) => idle.setPanel 0 { idle.panel 0 with replyList := [⟨x, 9⟩, ⟨4, 9⟩] }
    let granted := fun (s : State) (a : SourceId) (b : DestId) => (arrive (.grant 3) (s.key 3).talkLevel .talk a b s).2
    idle.timing.atBoundary = false ∧ (idle.key 3).function = .reply ∧ (idle.panel (keyPanel 3)).replyList = [] ∧
      ((called 2).panel (keyPanel 3)).replyList = ⟨2, 9⟩ :: [⟨4, 9⟩] ∧ ((called 2).station 2).dest = some 21 ∧
      granted (called 2) 10 21 = true ∧ ((called 5).panel (keyPanel 3)).replyList = ⟨5, 9⟩ :: [⟨4, 9⟩] ∧
      ((called 5).station 5).dest = none ∧
      granted ((called 2).setEntries 21 ((List.finRange 256).drop 100 |>.take 32 |>.map fun i => route i 21 i.val)) 10 21 =
        false := by decide +kernel
theorem witness_TalkKeyMoves_call :
    let s := keyed .callStation (some 2) .idle
      (manned.setPanel 7 { Panel.reset with configured := true, ownStation := 2, online := .offline })
    let nobody := keyed .callStation (some 5) .idle
    let self := keyed .callStation (some 1) .idle
    (s.key 3).function = .callStation ∧ (s.key 3).targetStation = some 2 ∧
      (2 : StationId) ≠ (s.panel (keyPanel 3)).ownStation ∧ (7 : PanelId) ≠ keyPanel 3 ∧
      (s.panel 7).configured = true ∧ (s.panel 7).ownStation = 2 ∧ (nobody.key 3).targetStation = some 5 ∧
      (∀ q, (nobody.panel q).ownStation ≠ 5) ∧ (self.key 3).targetStation = some 1 ∧
      1 = (self.panel (keyPanel 3)).ownStation := by decide +kernel

/-- Key 3 a talk key of party 3, whose members are stations 1 (talking or not) and 2 (listening); key 4 another of the same
party, in a state. -/
def inParty (talk : Bool) (other : KeyState) : State :=
  let s := (keyed .talkParty (some 3) .idle).setParty 3
    { enabled := true, level := 128, members := [⟨1, talk, false⟩, ⟨2, false, true⟩] }
  s.setKey 4 { Key.reset with function := .talkParty, target := some 3, state := other }

theorem witness_TalkKeyMoves_party :
    let s := inParty false .idle
    let t := inParty true .idle
    let held := inParty true .latched
    let away := keyed .talkParty (some 3) .idle
    (s.key 3).function = .talkParty ∧ (s.key 3).targetParty = some 3 ∧
      (s.station (s.panel (keyPanel 3)).ownStation).source = some 10 ∧ (s.party 3).find 1 = some ⟨1, false, false⟩ ∧
      (s.panel (keyPanel 3)).ownStation = 1 ∧ (∀ m ∈ (s.party 3).members, m.station = 1 → m.talk = false) ∧
      (s.party 3).enabled = true ∧ (⟨2, false, true⟩ : Member) ∈ (s.party 3).members ∧ (2 : StationId) ≠ 1 ∧
      (s.station 2).dest = some 21 ∧ (t.party 3).find 1 = some ⟨1, true, false⟩ ∧ (4 : KeyId) ≠ 3 ∧
      (held.panel (keyPanel 4)).ownStation = 1 ∧ (held.key 4).targetParty = some 3 ∧ (held.key 4).state = .latched ∧
      (away.key 3).targetParty = some 3 ∧ (away.party 3).find (away.panel (keyPanel 3)).ownStation = none := by
  decide +kernel
/-- No other key of the party is in an on state. -/
theorem witness_TalkKeyMoves_party_gives : StoreInv (inParty true .idle) ∧ PartyInv (inParty true .idle) ∧
    ∀ j, ((inParty true .idle).key j).state = .idle := by
  refine ⟨store_same store_reset rfl rfl, party_same rfl, fun j => ?_⟩
  have r : ((inParty true .idle).keys = tset (tset State.reset.keys 3
      { Key.reset with function := .talkParty, target := some 3 }) 4
      { Key.reset with function := .talkParty, target := some 3 }) := rfl
  unfold State.key
  rw [r]
  by_cases h4 : j = 4
  · subst h4; rw [tget_tset_same]; rfl
  · rw [tget_tset_ne _ _ _ _ h4]
    by_cases h3 : j = 3
    · subst h3; rw [tget_tset_same]; rfl
    · rw [tget_tset_ne _ _ _ _ h3]; exact reset_key_idle j
theorem witness_TalkKeyMoves_ear :
    let s := keyed .ifb (some 70) .idle (manned.setDest 70 { Dest.reset with kind := .ifb })
    let plain := keyed .ifb (some 70) .idle
    (s.key 3).function = .ifb ∧ (s.key 3).target = some 70 ∧ (s.dest 70).kind = .ifb ∧
      (s.station (s.panel (keyPanel 3)).ownStation).source = some 10 ∧ (plain.dest 70).kind ≠ .ifb := by decide +kernel
theorem witness_TalkKeyMoves_pairs :
    let talk := keyed .talkStation (some 2) .latched
    let listen := keyed .listenStation (some 2) .pressed
    let reply := manned.setKey 3 { Key.reset with function := .reply, state := .momentaryOn, resolved := some 2 }
    let own := fun (s : State) => s.station (s.panel (keyPanel 3)).ownStation
    (talk.key 3).state = .latched ∧ (talk.key 3).targetStation = some 2 ∧ (own talk).source = some 10 ∧
      (talk.station 2).dest = some 21 ∧ (listen.key 3).state = .pressed ∧ (listen.station 2).source = some 11 ∧
      (own listen).dest = some 20 ∧ (reply.key 3).state = .momentaryOn ∧ (reply.key 3).resolved = some 2 ∧
      (own reply).source = some 10 ∧ (reply.station 2).dest = some 21 := by decide +kernel

/-- IFB destination 70 with current key 4, a waiting list, and keys 3 (HIGH or not) and 4 to 8 of panel 0. -/
def ear (high : Bool) (waiting : List KeyId) (s : State := manned) : State :=
  let s := s.setDest 70 { Dest.reset with kind := .ifb }
  let s := s.setKey 3 { Key.reset with function := .ifb, target := some 70, priority := if high then .high else .low }
  let s := s.setKey 4 { Key.reset with function := .ifb, target := some 70, state := .latched, standing := .current }
  s.setArbiter 70 { current := some 4, waiting := waiting.map fun k => { key := k, high := false } }

theorem witness_ArbiterServesKeys_free :
    (State.reset.arbiter 70).current = none ∧ (requestGrant 3 10 70 State.reset).2 = true ∧
      ((routed 32 70).arbiter 70).current = none ∧ (requestGrant 3 100 70 (routed 32 70)).2 = false := by decide +kernel
theorem witness_ArbiterServesKeys_wait :
    let s := ear false [5, 6, 7]
    let f := ear false [5, 6, 7, 8]
    (s.arbiter 70).current = some 4 ∧ ¬((s.key 3).priority = .high ∧ (s.key 4).priority = .low) ∧
      (s.arbiter 70).waiting.length < 4 ∧ (f.arbiter 70).current = some 4 ∧ (f.key 3).priority = .low ∧
      (f.arbiter 70).waiting.length = 4 ∧ ∀ w ∈ (f.arbiter 70).waiting, w.key ≠ 3 := by decide +kernel
theorem witness_ArbiterServesKeys_preempt :
    let s := ear true [5, 6, 7]
    let f := ear true [5, 6, 7, 8]
    let h := f.setArbiter 70 { current := some 4, waiting := [⟨5, true⟩, ⟨6, true⟩, ⟨7, true⟩, ⟨8, true⟩] }
    (s.arbiter 70).current = some 4 ∧ (4 : KeyId) ≠ 3 ∧ (s.key 3).priority = .high ∧ (s.key 4).priority = .low ∧
      (requestGrant 3 10 70 s).2 = true ∧ (s.arbiter 70).waiting.length < 4 ∧ s.ownSource 4 = some 10 ∧
      (f.arbiter 70).current = some 4 ∧ (f.key 3).priority = .high ∧ (f.key 4).priority = .low ∧
      (requestGrant 3 10 70 f).2 = true ∧ (f.arbiter 70).waiting.length = 4 ∧
      (∀ w ∈ (f.arbiter 70).waiting, w.key ≠ 3 ∧ w.key ≠ 4) ∧ (∃ w ∈ (f.arbiter 70).waiting, w.high = false) ∧
      (f.arbiter 70).waiting.getLast? = some ⟨8, false⟩ ∧ (h.arbiter 70).current = some 4 ∧
      (requestGrant 3 10 70 h).2 = true ∧ (h.arbiter 70).waiting.length = 4 ∧
      (∀ w ∈ (h.arbiter 70).waiting, w.key ≠ 3 ∧ w.key ≠ 4 ∧ w.high = true) := by decide +kernel
/-- The store refuses the pre-emption of a full destination; and a HIGH request meets a HIGH current key. -/
theorem witness_ArbiterServesKeys_fallback :
    let s := fun (waiting : List KeyId) =>
      (ear true waiting).setEntries 70 ((List.finRange 256).drop 100 |>.take 32 |>.map fun i => route i 70 i.val)
    let c := (ear true [5, 6, 7, 8]).setKey 4
      { Key.reset with function := .ifb, target := some 70, priority := .high, state := .latched, standing := .current }
    ((s [5]).arbiter 70).current = some 4 ∧ ((s [5]).key 3).priority = .high ∧ ((s [5]).key 4).priority = .low ∧
      (requestGrant 3 10 70 (s [5])).2 = false ∧ ((s [5]).arbiter 70).waiting.length < 4 ∧
      (requestGrant 3 10 70 (s [5, 6, 7, 8])).2 = false ∧ ((s [5, 6, 7, 8]).arbiter 70).waiting.length = 4 ∧
      (∀ w ∈ ((s [5, 6, 7, 8]).arbiter 70).waiting, w.key ≠ 3) ∧
      (∃ w ∈ ((s [5, 6, 7, 8]).arbiter 70).waiting, w.high = false) ∧ ((s [5, 6, 7, 8]).key 3).priority = .high ∧
      ((s [5, 6, 7, 8]).arbiter 70).waiting.getLast? = some ⟨8, false⟩ ∧ (c.arbiter 70).current = some 4 ∧
      ¬((c.key 3).priority = .high ∧ (c.key 4).priority = .low) ∧ (c.arbiter 70).waiting.length = 4 ∧
      (c.key 3).priority = .high ∧ (∃ w ∈ (c.arbiter 70).waiting, w.high = false) := by decide +kernel
theorem witness_ArbiterServesKeys_leave :
    let s := ear false []
    let next := ear false [5, 6]
    let left := depart (.grant 4) 10 70 next
    (s.key 4).target = some 70 ∧ (s.arbiter 70).current = some 4 ∧ (s.arbiter 70).waiting = [] ++ [] ∧
      (next.key 4).target = some 70 ∧ (next.arbiter 70).current = some 4 ∧ next.ownSource 4 = some 10 ∧
      (next.arbiter 70).waiting = [] ++ ⟨5, false⟩ :: [⟨6, false⟩] ∧ ((next.arbiter 70).waiting.map Waiter.key).Nodup ∧
      (∀ w ∈ (next.arbiter 70).waiting, w.key ≠ 4) ∧ next.ownSource 5 = some 10 ∧
      (requestGrant 5 10 70 left).2 = true := by decide +kernel
/-- Key 5 of the own station's source is refused in a full destination; key 40 of panel 1 shares source 100's entry. -/
theorem witness_ArbiterServesKeys_refused :
    let full := fun (waiting : List KeyId) =>
      (((ear false waiting).setEntries 70 ((List.finRange 256).drop 100 |>.take 32 |>.map fun i => route i 70 i.val)).setStation
        3 { kind := .panel, source := some 100, dest := none }).setPanel 1
        { Panel.reset with configured := true, ownStation := 3 }
    let s := full [5, 40]
    let e := full [5]
    let left := fun (u : State) => depart (.grant 4) 10 70 u
    (s.key 4).target = some 70 ∧ (s.arbiter 70).current = some 4 ∧ s.ownSource 4 = some 10 ∧
      (s.arbiter 70).waiting = [⟨5, false⟩] ++ ⟨40, false⟩ :: [] ∧ ((s.arbiter 70).waiting.map Waiter.key).Nodup ∧
      (∀ w ∈ (s.arbiter 70).waiting, w.key ≠ 4) ∧ s.ownSource 5 = some 10 ∧ (requestGrant 5 10 70 (left s)).2 = false ∧
      s.ownSource 40 = some 100 ∧ (requestGrant 40 100 70 (left s)).2 = true ∧
      (e.arbiter 70).waiting = [⟨5, false⟩] ++ [] ∧ (requestGrant 5 10 70 (left e)).2 = false := by decide +kernel
theorem witness_ArbiterServesKeys_waiter :
    let s := (ear false [5, 6]).setKey 6 { Key.reset with function := .ifb, target := some 70, standing := .waiting }
    (s.key 6).target = some 70 ∧ (s.arbiter 70).current ≠ some 6 ∧ (∃ w ∈ (s.arbiter 70).waiting, w.key = 6) ∧
      (s.key 3).target = some 70 ∧ (s.arbiter 70).current ≠ some 3 ∧ ∀ w ∈ (s.arbiter 70).waiting, w.key ≠ 3 := by
  decide +kernel

/-- Circuit 4 in a state with an estimate and one probe outstanding. -/
def probing (st : CircuitState) (e : Option Nat) : State :=
  State.reset.setCircuit 4 { Circuit.reset 4 with state := st, estimate := e, outstanding := [⟨10, 0, 0⟩] }

theorem witness_EchoMeasures :
    (probing .normal (some 24000)).timing.atBoundary = false ∧
      ((probing .normal (some 24000)).circuit 4).outstanding = ⟨10, 0, 0⟩ :: [] ∧
      ((probing .normal (some 24000)).circuit 4).state = .normal ∧
      ((probing .normal (some 24000)).circuit 4).upperLimit < 24001 ∧
      ((probing .starting none).circuit 4).state = .starting ∧ 24000 ≤ ((probing .starting none).circuit 4).upperLimit ∧
      ((probing .degraded (some 19200)).circuit 4).state = .degraded ∧
      19199 < ((probing .degraded (some 19200)).circuit 4).lowerLimit ∧
      ((probing .degraded (some 19200)).circuit 4).lowerLimit ≤ 19200 := by decide +kernel
theorem witness_EchoMeasures_younger :
    let s := (probing .normal (some 24000)).setCircuit 4
      { (probing .normal (some 24000)).circuit 4 with outstanding := [⟨10, 0, 0⟩, ⟨20, 0, 0⟩, ⟨40, 0, 0⟩], lostInARow := 2 }
    s.timing.atBoundary = false ∧ (s.circuit 4).outstanding = [⟨10, 0, 0⟩] ++ ⟨20, 0, 0⟩ :: [⟨40, 0, 0⟩] ∧
      (∀ q ∈ [(⟨10, 0, 0⟩ : Probe)], q.tag ≠ 20) ∧ (s.circuit 4).lostInARow ≤ 2 ∧
      2 < (s.circuit 4).lostInARow + [(⟨10, 0, 0⟩ : Probe)].length ∧ (∀ p ∈ (s.circuit 4).outstanding, p.tag ≠ 7) ∧
      ((probing .linkLost none).circuit 4).state = .linkLost := by decide +kernel
theorem witness_EchoMeasures_silence :
    let at_ := fun (ms : Nat) (flag : Bool) => State.reset.setCircuit 4 { Circuit.reset 4 with silentMs := ms, silent := flag }
    (at_ 4999 false).timing.atBoundary = false ∧ ((at_ 4999 false).circuit 4).silenceThreshold ≤ 8389 ∧
      8388 < ((at_ 4999 false).circuit 4).silenceThreshold ∧ ((at_ 4999 false).circuit 4).silent = false ∧
      ((at_ 4999 false).circuit 4).silenceTime ≤ satInc 65535 ((at_ 4999 false).circuit 4).silentMs ∧
      satInc 65535 ((at_ 4998 false).circuit 4).silentMs < ((at_ 4998 false).circuit 4).silenceTime ∧
      ((at_ 5000 true).circuit 4).silent = true := by decide +kernel
theorem witness_EchoMeasures_link :
    let on := reported.setCircuit 4 { reported.circuit 4 with state := .starting }
    (on.circuit 4).state = .starting ∧ (on.station (on.circuit 4).reporter).dest = some 70 ∧ portOf 70 = 1 ∧
      (reported.circuit 4).state = .linkLost ∧ (reported.station (reported.circuit 4).reporter).dest = some 70 ∧
      (State.reset.circuit 4).state = .disabled := by decide +kernel

/-- Panel 0 with keys 4 and 9 to be sent, or its cadence. -/
def lampsDue (cadence : Bool) : State :=
  State.reset.setPanel 0
    { Panel.reset with configured := true, online := .online, lampPending := 0x210, cadencePending := cadence }

theorem witness_LampCellsServe :
    let due := lampsDue true
    let both := (due.setPanel 9 (due.panel 0)).setLampPosition 0 (some 0)
    (∀ p, ¬((State.reset.panel p).configured = true)) ∧ (due.panel 0).configured = true ∧ (due.panel 0).port = 0 ∧
      (due.panel 0).online = .online ∧ (due.panel 0).cadencePending = true ∧ due.lampPosition 0 = none ∧
      (∀ q, (due.panel q).configured = true → 0 ≤ q) ∧ ((lampsDue false).panel 0).cadencePending = false ∧
      ((lampsDue false).panel 0).lampPending ≠ 0 ∧ both.lampPosition 0 = some 0 ∧ (both.panel 9).configured = true ∧
      (both.panel 9).cadencePending = true ∧ (∀ q, (both.panel q).configured = true → q = 0 ∨ q = 9) ∧
      ((lampsDue false).setLampPosition 0 (some 7)).lampPosition 0 = some 7 := by decide +kernel
theorem witness_LampCellsServe_lane :
    let s := { linked .up with replies := [⟨7, List.replicate 28 0⟩] }
    s.straps.mgmt = 0 ∧ (s.port 0).state = .up ∧ s.replies[0]? = some ⟨7, List.replicate 28 0⟩ ∧
      (fillLane 0 0 s).1.length = 2 ∧ s.straps.mgmt ≠ 1 := by decide +kernel
theorem witness_LampCellsServe_cells :
    (State.reset.setProbeQueue 1 [4, 5]).probeQueue 1 = 4 :: [5] ∧
      State.reset.notices = { kind := .started, inst := none, period := 0 } :: [] ∧ State.reset.probeQueue 1 = [] ∧
      lampCell 1 State.reset = none ∧ (lampCell 0 (lampsDue false)).isSome = true := by decide +kernel
theorem witness_LampFollowsKey :
    let s := talking .momentaryOn
    let d := { (manned.setKey 3 (talkKey .idle false)).setEntries 20 [newEntry (.grant 99) 128 .talk 11 20 0] with
      nextSerial := 1 }
    (s.key 4).function = .unassigned ∧ (s.key 3).function ≠ .unassigned ∧ s.deriveLamp 3 = .on ∧
      d.deriveLamp 3 = .dim := by decide +kernel
theorem witness_AlarmFollowsRecords :
    State.reset.phase = .running ∧ (State.reset.event .portDown).enable = true ∧
      (State.reset.event .portDown).route ≠ .notice := by decide +kernel
theorem witness_AlarmFollowsRecords_start : ∃ straps, Started straps State.reset :=
  ⟨Straps.reset, rfl, rfl, rfl, rfl, by decide +kernel, rfl, rfl, rfl, rfl, fun _ => tget_replicate _ _,
    fun _ => tget_replicate _ _, fun _ => tget_replicate _ _, fun _ => tget_replicate _ _,
    fun _ => tget_replicate _ _, fun _ => tget_replicate _ _, fun _ => tget_replicate _ _,
    fun _ => tget_replicate _ _, fun _ => tget_replicate _ _, by decide +kernel, fun _ => tget_replicate _ _, rfl, rfl, by
    intro k hk; cases k <;> first | exact absurd rfl hk | rfl⟩
theorem witness_AlarmFollowsRecords_read :
    (asked 7 (.statusRead 2)).Ready 7 (.statusRead 2) ∧ (2 : BitVec 16).getLsbD 15 = false ∧
      (asked 7 (.statusRead 0x8000)).Ready 7 (.statusRead 0x8000) ∧ (0x8000 : BitVec 16).getLsbD 15 = true := by
  decide +kernel
/-- A sample tick leaves an enabled tap enabled. -/
theorem witness_TapMatches :
    let s := State.reset.setTap 2 { Tap.reset with enabled := true }
    exec .sampleInstant s = .next (sampleTick s) ∧ (s.tap 2).enabled = true ∧ ((sampleTick s).tap 2).enabled = true :=
  ⟨event_taken rfl (by
    simp only [State.instantOver, expiryDue_reset (s := State.reset.setTap 2 { Tap.reset with enabled := true }) rfl rfl rfl]
    decide +kernel), by decide +kernel, by decide +kernel⟩
theorem witness_TagsRun : (32767 : BitVec 15) ≠ 0 := by decide
theorem witness_MixArithmetic :
    (15872 : Nat) ≤ 15872 ∧ (0 : Nat) ≤ 15872 ∧ (46 : Nat) < 48 ∧ (46 : Nat) + 1 < 48 ∧ (47 : Nat) < 48 ∧ (158 : Level) < 159 ∧
      (-8388608 : Int) ≤ 8388607 ∧ (8388607 : Int) < 8388608 ∧ (-8388609 : Int) < -8388608 := by decide

end Sys2Proof.Machine.Tests
end

section
/-! PROOF. The limits of R71: the count of a destination as a sum over the taps, the moves that make no count larger, the two
that check their room first (an arrival, the enable of a DESTINATION-side tap), and with them every command. -/

namespace Sys2Proof.Machine

/-! ## The counts as sums -/

/-- R71: what a tap adds to the contribution count of destination d. -/
def Tap.feeds (r : Tap) (d : DestId) : Nat :=
  if (r.enabled && r.side == .destination && r.monitor == d) = true then r.matched.length else 0

theorem Tap.feeds_of_disabled {r : Tap} (h : r.enabled = false) (d : DestId) : r.feeds d = 0 := by simp [Tap.feeds, h]

theorem Tap.feeds_of_source {r : Tap} (h : r.side = .source) (d : DestId) : r.feeds d = 0 := by simp [Tap.feeds, h]

theorem Tap.feeds_le_matched (r : Tap) (d : DestId) : r.feeds d ≤ r.matched.length := by
  unfold Tap.feeds
  split <;> omega

theorem Tap.feeds_of_ne {r : Tap} {d : DestId} (h : d ≠ r.monitor) : r.feeds d = 0 := by
  simp [Tap.feeds, Ne.symm h]

theorem State.contributionCount_eq_sum (s : State) (d : DestId) :
    s.contributionCount d = (s.entriesOf d).length + ∑ x, (s.tap x).feeds d := by
  simp only [State.contributionCount, State.feedingTaps, allOf, Fin.sum_univ_def, Tap.feeds, List.sum_map_ite,
    List.map_const', List.sum_replicate, smul_zero, add_zero, Bool.decide_eq_true]

theorem State.storeCount_eq_sum (s : State) : s.storeCount = ∑ d, (s.entriesOf d).length := by
  have h : s.entries.toList = (List.finRange 256).map s.entriesOf := by
    apply List.ext_getElem <;> simp [State.entriesOf, tget]
  rw [State.storeCount, h, Fin.sum_univ_def, List.map_map]
  rfl

theorem limitsInv_iff (s : State) :
    LimitsInv s ↔ (∀ d, s.contributionCount d ≤ 32) ∧ s.storeCount ≤ 2048 := Iff.rfl

/-! ## Moves that make no count larger -/

/-- No destination has more entries in t than in s, and no tap feeds more. -/
def NoFuller (s t : State) : Prop :=
  (∀ d, (t.entriesOf d).length ≤ (s.entriesOf d).length) ∧ ∀ x d, (t.tap x).feeds d ≤ (s.tap x).feeds d

theorem NoFuller.limits {s t : State} (h : NoFuller s t) (hs : LimitsInv s) : LimitsInv t := by
  obtain ⟨hlen, hfeed⟩ := h
  obtain ⟨hcount, hstore⟩ := (limitsInv_iff s).1 hs
  refine (limitsInv_iff t).2 ⟨fun d => le_trans ?_ (hcount d), le_trans ?_ hstore⟩
  · rw [State.contributionCount_eq_sum, State.contributionCount_eq_sum]
    exact Nat.add_le_add (hlen d) (Finset.sum_le_sum fun x _ => hfeed x d)
  · rw [State.storeCount_eq_sum, State.storeCount_eq_sum]
    exact Finset.sum_le_sum fun d _ => hlen d

theorem NoFuller.of_taps_eq {s t : State} (ht : t.taps = s.taps)
    (h : ∀ d, (t.entriesOf d).length ≤ (s.entriesOf d).length) : NoFuller s t :=
  ⟨h, fun x d => by simp [State.tap, ht]⟩

theorem limits_of_same {s t : State} (he : t.entries = s.entries) (ht : t.taps = s.taps) (hs : LimitsInv s) :
    LimitsInv t :=
  (NoFuller.of_taps_eq ht fun d => by simp [State.entriesOf, he]).limits hs

/-- Writing the entry of a pair changes no list's length. -/
theorem entriesOf_mapEntry_length (s : State) (a : SourceId) (d : DestId) (f : Entry → Entry) (j : DestId) :
    ((s.mapEntry a d f).entriesOf j).length = (s.entriesOf j).length := by
  unfold State.mapEntry
  rw [State.entriesOf_setEntries]
  split
  next h => simp [h]
  next => rfl

theorem limits_of_mapEntry {s t : State} {a : SourceId} {d : DestId} {f : Entry → Entry} (ht : t.taps = s.taps)
    (he : t.entries = (s.mapEntry a d f).entries) (hs : LimitsInv s) : LimitsInv t := by
  refine (NoFuller.of_taps_eq ht fun j => ?_).limits hs
  have hj : t.entriesOf j = (s.mapEntry a d f).entriesOf j := by simp [State.entriesOf, he]
  rw [hj, entriesOf_mapEntry_length]

theorem depart_limits (h : Holder) (a : SourceId) (d : DestId) (s : State) (hs : LimitsInv s) :
    LimitsInv (depart h a d s) := by
  rcases depart_cases h a d s with ⟨-, hd⟩ | ⟨e, -, -, he⟩
  · rwa [hd]
  · exact limits_of_mapEntry (depart_touches h a d s .taps (by simp)) he hs

theorem writeEntryLevel_limits (l : Level) (a : SourceId) (d : DestId) (s : State) (hs : LimitsInv s) :
    LimitsInv (writeEntryLevel l a d s) :=
  limits_of_mapEntry (writeEntryLevel_touches l a d s .taps (by simp)) rfl hs

/-- R78: clearing holders removes no entry and creates none. -/
theorem clearStore_limits (s : State) (hs : LimitsInv s) : LimitsInv (clearStore s) := by
  refine (NoFuller.of_taps_eq (clearStore_touches s .taps (by simp)) fun d => ?_).limits hs
  simp [State.entriesOf, clearStore]

/-! ## A destination's assembly -/

theorem closeTaps_feeds (d : DestId) (s : State) (x : TapId) (j : DestId) :
    ((closeTaps d s).tap x).feeds j = (s.tap x).feeds j := by
  simp only [State.tap, closeTaps, tget_map]
  split <;> rfl

theorem closeEntries_length_le (s : State) (d : DestId) : (s.closeEntries d).length ≤ (s.entriesOf d).length := by
  simpa [State.closeEntries] using List.length_filter_le _ _

/-- R70: an assembly removes RELEASING entries and adds none. -/
theorem assembleDest_limits (before : State) (d : DestId) (s : State) (hs : LimitsInv s) :
    LimitsInv (assembleDest before d s) := by
  have hclose : ∀ r, LimitsInv (closeTaps d ((s.setEntries d (s.closeEntries d)).setDest d r)) := fun r => by
    refine NoFuller.limits ⟨fun j => ?_, fun x j => ?_⟩ hs
    · change ((s.setEntries d (s.closeEntries d)).entriesOf j).length ≤ _
      rw [State.entriesOf_setEntries]
      split
      next h => rw [h]; exact closeEntries_length_le s d
      next => exact le_rfl
    · rw [closeTaps_feeds]; exact le_rfl
  have hhand : ∀ (l : List Entry) (t : State), LimitsInv t → LimitsInv (l.foldl (fun t e => handEntry e.source d t) t) :=
    fun l t ht => foldl_keeps (fun u e hu => limits_of_same (t := handEntry e.source d u) rfl rfl hu) l t ht
  have hraise : ∀ t, LimitsInv t → LimitsInv (raise .clip (some d.val) t) := fun t ht =>
    limits_of_same (raise_touches _ _ t .entries (by simp)) (raise_touches _ _ t .taps (by simp)) ht
  unfold assembleDest
  dsimp only
  generalize (if (s.dest d).enabled = true then clippedCount (s.destZ before d) else 0) = clips
  split
  · exact hhand _ _ (hclose _)
  · exact hraise _ (hhand _ _ (hclose _))

/-! ## An arrival (R65, R72) -/

theorem createEntry_taps (h : Holder) (l : Level) (c : EntryClass) (a : SourceId) (d : DestId) (s : State) :
    (createEntry h l c a d s).taps = s.taps := rfl

theorem entriesOf_createEntry_length (h : Holder) (l : Level) (c : EntryClass) (a : SourceId) (d : DestId) (s : State)
    (j : DestId) :
    ((createEntry h l c a d s).entriesOf j).length = (s.entriesOf j).length + if j = d then 1 else 0 := by
  change ((s.setEntries d (s.entriesOf d ++ [newEntry h l c a d s.nextSerial])).entriesOf j).length = _
  rw [State.entriesOf_setEntries]
  split
  next hj => simp [hj]
  next => rfl

/-- A creation adds one to its destination's count and one to the store's: the room of R72 is what it needs. -/
theorem createEntry_limits (h : Holder) (l : Level) (c : EntryClass) (a : SourceId) (d : DestId) (s : State)
    (hroom : s.hasRoom d 1 = true) (hs : LimitsInv s) : LimitsInv (createEntry h l c a d s) := by
  obtain ⟨hcount, -⟩ := (limitsInv_iff s).1 hs
  simp only [State.hasRoom, Bool.and_eq_true, decide_eq_true_eq, Config.contributionCap, Config.storeCap] at hroom
  obtain ⟨hd, hstore⟩ := hroom
  refine (limitsInv_iff _).2 ⟨fun j => ?_, ?_⟩
  · have hj : (createEntry h l c a d s).contributionCount j = s.contributionCount j + if j = d then 1 else 0 := by
      simp only [State.contributionCount_eq_sum, entriesOf_createEntry_length, State.tap, createEntry_taps]
      omega
    rw [hj]
    split
    next hjd => rw [hjd]; exact hd
    next => exact hcount j
  · rw [State.storeCount_eq_sum] at hstore ⊢
    simpa only [entriesOf_createEntry_length, Finset.sum_add_distrib, Finset.sum_ite_eq', Finset.mem_univ, if_true]
      using hstore

theorem arrive_limits (h : Holder) (l : Level) (c : EntryClass) (a : SourceId) (d : DestId) (s : State)
    (hs : LimitsInv s) : LimitsInv (arrive h l c a d s).1 := by
  rcases arrive_cases h l c a d s with ⟨-, hroom, ha⟩ | ⟨-, -, ha⟩ | ⟨e, -, hfound⟩
  · rw [ha]; exact createEntry_limits h l c a d s hroom hs
  · rwa [ha]
  · rcases hfound with ⟨-, ha⟩ | ⟨-, -, -, ha⟩ | ⟨-, -, -, he⟩
    · rwa [ha]
    · rwa [ha]
    · exact limits_of_mapEntry (arrive_touches h l c a d s .taps (by simp)) he hs

/-! ## A party's change (R126 to R128) -/

theorem requestPair_limits (p : PartyId) (l : Level) (s : State) (x : MemberPair) (hs : LimitsInv s) :
    LimitsInv (requestPair p l s x) := by
  have ha := arrive_limits (.party p) l .talk x.source x.dest s hs
  unfold requestPair
  dsimp only
  split
  · exact ha
  · exact limits_of_same (raise_touches _ _ _ .entries (by simp)) (raise_touches _ _ _ .taps (by simp)) ha

theorem changeParty_limits (p : PartyId) (r : Party) (s : State) (hs : LimitsInv s) : LimitsInv (changeParty p r s) := by
  have hset : LimitsInv (s.setParty p r) := limits_of_same rfl rfl hs
  have hgone : ∀ l, LimitsInv (withdrawPairs p l (s.setParty p r)) := fun l =>
    foldl_keeps (fun t x ht => depart_limits (.party p) x.source x.dest t ht) l _ hset
  exact foldl_keeps (fun t x ht => requestPair_limits p r.level t x ht) _ _ (hgone _)

/-! ## A write to a tap (R177 to R183) -/

theorem lookup_of_not_named {l : List FieldValue} {f : Nat} (h : names l f = false) : l.lookup f = none := by
  rw [List.lookup_eq_none_iff]
  intro p hp
  have hne : p.1 ≠ f := by simpa using List.any_eq_false.1 h p hp
  simpa using hne.symm

theorem enumField_of_not_named {α : Type} {l : List FieldValue} {f : Nat} (h : names l f = false) (values : List α)
    (old : α) : enumField l f values old = some old := by simp [enumField, lookup_of_not_named h]

theorem numberField_of_not_named {l : List FieldValue} {f : Nat} (h : names l f = false) (old top : Nat) :
    numberField l f old top = some old := by simp [numberField, lookup_of_not_named h]

theorem indexField_of_not_named {n : Nat} {l : List FieldValue} {f : Nat} (h : names l f = false) (old : Fin n) :
    indexField l f old = some old := by simp [indexField, lookup_of_not_named h]

/-- R177: a write that names no setting keeps what the tap's matched set and its monitor are read from. -/
theorem Tap.updated_of_not_named {r r' : Tap} {l : List FieldValue} (hu : r.updated l = some r')
    (hn : namesTapSettings l = false) :
    r'.side = r.side ∧ r'.base = r.base ∧ r'.mask = r.mask ∧ r'.monitor = r.monitor := by
  simp only [namesTapSettings, Bool.or_eq_false_iff] at hn
  obtain ⟨⟨⟨⟨h1, h2⟩, h3⟩, h4⟩, -⟩ := hn
  unfold Tap.updated at hu
  rw [enumField_of_not_named h1, numberField_of_not_named h2, numberField_of_not_named h3,
    indexField_of_not_named h4] at hu
  split at hu
  next =>
    rename_i hside hbase hmask hmon _
    cases hu; cases hside; cases hbase; cases hmask; cases hmon
    simp
  next => cases hu

/-- What a write to a tap can do: nothing; enable a disabled tap whose checks of R178 to R180 pass; or store a record that
enables nothing and, on an enabled tap, names no setting. -/
theorem writeTap_cases (t : TapId) (l : List FieldValue) (s : State) :
    (writeTap t l s).1 = s ∨
    (∃ r, (s.tap t).enabled = false ∧ s.tapCheck r = .ok ∧ (writeTap t l s).1 = enableTap t r (s.setTap t r)) ∨
    ∃ r, (s.tap t).updated l = some r ∧ ((s.tap t).enabled = true → namesTapSettings l = false) ∧
      (r.enabled = true → (s.tap t).enabled = true) ∧
      (writeTap t l s).1 = settleTap t (s.tap t).enabled r l (s.setTap t r) := by
  unfold writeTap
  dsimp only
  split
  next => exact .inl rfl
  next r hr =>
    split
    next => exact .inl rfl
    next hset =>
      split
      next hen =>
        split
        next hc => exact .inr (.inl ⟨r, by simp_all, hc, rfl⟩)
        next => exact .inl rfl
      next hen => exact .inr (.inr ⟨r, hr, by simp_all, by simp_all, rfl⟩)

theorem setTap_noFuller {s : State} {t : TapId} {r : Tap} (h : ∀ d, r.feeds d ≤ (s.tap t).feeds d) :
    NoFuller s (s.setTap t r) := by
  refine ⟨fun _ => le_rfl, fun x d => ?_⟩
  rw [State.tap_setTap]
  split
  next hx => rw [hx]; exact h d
  next => exact le_rfl

/-- A record stored without an enable feeds no more than the one before it. -/
theorem Tap.updated_feeds_le {r r' : Tap} {l : List FieldValue} (hu : r.updated l = some r')
    (hn : r.enabled = true → namesTapSettings l = false) (he : r'.enabled = true → r.enabled = true) (d : DestId) :
    r'.feeds d ≤ r.feeds d := by
  cases hen : r'.enabled with
  | false => rw [Tap.feeds_of_disabled hen]; exact Nat.zero_le _
  | true =>
    obtain ⟨hside, hbase, hmask, hmon⟩ := Tap.updated_of_not_named hu (hn (he hen))
    simp [Tap.feeds, Tap.matched, hen, he hen, hside, hbase, hmask, hmon]

theorem isolate_limits (up : Bool) (s : State) (n : SourceId) (hs : LimitsInv s) : LimitsInv (isolate up s n) :=
  limits_of_same rfl rfl hs

theorem tapLevel_limits (r : Tap) (s : State) (hs : LimitsInv s) : LimitsInv (tapLevel r s) := by
  unfold tapLevel
  split
  · exact foldl_keeps (fun t n ht => writeEntryLevel_limits r.level n r.monitor t ht) _ _ hs
  · exact hs

theorem disableTap_limits (t : TapId) (r : Tap) (s : State) (hs : LimitsInv s) : LimitsInv (disableTap t r s) := by
  unfold disableTap
  split
  · have hleft := foldl_keeps (fun u n hu => depart_limits (.tap t) n r.monitor u hu) r.matched s hs
    dsimp only
    split
    · exact hleft
    · exact foldl_keeps (isolate_limits false) _ _ hleft
  · exact hs

theorem settleTap_limits (t : TapId) (was : Bool) (r : Tap) (l : List FieldValue) (s : State) (hs : LimitsInv s) :
    LimitsInv (settleTap t was r l s) := by
  have hlevel : LimitsInv (if (was && names l 5) = true then tapLevel r s else s) := by
    split
    · exact tapLevel_limits r s hs
    · exact hs
  unfold settleTap
  dsimp only
  split
  · exact disableTap_limits t r _ hlevel
  · exact hlevel

/-- R179: each pair of a SOURCE-side tap's batch arrives at the store, which keeps the limits itself. -/
theorem enableTap_limits (t : TapId) (r : Tap) (s : State) (hs : LimitsInv s) : LimitsInv (enableTap t r s) := by
  unfold enableTap
  split
  · have hheld := foldl_keeps (fun u n hu => arrive_limits (.tap t) r.level .talk n r.monitor u hu) r.matched s hs
    dsimp only
    split
    · exact hheld
    · exact foldl_keeps (isolate_limits true) _ _ hheld
  · exact hs

/-- A disabled tap that takes record r adds that record's feeds to every destination's count. -/
theorem contributionCount_setTap {s : State} {t : TapId} (h : (s.tap t).enabled = false) (r : Tap) (d : DestId) :
    (s.setTap t r).contributionCount d = s.contributionCount d + r.feeds d := by
  have hsum : ∑ x, ((s.setTap t r).tap x).feeds d = ∑ x, ((s.tap x).feeds d + if x = t then r.feeds d else 0) := by
    refine Finset.sum_congr rfl fun x _ => ?_
    rw [State.tap_setTap]
    split
    next hx => rw [hx, Tap.feeds_of_disabled h, Nat.zero_add]
    next => rfl
  simp only [State.contributionCount_eq_sum, State.entriesOf_setTap, hsum, Finset.sum_add_distrib, Finset.sum_ite_eq',
    Finset.mem_univ, if_true]
  omega

/-- R180: the check of a DESTINATION-side enable is the room its feeds need. -/
theorem tapCheck_destination_room {s : State} {r : Tap} (hside : r.side = .destination) (hc : s.tapCheck r = .ok) :
    s.contributionCount r.monitor + r.matched.length ≤ 32 := by
  unfold State.tapCheck at hc
  simp only [hside, Config.contributionCap] at hc
  split_ifs at hc with _ _ _ hroom
  exact hroom

/-- R179, R180: a tap whose checks passed is stored within the limits. -/
theorem setTap_limits_of_tapCheck {s : State} {t : TapId} {r : Tap} (hwas : (s.tap t).enabled = false)
    (hc : s.tapCheck r = .ok) (hs : LimitsInv s) : LimitsInv (s.setTap t r) := by
  cases hside : r.side with
  | source => exact (setTap_noFuller fun d => by rw [Tap.feeds_of_source hside]; exact Nat.zero_le _).limits hs
  | destination =>
    obtain ⟨hcount, hstore⟩ := (limitsInv_iff s).1 hs
    refine (limitsInv_iff _).2 ⟨fun d => ?_, hstore⟩
    rw [contributionCount_setTap hwas]
    by_cases hd : d = r.monitor
    · have hroom := tapCheck_destination_room hside hc
      have hfeed := r.feeds_le_matched d
      rw [hd] at hfeed ⊢
      omega
    · rw [Tap.feeds_of_ne hd]
      exact hcount d

theorem writeTap_limits (t : TapId) (l : List FieldValue) (s : State) (hs : LimitsInv s) :
    LimitsInv (writeTap t l s).1 := by
  rcases writeTap_cases t l s with hw | ⟨r, hwas, hc, hw⟩ | ⟨r, hu, hn, he, hw⟩
  · rwa [hw]
  · rw [hw]
    exact enableTap_limits t r _ (setTap_limits_of_tapCheck hwas hc hs)
  · rw [hw]
    exact settleTap_limits t _ r l _ ((setTap_noFuller (Tap.updated_feeds_le hu hn he)).limits hs)

/-! ## Every step -/

/-- After a start the store is empty and every tap is disabled. -/
theorem blank_limits (ph : Phase) (st : Straps) (dr : Nat) (pe : List Instr) : LimitsInv (State.blank ph st dr pe) := by
  have hentries : ∀ d, (State.blank ph st dr pe).entriesOf d = [] := fun d => tget_replicate _ d
  have htap : ∀ x, (State.blank ph st dr pe).tap x = Tap.reset := fun x => tget_replicate _ x
  have hfeed : ∀ d, Tap.reset.feeds d = 0 := Tap.feeds_of_disabled rfl
  refine (limitsInv_iff _).2 ⟨fun d => ?_, ?_⟩
  · simp [State.contributionCount_eq_sum, hentries, htap, hfeed]
  · simp [State.storeCount_eq_sum, hentries]

theorem limitsInv_storeClosed : StoreClosed LimitsInv where
  other h hs := limits_of_same (h .entries (by simp)) (h .taps (by simp)) hs
  arrive h l c a d s _ hs := arrive_limits h l c a d s hs
  depart h a d s _ hs := depart_limits h a d s hs
  level := writeEntryLevel_limits
  change := changeParty_limits
  assemble := assembleDest_limits
  clear s hs := limits_of_same rfl rfl (clearStore_limits s hs)
  station _ _ _ _ hs := limits_of_same rfl rfl hs
  tap := writeTap_limits
  blank := blank_limits

/-- A property that every command keeps is one that every step keeps. -/
theorem step_keeps {P : State → Prop} (hP : StoreClosed P) {s t : State} (hs : P s) (hst : step s = .next t) : P t := by
  unfold step at hst
  split at hst
  next => cases hst; exact hs
  next c rest _ =>
    have hrest : Touches [.pending] s { s with pending := rest } := by
      intro f hf; cases f <;> simp_all [Fld.same]
    exact exec_keeps hP c hst (hP.other hrest.up hs)

/-- Settles O9: R71's limits hold of the empty store, and each of the moves that commands are made of keeps them. -/
theorem limitsKept : Obligations.LimitsKept :=
  ⟨limits_of_same rfl rfl (blank_limits .running Straps.reset 0 []), fun _ _ hs hst =>
    step_keeps limitsInv_storeClosed hs hst⟩

end Sys2Proof.Machine
end

section
/-! PROOF. The matched set of a tap (R176): a number matches when its difference from the base lies inside the mask, so the
matched numbers stand in bijection with the subsets of the mask's set bits; and, command by command, a tap that is enabled
before and after keeps its matched set. -/

namespace Sys2Proof.Machine

/-! ## Words as sets of bits -/

/-- The places of the bits set in a word. -/
def setBits {w : Nat} (m : BitVec w) : Finset Nat := (Finset.range w).filter fun i => m.getLsbD i = true

/-- The word whose set bits are those of a set. -/
def wordOf (w : Nat) (u : Finset Nat) : BitVec w := BitVec.ofFnLE fun i => decide (i.val ∈ u)

theorem mem_setBits {w : Nat} {m : BitVec w} {i : Nat} : i ∈ setBits m ↔ m.getLsbD i = true := by
  simp only [setBits, Finset.mem_filter, Finset.mem_range, and_iff_right_iff_imp]
  exact BitVec.lt_of_getLsbD

theorem setBits_subset {w : Nat} (m : BitVec w) : setBits m ⊆ Finset.range w := Finset.filter_subset _ _

theorem getLsbD_wordOf {w : Nat} (u : Finset Nat) {i : Nat} (hi : i < w) :
    (wordOf w u).getLsbD i = decide (i ∈ u) := by
  simp [wordOf, hi]

theorem setBits_wordOf {w : Nat} {u : Finset Nat} (hu : u ⊆ Finset.range w) : setBits (wordOf w u) = u := by
  ext i
  rw [mem_setBits]
  by_cases hi : i < w
  · simp [getLsbD_wordOf u hi]
  · have hout : i ∉ u := fun h => hi (Finset.mem_range.1 (hu h))
    simp [hout, BitVec.getLsbD_of_ge _ _ (Nat.le_of_not_lt hi)]

theorem wordOf_setBits {w : Nat} (m : BitVec w) : wordOf w (setBits m) = m := by
  apply BitVec.eq_of_getLsbD_eq
  intro i hi
  simp [getLsbD_wordOf _ hi, mem_setBits]

theorem card_setBits (m : BitVec 8) : (setBits m).card = bitCount m := by
  simp only [setBits, bitCount, Finset.card, Finset.filter, Finset.range, Multiset.range, Multiset.filter_coe,
    Multiset.coe_card, Bool.decide_eq_true]

/-! ## The matched numbers (R176) -/

theorem tapMatches_iff (base mask : BitVec 8) (n : Fin 256) :
    tapMatches base mask n = true ↔
      ∀ i < 8, mask.getLsbD i = false → (BitVec.ofNat 8 n.val).getLsbD i = base.getLsbD i := by
  unfold tapMatches
  rw [beq_iff_eq]
  constructor
  · intro h i hi hm
    have hbit : ((BitVec.ofNat 8 n.val ^^^ base) &&& ~~~mask).getLsbD i = false := by
      rw [h]; exact BitVec.getLsbD_zero
    rw [BitVec.getLsbD_and, BitVec.getLsbD_not, BitVec.getLsbD_xor, hm] at hbit
    simpa only [hi, decide_true, Bool.not_false, Bool.and_true, bne_eq_false_iff_eq] using hbit
  · intro h
    apply BitVec.eq_of_getLsbD_eq
    intro i hi
    rw [BitVec.getLsbD_and, BitVec.getLsbD_not, BitVec.getLsbD_xor]
    cases hm : mask.getLsbD i with
    | true => simp
    | false => rw [h i hi hm]; simp

/-- The difference of a matched number from the base lies inside the mask. -/
theorem tapMatches_iff_setBits_subset (base mask : BitVec 8) (n : Fin 256) :
    tapMatches base mask n = true ↔ setBits (BitVec.ofNat 8 n.val ^^^ base) ⊆ setBits mask := by
  rw [tapMatches_iff]
  simp only [Finset.subset_iff, mem_setBits, BitVec.getLsbD_xor, bne_iff_ne]
  constructor
  · intro h i hne
    have hi : i < 8 := by
      by_contra hge
      exact hne (by simp [BitVec.getLsbD_of_ge _ _ (Nat.le_of_not_lt hge)])
    by_contra hm
    exact hne (h i hi (by simpa using hm))
  · intro h i _ hm
    by_contra hne
    simp [h hne] at hm

/-- The number that differs from the base in the places of a set. -/
def numberAt (base : BitVec 8) (u : Finset Nat) : Fin 256 := (wordOf 8 u ^^^ base).toFin

theorem setBits_numberAt_xor (base : BitVec 8) {u : Finset Nat} (hu : u ⊆ Finset.range 8) :
    setBits (BitVec.ofNat 8 (numberAt base u).val ^^^ base) = u := by
  have hword : BitVec.ofNat 8 (numberAt base u).val = wordOf 8 u ^^^ base := by simp [numberAt]
  rw [hword, BitVec.xor_assoc, BitVec.xor_self, BitVec.xor_zero, setBits_wordOf hu]

theorem numberAt_setBits_xor (base : BitVec 8) (n : Fin 256) :
    numberAt base (setBits (BitVec.ofNat 8 n.val ^^^ base)) = n := by
  rw [numberAt, wordOf_setBits, BitVec.xor_assoc, BitVec.xor_self, BitVec.xor_zero]
  exact Fin.ext (Nat.mod_eq_of_lt n.isLt)

/-- R176: one matched number for each subset of the mask's set bits. -/
theorem card_tapMatches (base mask : BitVec 8) :
    (Finset.univ.filter fun n => tapMatches base mask n = true).card = 2 ^ bitCount mask := by
  have hplaces : ∀ u ∈ (setBits mask).powerset, u ⊆ Finset.range 8 := fun u hu =>
    (Finset.mem_powerset.1 hu).trans (setBits_subset mask)
  rw [← card_setBits, ← Finset.card_powerset]
  refine Finset.card_nbij' (fun n => setBits (BitVec.ofNat 8 n.val ^^^ base)) (numberAt base) ?_ ?_
    (fun n _ => numberAt_setBits_xor base n) (fun u hu => setBits_numberAt_xor base (hplaces u hu))
  · intro n hn
    simpa [tapMatches_iff_setBits_subset] using hn
  · intro u hu
    rw [Finset.mem_coe, Finset.mem_filter, tapMatches_iff_setBits_subset, setBits_numberAt_xor base (hplaces u hu)]
    exact ⟨Finset.mem_univ _, Finset.mem_powerset.1 hu⟩

theorem Tap.mem_matched (r : Tap) (n : Fin 256) : n ∈ r.matched ↔ tapMatches r.base r.mask n = true := by
  simp [Tap.matched, allOf]

theorem Tap.matched_pairwise (r : Tap) : r.matched.Pairwise (· < ·) :=
  (List.sortedLT_finRange 256).pairwise.filter _

theorem Tap.matched_length (r : Tap) : r.matched.length = 2 ^ bitCount r.mask := by
  rw [← card_tapMatches r.base r.mask, ← List.toFinset_card_of_nodup (r.matched_pairwise.imp ne_of_lt)]
  congr 1
  ext n
  simp [r.mem_matched]

theorem Tap.matched_congr {r q : Tap} (hb : r.base = q.base) (hm : r.mask = q.mask) : r.matched = q.matched := by
  unfold Tap.matched
  rw [hb, hm]

/-! ## What keeps the matched sets -/

/-- A tap that is enabled in s and in t has one matched set in both. -/
def TapsKept (s t : State) : Prop :=
  ∀ x, (s.tap x).enabled = true → (t.tap x).enabled = true → (t.tap x).matched = (s.tap x).matched

/-- What a tap listens to: whether it is enabled, and its matched set. -/
def State.listening (s : State) (x : TapId) : Bool × List (Fin 256) := ((s.tap x).enabled, (s.tap x).matched)

theorem Touches.taps {l : List Fld} {s t : State} (h : Touches l s t) (hl : Fld.taps ∉ l := by decide) :
    t.taps = s.taps := h .taps hl

theorem listening_of_taps {s t : State} (h : t.taps = s.taps) : t.listening = s.listening := by
  funext x
  simp [State.listening, State.tap, h]

/-- Moves that leave what every tap listens to may stand before and after one that keeps the matched sets. -/
theorem TapsKept.congr {s u v t : State} (hu : u.listening = s.listening) (ht : t.listening = v.listening)
    (h : TapsKept u v) : TapsKept s t := by
  intro x hs hx
  obtain ⟨hue, hum⟩ := Prod.mk.inj (congrFun hu x)
  obtain ⟨hte, htm⟩ := Prod.mk.inj (congrFun ht x)
  rw [htm, ← hum]
  exact h x (hue.trans hs) (hte.symm.trans hx)

theorem TapsKept.refl (s : State) : TapsKept s s := fun _ _ _ => rfl

theorem TapsKept.of_listening {s t : State} (h : t.listening = s.listening) : TapsKept s t :=
  (TapsKept.refl s).congr rfl h

theorem TapsKept.of_taps {s t : State} (h : t.taps = s.taps) : TapsKept s t := .of_listening (listening_of_taps h)

theorem TapsKept.of_disabled {s t : State} (h : ∀ x, (t.tap x).enabled = false) : TapsKept s t := fun x _ hx => by
  simp [h x] at hx

theorem taps_foldl {α : Type} {f : State → α → State} (h : ∀ u x, (f u x).taps = u.taps) (xs : List α) (s : State) :
    (xs.foldl f s).taps = s.taps :=
  foldl_keeps (P := fun u => u.taps = s.taps) (fun u x hu => (h u x).trans hu) xs s rfl

/-! ## A write to a tap (R177 to R183) -/

theorem enableTap_taps (t : TapId) (r : Tap) (s : State) : (enableTap t r s).taps = s.taps := by
  unfold enableTap
  split
  · have hheld := taps_foldl (fun u n => (arrive_touches (.tap t) r.level .talk n r.monitor u).taps) r.matched s
    dsimp only
    split
    · exact hheld
    · exact (taps_foldl (fun u n => (isolate_touches true u n).taps) _ _).trans hheld
  · rfl

theorem disableTap_taps (t : TapId) (r : Tap) (s : State) : (disableTap t r s).taps = s.taps := by
  unfold disableTap
  split
  · have hleft := taps_foldl (fun u n => (depart_touches (.tap t) n r.monitor u).taps) r.matched s
    dsimp only
    split
    · exact hleft
    · exact (taps_foldl (fun u n => (isolate_touches false u n).taps) _ _).trans hleft
  · rfl

theorem settleTap_taps (t : TapId) (was : Bool) (r : Tap) (l : List FieldValue) (s : State) :
    (settleTap t was r l s).taps = s.taps := by
  have hlevel : (if (was && names l 5) = true then tapLevel r s else s).taps = s.taps := by
    split
    · exact (tapLevel_touches r s).taps
    · rfl
  unfold settleTap
  dsimp only
  split
  · exact (disableTap_taps t r _).trans hlevel
  · exact hlevel

theorem setTap_tapsKept {s : State} {t : TapId} {r : Tap}
    (h : (s.tap t).enabled = true → r.matched = (s.tap t).matched) : TapsKept s (s.setTap t r) := by
  intro x hs _
  rw [State.tap_setTap]
  split
  next hx => subst hx; exact h hs
  next => rfl

/-- R177: a write changes the matched set of no tap but one that it enables; it names no setting of an enabled tap. -/
theorem writeTap_tapsKept (t : TapId) (l : List FieldValue) (s : State) : TapsKept s (writeTap t l s).1 := by
  rcases writeTap_cases t l s with hw | ⟨r, hwas, -, hw⟩ | ⟨r, hu, hn, -, hw⟩
  · rw [hw]; exact .refl s
  · rw [hw]
    have hset : TapsKept s (s.setTap t r) := setTap_tapsKept fun hen => by simp [hwas] at hen
    exact hset.congr rfl (listening_of_taps (enableTap_taps t r _))
  · rw [hw]
    have hset : TapsKept s (s.setTap t r) := setTap_tapsKept fun hen => by
      obtain ⟨-, hbase, hmask, -⟩ := Tap.updated_of_not_named hu (hn hen)
      exact Tap.matched_congr hbase hmask
    exact hset.congr rfl (listening_of_taps (settleTap_taps t _ r l _))

/-! ## Record writes and units -/

theorem atIndex_tapsKept {n : Nat} {w : Fin n → State → Written} {s : State} (h : ∀ j, TapsKept s (w j s).1) (i : Nat) :
    TapsKept s (atIndex n i w s).1 := by
  unfold atIndex
  split
  · exact h _
  · exact .refl s

theorem writeRecord_tapsKept (t : TableName) (i : Nat) (l : List FieldValue) (s : State) :
    TapsKept s (writeRecord t i l s).1 := by
  have hframe := writeRecord_touches t i l s
  cases t
  case tap => exact atIndex_tapsKept (fun j => writeTap_tapsKept j l s) i
  all_goals exact .of_taps hframe.taps

theorem recordWrite_tapsKept (t : TableName) (i area : Nat) (m : BitVec 32) (v : List Byte) (s : State) :
    TapsKept s (recordWrite t i area m v s).1 := by
  unfold recordWrite
  split
  · exact writeRecord_tapsKept _ _ _ _
  · exact .refl s

theorem writeUnit_tapsKept (tag t : Byte) (i : BitVec 16) (m : BitVec 32) (v : List Byte) (s : State) :
    TapsKept s (writeUnit tag t i m v s) := by
  unfold writeUnit
  dsimp only
  split
  · exact .of_taps (reply_touches _ _ _ _ _ _).taps
  · exact (recordWrite_tapsKept _ _ _ _ _ s).congr rfl (listening_of_taps (reply_touches _ _ _ _ _ _).taps)

theorem fillStep_tapsKept (b : Block) (t : TableName) (m : BitVec 32) (down : Bool) (v : List Byte) (s : State) :
    TapsKept s (fillStep b t m down v s) := by
  have hwrite := recordWrite_tapsKept t b.next 16 m v s
  have hblock : ∀ c, TapsKept s ((recordWrite t b.next 16 m v s).1.withBlock c) := fun _ => hwrite.congr rfl rfl
  have hreply : ∀ r layout c, TapsKept s
      (fillReply b.tag r t.code layout c ((recordWrite t b.next 16 m v s).1.withBlock none)) := fun _ _ _ =>
    (hblock none).congr rfl (listening_of_taps (reply_touches _ _ _ _ _ _).taps)
  unfold fillStep
  dsimp only
  split
  · split
    · exact hreply _ _ _
    · exact hblock _
  · exact hreply _ _ _

theorem orderUnit_tapsKept {tag : Byte} {o : Order} {body : State → State} (hb : ∀ u, TapsKept u (body u)) (s : State) :
    TapsKept s (orderUnit tag o body s) := by
  unfold orderUnit
  split
  · exact (hb (takeHead s)).congr (listening_of_taps (takeHead_touches s).taps)
      (listening_of_taps (flushLamps_touches _).taps)
  · exact .refl s

/-! ## The boundary (R88) -/

/-- An assembly moves a tap's applied factor and nothing else of it. -/
theorem closeTaps_listening (d : DestId) (s : State) : (closeTaps d s).listening = s.listening := by
  funext x
  simp only [State.listening, State.tap, closeTaps, tget_map]
  split <;> rfl

theorem assembleDest_listening (before : State) (d : DestId) (s : State) :
    (assembleDest before d s).listening = s.listening := by
  have hclose : ∀ r, (closeTaps d ((s.setEntries d (s.closeEntries d)).setDest d r)).listening = s.listening := fun r =>
    closeTaps_listening d _
  have hhand : ∀ (l : List Entry) (t : State), (l.foldl (fun t e => handEntry e.source d t) t).listening = t.listening :=
    fun l t => listening_of_taps (taps_foldl (fun u e => (handEntry_touches e.source d u).taps) l t)
  have hraise : ∀ t, (raise .clip (some d.val) t).listening = t.listening := fun t =>
    listening_of_taps (raise_touches _ _ t).taps
  unfold assembleDest
  dsimp only
  generalize (if (s.dest d).enabled = true then clippedCount (s.destZ before d) else 0) = clips
  split
  · exact (hhand _ _).trans (hclose _)
  · exact (hraise _).trans ((hhand _ _).trans (hclose _))

theorem sendFrame_taps (x : PortId) (s : State) : (sendFrame x s).taps = s.taps := by
  have hlane : (fillLane x s.timing.sample s).2.taps = s.taps := (fillLane_touches x _ s).taps
  unfold sendFrame
  dsimp only
  exact hlane

theorem assemblePort_listening (before s : State) (x : PortId) :
    (assemblePort before s x).listening = s.listening := by
  have hdests : (flushLamps ((portDests x).foldl (fun t d => assembleDest before d t) s)).listening = s.listening :=
    (listening_of_taps (flushLamps_touches _).taps).trans
      (foldl_keeps (P := fun u => u.listening = s.listening)
        (fun u d hu => (assembleDest_listening before d u).trans hu) _ s rfl)
  unfold assemblePort
  dsimp only
  generalize flushLamps ((portDests x).foldl (fun t d => assembleDest before d t) s) = u at hdests ⊢
  split
  · exact hdests
  · exact (listening_of_taps (sendFrame_taps x u)).trans hdests

theorem boundary_listening (s : State) : (boundary s).listening = s.listening := by
  have hports : ((allOf 4).foldl (assemblePort (atBoundary true s)) (atBoundary true s)).listening = s.listening :=
    foldl_keeps (P := fun u => u.listening = s.listening)
      (fun u x hu => (assemblePort_listening (atBoundary true s) u x).trans hu) _ _ rfl
  refine Eq.trans (listening_of_taps ?_) hports
  unfold boundary
  dsimp only
  rw [(restartFalls_touches _).taps, (beginPeriod_touches _).taps, (atBoundary_touches _ _).taps,
    (flushLamps_touches _).taps, taps_foldl fun u x => (closePort_touches u x).taps, (applyReference_touches _).taps]

/-! ## Every command -/

theorem blank_tapsKept (s : State) (ph : Phase) (st : Straps) (dr : Nat) (pe : List Instr) :
    TapsKept s (State.blank ph st dr pe) :=
  .of_disabled fun x => congrArg Tap.enabled (tget_replicate Tap.reset x)

theorem start_tapsKept (s : State) (st : Straps) : TapsKept s (start st s) :=
  (blank_tapsKept s _ _ _ _).congr rfl (listening_of_taps (raise_touches _ _ _).taps)

theorem event_tapsKept {can : Bool} {f : State → State} {s t : State} (hf : TapsKept s (f s))
    (he : event can f s = .next t) : TapsKept s t := by
  unfold event at he
  cases he
  split
  · exact hf
  · exact .refl s

theorem order_tapsKept {tag : Byte} {o : Order} {f : State → State} {s t : State} (hf : ∀ u, TapsKept u (f u))
    (he : order tag o f s = .next t) : TapsKept s t := by
  unfold order at he
  cases he
  exact orderUnit_tapsKept hf s

theorem blockStep_tapsKept {f : Block → State → Option State} {s t : State}
    (hf : ∀ b u v, f b u = some v → TapsKept u v) (he : takeBlockStep f s = .next t) : TapsKept s t := by
  unfold takeBlockStep at he
  cases he
  split
  next b _ =>
    split
    · cases hx : f b (takeStep s) with
      | none => exact .refl s
      | some v =>
        exact (hf _ _ _ hx).congr (listening_of_taps (takeStep_touches s).taps)
          (listening_of_taps (flushLamps_touches v).taps)
    · exact .refl s
  next => exact .refl s

theorem writeRow_tapsKept {tn : TableName} {r : Nat → List FieldValue → Bool} {tag : Byte} {i : BitVec 16}
    {m : BitVec 32} {v : List Byte} {s t : State} (he : writeRow tn r tag i m v s = .next t) : TapsKept s t := by
  unfold writeRow at he
  cases he
  split
  · exact orderUnit_tapsKept (writeUnit_tapsKept tag tn.code i m v) s
  · exact .refl s

/-- R177, R183: no command changes the matched set of a tap that is enabled before and after it. -/
theorem exec_tapsKept (c : Instr) {s t : State} (he : exec c s = .next t) : TapsKept s t := by
  cases c
  case powerOn st =>
    change execPowerOn st s = _ at he
    unfold execPowerOn at he
    split at he <;> cases he
    · exact start_tapsKept s st
    · exact blank_tapsKept s _ _ _ _
  case resetNAssert => cases he; exact blank_tapsKept s _ _ _ _
  case resetNRelease st =>
    change execResetNRelease st s = _ at he
    unfold execResetNRelease at he
    split at he <;> cases he
    · exact .refl s
    · exact start_tapsKept s st
  case restartStart st =>
    cases he
    split
    · exact start_tapsKept s st
    · exact .refl s
  case frameArrival =>
    refine event_tapsKept ?_ (show execFrameArrival _ _ s = _ from he)
    exact .of_taps ((flushLamps_touches _).taps.trans (frameAt_touches _ _ _).taps)
  case periodBoundary => exact event_tapsKept (.of_listening (boundary_listening s)) he
  case refclkAbsent =>
    refine event_tapsKept ?_ (show execRefclkAbsent s = _ from he)
    exact .of_taps (referenceGone_touches _ _).taps
  case refclkPresent =>
    refine event_tapsKept ?_ (show execRefclkPresent s = _ from he)
    exact .of_taps (referenceBack_touches _ _).taps
  case latchWindowExpiry =>
    refine event_tapsKept ?_ (show execLatchWindowExpiry _ s = _ from he)
    exact .of_taps ((flushLamps_touches _).taps.trans (enterState_touches _ _ _).taps)
  case winkTimerExpiry =>
    refine event_tapsKept ?_ (show execWinkTimerExpiry _ s = _ from he)
    exact .of_taps (flushLamps_touches _).taps
  case silenceTimerExpiry => exact event_tapsKept (.of_taps (panelOffline_touches _ _).taps) he
  case replyExpiry =>
    refine event_tapsKept ?_ (show execReplyExpiry _ _ s = _ from he)
    exact .of_taps ((flushLamps_touches _).taps.trans (removeCaller_touches _ _ _).taps)
  case intervalTimerExpiry =>
    refine event_tapsKept ?_ (show execIntervalTimerExpiry _ s = _ from he)
    exact .of_taps ((requestProbe_touches _ _).taps.trans (startInterval_touches _ _).taps)
  case probeTimeout => exact event_tapsKept (.of_taps (timeoutProbe_touches _ _ _).taps) he
  case sampleInstant => exact event_tapsKept (.of_taps (sampleTick_touches _).taps) he
  case recordRead => exact order_tapsKept (fun u => .of_taps (readUnit_touches _ _ _ _ u).taps) he
  case recordWrite => exact order_tapsKept (writeUnit_tapsKept _ _ _ _ _) he
  case blockRead => exact order_tapsKept (fun u => .of_taps (blockReadUnit_touches _ _ _ _ _ _ u).taps) he
  case fill => exact order_tapsKept (fun u => .of_taps (fillUnit_touches _ _ _ _ _ _ _ u).taps) he
  case meterRead => exact order_tapsKept (fun u => .of_taps (meterUnit_touches _ _ _ u).taps) he
  case routeList => exact order_tapsKept (fun u => .of_taps (routeListUnit_touches _ _ u).taps) he
  case routeAdd => exact order_tapsKept (fun u => .of_taps (routeAddUnit_touches _ _ _ u).taps) he
  case routeRemove => exact order_tapsKept (fun u => .of_taps (routeRemoveUnit_touches _ _ _ u).taps) he
  case routeNudge => exact order_tapsKept (fun u => .of_taps (routeNudgeUnit_touches _ _ _ _ _ u).taps) he
  case swap => exact order_tapsKept (fun u => .of_taps (swapUnit_touches _ _ _ u).taps) he
  case partyJoin => exact order_tapsKept (fun u => .of_taps (partyJoinUnit_touches _ _ _ _ u).taps) he
  case partyLeave => exact order_tapsKept (fun u => .of_taps (partyLeaveUnit_touches _ _ _ u).taps) he
  case partyFlags => exact order_tapsKept (fun u => .of_taps (partyFlagsUnit_touches _ _ _ _ _ u).taps) he
  case clearDynamic => exact order_tapsKept (fun u => .of_taps (clearDynamicUnit_touches _ u).taps) he
  case statusRead => exact order_tapsKept (fun u => .of_taps (statusReadUnit_touches _ _ u).taps) he
  case statusClear => exact order_tapsKept (fun u => .of_taps (statusClearUnit_touches _ _ u).taps) he
  case restart => exact order_tapsKept (fun u => .of_taps (restartUnit_touches u).taps) he
  case unlistedOrderCode => exact order_tapsKept (fun u => .of_taps (reply_touches _ _ _ _ _ u).taps) he
  case blockReadStep =>
    refine blockStep_tapsKept (fun b u v hv => ?_) (show execBlockReadStep s = _ from he)
    split at hv <;> cases hv
    exact .of_taps (blockReadStep_touches _ _ _ _ _).taps
  case fillStep =>
    refine blockStep_tapsKept (fun b u v hv => ?_) (show execFillStep s = _ from he)
    split at hv <;> cases hv
    exact fillStep_tapsKept _ _ _ _ _ _
  case meterReadStep =>
    refine blockStep_tapsKept (fun b u v hv => ?_) (show execMeterReadStep s = _ from he)
    split at hv <;> cases hv
    exact .of_taps (meterStep_touches _ _).taps
  case routeListStep =>
    refine blockStep_tapsKept (fun b u v hv => ?_) (show execRouteListStep s = _ from he)
    split at hv <;> cases hv
    exact .of_taps (routeListStep_touches _ _ _ _).taps
  all_goals exact writeRow_tapsKept he

/-- Settles O59: R176's numbers, counted as the subsets of the mask's set bits, and kept by every command. -/
theorem Tap.tapMatches : Obligations.TapMatches :=
  ⟨fun r => ⟨fun n => (r.mem_matched n).trans (tapMatches_iff r.base r.mask n), r.matched_pairwise, r.matched_length⟩,
    fun _ _ hb hm => Tap.matched_congr hb hm, fun c _ _ x he => exec_tapsKept c he x⟩

end Sys2Proof.Machine
end

section
/-! PROOF. The alarm line (R197): active while the part runs and some record is set, enabled and routed to it, whatever
wrote the record; and byte 6 of every STATUS_READ reply. -/

namespace Sys2Proof.Machine

/-! ## The line and the records -/

theorem mem_allKinds (k : EventKind) : k ∈ allKinds := by cases k <;> decide

theorem EventRoute.alarms_iff (r : EventRoute) : r.alarms = true ↔ r ≠ .notice := by cases r <;> decide

theorem Event.alarming_iff (r : Event) :
    r.alarming = true ↔ r.isSet = true ∧ r.enable = true ∧ r.route ≠ .notice := by
  simp only [Event.alarming, Bool.and_eq_true, EventRoute.alarms_iff, and_assoc]

theorem State.alarmActive_iff (s : State) :
    s.alarmActive = true ↔ s.phase = .running ∧ ∃ k, (s.event k).alarming = true := by
  simp only [State.alarmActive, Bool.and_eq_true, beq_iff_eq, List.any_eq_true, mem_allKinds, true_and]

/-! ## Raises and starts -/

theorem raise_phase (k : EventKind) (inst : Option Nat) (s : State) : (raise k inst s).phase = s.phase :=
  raise_touches k inst s .phase (by decide)

/-- R195, R197: a raise sets its record and keeps the record's enable and route, so one that reaches the line holds it. -/
theorem raise_alarmActive {k : EventKind} {s : State} (inst : Option Nat) (hrun : s.phase = .running)
    (henable : (s.event k).enable = true) (hroute : (s.event k).route ≠ .notice) :
    (raise k inst s).alarmActive = true := by
  have halarm : ((raise k inst s).event k).alarming = true := by
    rw [raise_event, Event.alarming_iff]
    exact ⟨rfl, henable, hroute⟩
  exact (State.alarmActive_iff _).2 ⟨(raise_phase k inst s).trans hrun, k, halarm⟩

theorem eventReset_isSet (k : EventKind) : (tget eventReset k.number).isSet = false := by cases k <;> rfl

/-- R199: after a start the one record set is STARTED, routed NOTICE. -/
theorem Started.not_alarming {straps : Straps} {s : State} (h : Started straps s) (k : EventKind) :
    (s.event k).alarming ≠ true := by
  obtain ⟨_, _, _, _, _, _, _, _, _, _, _, _, _, _, _, _, _, _, _, _, _, hstarted, hothers⟩ := h
  rw [ne_eq, Event.alarming_iff]
  by_cases hk : k = .started
  · rw [hk, hstarted]
    exact fun ⟨_, _, hroute⟩ => hroute rfl
  · rw [hothers k hk, eventReset_isSet]
    exact fun ⟨hset, _⟩ => Bool.false_ne_true hset

/-! ## The replies of STATUS_READ -/

/-- Byte 3 + i of a reply is byte i of what follows the code, the result and the mark. -/
theorem reply_stated_byte (tag code : Byte) (r : Result) (mark : Byte) {rest : List (Option Byte)} (s : State) {i : Nat}
    {x : Byte} (hlen : rest.length ≤ 25) (hx : rest[i]? = some (some x)) :
    ∃ body, (reply tag code r mark rest s).replies = s.replies ++ [{ tag := tag, body := body }] ∧
      byteAt body (i + 3) = x := by
  obtain ⟨body, ⟨_, hbytes⟩, hreplies⟩ := reply_replied tag code r mark rest s hlen
  have hbody : body[i + 3]? = some x := hbytes (i + 3) x hx
  exact ⟨body, hreplies, by simp [byteAt, List.getD_eq_getElem?_getD, hbody]⟩

/-- R197, R198: accepted or refused, the reply carries the alarm line in byte 6. -/
theorem statusReadUnit_alarm (tag : Byte) (kinds : BitVec 16) (s : State) :
    ∃ body, (statusReadUnit tag kinds s).replies = s.replies ++ [{ tag := tag, body := body }] ∧
      byteAt body 6 = BitVec.ofNat 8 (ofBool s.alarmActive) := by
  unfold statusReadUnit
  dsimp only
  split
  · exact reply_stated_byte tag _ _ _ s (i := 3) (by simp [stated, unstated]) rfl
  · exact reply_stated_byte tag _ _ _ s (i := 3) (by simp [stated, unstated, bytesOfNat, allKinds]) rfl

theorem flushLamps_replies (s : State) : (flushLamps s).replies = s.replies :=
  flushLamps_touches s .replies (by decide)

theorem statusRead_alarm {tag : Byte} {kinds : BitVec 16} {s : State} (h : s.Ready tag (.statusRead kinds)) :
    ∃ t body, exec (.statusRead tag kinds) s = .next t ∧ t.replies = s.replies ++ [{ tag := tag, body := body }] ∧
      byteAt body 6 = if s.alarmActive then 1 else 0 := by
  obtain ⟨hready, _⟩ := h
  obtain ⟨body, hreplies, hbyte⟩ := statusReadUnit_alarm tag kinds (takeHead s)
  have halarm : (takeHead s).alarmActive = s.alarmActive := rfl
  refine ⟨_, body, order_taken hready, (flushLamps_replies _).trans hreplies, ?_⟩
  rw [hbyte, halarm]
  cases s.alarmActive <;> rfl

/-- Settles O57: R197's line is what the records hold, so a raise is read off the record it sets and a start off the
records it leaves; the replies of STATUS_READ carry the line in both of their layouts. -/
theorem alarmFollowsRecords : Obligations.AlarmFollowsRecords := by
  intro s
  refine ⟨?_, fun _ inst hrun => raise_alarmActive inst hrun, fun _ hstart => ?_, fun _ _ => statusRead_alarm⟩
  · simp only [State.alarmActive_iff, Event.alarming_iff]
  · rw [← Bool.not_eq_true, State.alarmActive_iff]
    exact fun ⟨_, k, hk⟩ => hstart.not_alarming k hk

end Sys2Proof.Machine
end

section
/-! PROOF. Every command answers a next state, and of State's fields it changes only those its list names: the frames of the
units under Laws/, put under the three forms a command has (an event, an order's unit, a block step). -/

namespace Sys2Proof.Machine

/-! ## Fields kept -/

theorem Touches.entries {l : List Fld} {s t : State} (h : Touches l s t) (hl : Fld.entries ∉ l := by decide) :
    t.entries = s.entries := h .entries hl
theorem Touches.keys {l : List Fld} {s t : State} (h : Touches l s t) (hl : Fld.keys ∉ l := by decide) :
    t.keys = s.keys := h .keys hl
theorem Touches.panels {l : List Fld} {s t : State} (h : Touches l s t) (hl : Fld.panels ∉ l := by decide) :
    t.panels = s.panels := h .panels hl
theorem Touches.stations {l : List Fld} {s t : State} (h : Touches l s t) (hl : Fld.stations ∉ l := by decide) :
    t.stations = s.stations := h .stations hl
theorem Touches.parties {l : List Fld} {s t : State} (h : Touches l s t) (hl : Fld.parties ∉ l := by decide) :
    t.parties = s.parties := h .parties hl
theorem Touches.arbiters {l : List Fld} {s t : State} (h : Touches l s t) (hl : Fld.arbiters ∉ l := by decide) :
    t.arbiters = s.arbiters := h .arbiters hl
theorem Touches.sources {l : List Fld} {s t : State} (h : Touches l s t) (hl : Fld.sources ∉ l := by decide) :
    t.sources = s.sources := h .sources hl
theorem Touches.dests {l : List Fld} {s t : State} (h : Touches l s t) (hl : Fld.dests ∉ l := by decide) :
    t.dests = s.dests := h .dests hl
theorem Touches.ports {l : List Fld} {s t : State} (h : Touches l s t) (hl : Fld.ports ∉ l := by decide) :
    t.ports = s.ports := h .ports hl
theorem Touches.circuits {l : List Fld} {s t : State} (h : Touches l s t) (hl : Fld.circuits ∉ l := by decide) :
    t.circuits = s.circuits := h .circuits hl
theorem Touches.cadences {l : List Fld} {s t : State} (h : Touches l s t) (hl : Fld.cadences ∉ l := by decide) :
    t.cadences = s.cadences := h .cadences hl
theorem Touches.events {l : List Fld} {s t : State} (h : Touches l s t) (hl : Fld.events ∉ l := by decide) :
    t.events = s.events := h .events hl
theorem Touches.probeQueues {l : List Fld} {s t : State} (h : Touches l s t) (hl : Fld.probeQueues ∉ l := by decide) :
    t.probeQueues = s.probeQueues := h .probeQueues hl
theorem Touches.lampPositions {l : List Fld} {s t : State} (h : Touches l s t)
    (hl : Fld.lampPositions ∉ l := by decide) : t.lampPositions = s.lampPositions := h .lampPositions hl
theorem Touches.nextSerial {l : List Fld} {s t : State} (h : Touches l s t) (hl : Fld.nextSerial ∉ l := by decide) :
    t.nextSerial = s.nextSerial := h .nextSerial hl
theorem Touches.straps {l : List Fld} {s t : State} (h : Touches l s t) (hl : Fld.straps ∉ l := by decide) :
    t.straps = s.straps := h .straps hl
theorem Touches.orders {l : List Fld} {s t : State} (h : Touches l s t) (hl : Fld.orders ∉ l := by decide) :
    t.orders = s.orders := h .orders hl
theorem Touches.replies {l : List Fld} {s t : State} (h : Touches l s t) (hl : Fld.replies ∉ l := by decide) :
    t.replies = s.replies := h .replies hl
theorem Touches.notices {l : List Fld} {s t : State} (h : Touches l s t) (hl : Fld.notices ∉ l := by decide) :
    t.notices = s.notices := h .notices hl
theorem Touches.block {l : List Fld} {s t : State} (h : Touches l s t) (hl : Fld.block ∉ l := by decide) :
    t.block = s.block := h .block hl
theorem Touches.lampDirty {l : List Fld} {s t : State} (h : Touches l s t) (hl : Fld.lampDirty ∉ l := by decide) :
    t.lampDirty = s.lampDirty := h .lampDirty hl
theorem Touches.lastUnit {l : List Fld} {s t : State} (h : Touches l s t) (hl : Fld.lastUnit ∉ l := by decide) :
    t.lastUnit = s.lastUnit := h .lastUnit hl
theorem Touches.unitTaken {l : List Fld} {s t : State} (h : Touches l s t) (hl : Fld.unitTaken ∉ l := by decide) :
    t.unitTaken = s.unitTaken := h .unitTaken hl
theorem Touches.sent {l : List Fld} {s t : State} (h : Touches l s t) (hl : Fld.sent ∉ l := by decide) :
    t.sent = s.sent := h .sent hl
theorem Touches.mark {l : List Fld} {s t : State} (h : Touches l s t) (hl : Fld.mark ∉ l := by decide) :
    t.timing.atBoundary = s.timing.atBoundary := h .mark hl

/-- The clock, the reference and the mark together are reference timing. -/
theorem Touches.timing {l : List Fld} {s t : State} (h : Touches l s t)
    (hl : Fld.clock ∉ l ∧ Fld.reference ∉ l ∧ Fld.mark ∉ l := by decide) : t.timing = s.timing := by
  have hc := h .clock hl.1
  have hr := h .reference hl.2.1
  have hm := h .mark hl.2.2
  simp only [Fld.same] at hc hr hm
  cases hs : s.timing
  cases ht : t.timing
  simp_all

/-- The running sample count is part of the clock. -/
theorem Touches.sample {l : List Fld} {s t : State} (h : Touches l s t) (hl : Fld.clock ∉ l := by decide) :
    t.timing.sample = s.timing.sample := (h .clock hl).2.1

/-- A longer list says less: the lists compared as sets. -/
theorem Touches.mono {l m : List Fld} {s t : State} (h : Touches l s t) (hs : ∀ f ∈ l, f ∈ m) : Touches m s t :=
  fun f hf => h f fun hl => hf (hs f hl)

/-- Outside a boundary a raise draws no free value. -/
theorem raise_touches_settled (k : EventKind) (i : Option Nat) {s : State} (h : s.timing.atBoundary = false) :
    Touches [.events, .notices] s (raise k i s) := by
  have ho := fun n => (setEvent_touches s k ((s.event k).raised i)).up (m := [.events, .notices]) |>.trans
    (offerNotice_touches _ n).up
  unfold raise
  dsimp only
  split
  · simpa [h] using ho _
  · exact (setEvent_touches _ _ _).up

/-! ## The forms of a command -/

theorem event_frames {can : Bool} {f : State → State} {s : State} {l : List Fld} (h : Touches l s (f s)) :
    ∃ t, event can f s = .next t ∧ Touches l s t := by
  refine ⟨_, rfl, ?_⟩
  split
  · exact h
  · exact Touches.refl l s

theorem order_frames {tag : Byte} {o : Order} {f : State → State} {l m : List Fld} (h : ∀ u, Touches l u (f u))
    (s : State) (hm : ((unitFields ++ l).all fun x => m.contains x) = true := by rfl) :
    ∃ t, order tag o f s = .next t ∧ Touches m s t :=
  ⟨_, rfl, (orderUnit_touches tag o f l s h).up hm⟩

/-- What taking a block step may touch, beside what the step's own work does. -/
abbrev stepFields : List Fld := [.lastUnit, .unitTaken, .panels, .lampDirty]

theorem blockStep_frames {f : Block → State → Option State} {l m : List Fld}
    (h : ∀ b u v, f b u = some v → Touches l u v) (s : State)
    (hm : ((stepFields ++ l).all fun x => m.contains x) = true := by rfl) :
    ∃ t, takeBlockStep f s = .next t ∧ Touches m s t := by
  refine ⟨_, rfl, ?_⟩
  split
  · split
    next b _ _ =>
      cases hv : f b (takeStep s) with
      | none => exact Touches.refl m s
      | some v =>
        have hl : Touches (stepFields ++ l) s (flushLamps v) :=
          ((takeStep_touches s).mono (by simp)).trans
            (((h _ _ _ hv).mono (by simp +contextual)).trans ((flushLamps_touches v).mono (by simp)))
        exact hl.up hm
    next => exact Touches.refl m s
  · exact Touches.refl m s

theorem TableName.tableOf_eq {c : Byte} {t : TableName} (h : tableOf c = some t) : c = t.code := by
  have hlt : c.toNat < 11 := (List.getElem?_eq_some_iff.1 h).1
  have hc : c = BitVec.ofNat 8 c.toNat := by simp
  unfold tableOf at h
  generalize c.toNat = n at h hlt hc
  subst hc
  interval_cases n <;> cases h <;> rfl

/-- A RECORD_WRITE touches its table's fields and what its reply takes. -/
theorem writeUnit_touches_table (tag : Byte) (t : TableName) (i : BitVec 16) (m : BitVec 32) (v : List Byte) (s : State) :
    Touches ([.replies, .draws] ++ t.fields) s (writeUnit tag t.code i m v s) := by
  have hreply : ∀ r l u, Touches ([.replies, .draws] ++ t.fields) u
      (recordReply tag (.recordWrite t.code i m v) r t.code i l u) := fun r l u =>
    (reply_touches _ _ _ _ _ u).mono (by simp)
  unfold writeUnit recordCheck
  rw [tableOf_code]
  dsimp only
  split
  next => exact hreply _ _ _
  next u hu =>
    obtain rfl : t = u := by split at hu <;> simp_all
    exact ((recordWrite_touches t _ _ _ _ _).mono (by simp +contextual)).trans (hreply _ _ _)

theorem writeUnit_touches_none {tag c : Byte} (h : tableOf c = none) (i : BitVec 16) (m : BitVec 32) (v : List Byte)
    (s : State) : Touches [.replies, .draws] s (writeUnit tag c i m v s) := by
  unfold writeUnit recordCheck
  rw [h]
  exact reply_touches _ _ _ _ _ _

/-- A write row touches what the order unit touches, its table's fields and what its reply takes. -/
theorem writeRow_frames (t : TableName) (r : Nat → List FieldValue → Bool) (tag : Byte) (i : BitVec 16) (m : BitVec 32)
    (v : List Byte) (s : State) :
    ∃ u, writeRow t r tag i m v s = .next u ∧ Touches (unitFields ++ [.replies, .draws] ++ t.fields) s u := by
  refine ⟨_, rfl, ?_⟩
  split
  · rw [List.append_assoc]
    exact orderUnit_touches tag _ _ _ s (writeUnit_touches_table tag t i m v)
  · exact Touches.refl _ s

/-! ## Starts -/

/-- The fields a start may change: all but the counter of free values and the waiting commands. -/
abbrev startFields : List Fld :=
  [.phase, .straps, .restart, .clock, .reference, .mark, .ports, .orders, .replies, .notices, .probeQueues,
    .lampPositions, .block, .lastUnit, .unitTaken, .sources, .dests, .stations, .entries, .nextSerial, .arbiters,
    .panels, .keys, .parties, .circuits, .taps, .cadences, .events, .sent, .lampDirty]

theorem blank_touches (s : State) (ph : Phase) (st : Straps) :
    Touches startFields s (State.blank ph st s.draws s.pending) := by
  intro f hf; cases f <;> simp_all [Fld.same, State.blank]

theorem start_touches (st : Straps) (s : State) : Touches startFields s (start st s) :=
  (blank_touches s .running st).trans (raise_touches_settled .started none rfl).up

theorem stop_touches (s : State) : Touches startFields s (stop s) := blank_touches s .inReset s.straps

/-! ## Events -/

theorem setRefclk_touches (b : Bool) (s : State) : Touches [.reference] s (setRefclk b s) :=
  reference_touches s _ rfl rfl rfl rfl rfl

theorem stopWink_touches (k : KeyId) (s : State) : Touches [.keys, .lampDirty] s (stopWink k s) :=
  (setKey_touches s k _).up.trans (handKey_touches k _).up

/-- Settles O4: each command is an event, an order's unit, a block step or a start, and its work's frame is its own. -/
theorem commandFrames : Obligations.CommandFrames := by
  intro c s
  cases c
  case powerOn st =>
    change ∃ t, execPowerOn st s = .next t ∧ _
    unfold execPowerOn
    split
    · exact ⟨_, rfl, start_touches st s⟩
    · exact ⟨_, rfl, stop_touches s⟩
  case resetNAssert => exact ⟨_, rfl, stop_touches s⟩
  case resetNRelease st =>
    change ∃ t, execResetNRelease st s = .next t ∧ _
    unfold execResetNRelease
    split
    · exact ⟨_, rfl, Touches.refl _ s⟩
    · exact ⟨_, rfl, start_touches st s⟩
  case restartStart st =>
    refine ⟨_, rfl, ?_⟩
    split
    · exact start_touches st s
    · exact Touches.refl _ s
  case frameArrival x b =>
    change ∃ t, execFrameArrival x b s = .next t ∧ Touches frameFields s t
    exact event_frames ((frameAt_touches x b s).trans (flushLamps_touches _).up)
  case periodBoundary => exact event_frames (boundary_touches s)
  case sampleInstant => exact event_frames (sampleTick_touches s)
  case refclkAbsent =>
    change ∃ t, execRefclkAbsent s = .next t ∧ Touches [.reference, .events, .notices, .draws] s t
    exact event_frames ((setRefclk_touches false s).up.trans (referenceGone_touches .refclk _))
  case refclkPresent =>
    change ∃ t, execRefclkPresent s = .next t ∧ Touches [.reference, .events, .notices, .draws] s t
    exact event_frames ((setRefclk_touches true s).trans (referenceBack_touches .refclk _)).up
  case latchWindowExpiry k =>
    change ∃ t, execLatchWindowExpiry k s = .next t ∧ Touches [.keys, .panels, .lampDirty] s t
    exact event_frames ((enterState_touches k _ s).up.trans (flushLamps_touches _).up)
  case winkTimerExpiry k =>
    change ∃ t, execWinkTimerExpiry k s = .next t ∧ Touches [.keys, .panels, .lampDirty] s t
    exact event_frames ((stopWink_touches k s).up.trans (flushLamps_touches _).up)
  case silenceTimerExpiry p => exact event_frames (panelOffline_touches p s)
  case replyExpiry p x =>
    change ∃ t, execReplyExpiry p x s = .next t ∧ Touches [.panels, .lampDirty] s t
    exact event_frames ((removeCaller_touches p x s).up.trans (flushLamps_touches _).up)
  case intervalTimerExpiry c =>
    change ∃ t, execIntervalTimerExpiry c s = .next t ∧ Touches [.circuits, .probeQueues] s t
    exact event_frames ((startInterval_touches c s).up.trans (requestProbe_touches c _).up)
  case probeTimeout c x => exact event_frames (timeoutProbe_touches c x s)
  case recordRead => exact order_frames (readUnit_touches _ _ _ _) s
  case recordWrite tag c i m v =>
    cases hc : tableOf c with
    | none =>
      simp only [commandFields, hc]
      exact order_frames (writeUnit_touches_none hc i m v) s
    | some t =>
      simp only [commandFields, hc]
      obtain rfl := TableName.tableOf_eq hc
      exact ⟨_, rfl, by
        rw [List.append_assoc]; exact orderUnit_touches tag _ _ _ s (writeUnit_touches_table tag t i m v)⟩
  case blockRead => exact order_frames (blockReadUnit_touches _ _ _ _ _ _) s
  case fill => exact order_frames (fillUnit_touches _ _ _ _ _ _ _) s
  case meterRead => exact order_frames (meterUnit_touches _ _ _) s
  case routeList => exact order_frames (routeListUnit_touches _ _) s
  case routeAdd => exact order_frames (routeAddUnit_touches _ _ _) s
  case routeRemove => exact order_frames (routeRemoveUnit_touches _ _ _) s
  case routeNudge => exact order_frames (routeNudgeUnit_touches _ _ _ _ _) s
  case swap => exact order_frames (swapUnit_touches _ _ _) s
  case partyJoin => exact order_frames (partyJoinUnit_touches _ _ _ _) s
  case partyLeave => exact order_frames (partyLeaveUnit_touches _ _ _) s
  case partyFlags => exact order_frames (partyFlagsUnit_touches _ _ _ _ _) s
  case statusRead => exact order_frames (statusReadUnit_touches _ _) s
  case statusClear => exact order_frames (statusClearUnit_touches _ _) s
  case clearDynamic => exact order_frames (clearDynamicUnit_touches _) s
  case restart => exact order_frames restartUnit_touches s
  case unlistedOrderCode => exact order_frames (reply_touches _ _ _ _ _) s
  case blockReadStep =>
    change ∃ t, execBlockReadStep s = .next t ∧ _
    refine blockStep_frames (l := blockFields) (m := commandFields .blockReadStep) (fun b u v hv => ?_) s
    split at hv <;> cases hv
    exact blockReadStep_touches _ _ _ _ _
  case fillStep =>
    change ∃ t, execFillStep s = .next t ∧ _
    refine blockStep_frames (l := writeFields) (m := commandFields .fillStep) (fun b u v hv => ?_) s
    split at hv <;> cases hv
    exact fillStep_touches _ _ _ _ _ _
  case meterReadStep =>
    change ∃ t, execMeterReadStep s = .next t ∧ _
    refine blockStep_frames (l := .sources :: blockFields) (m := commandFields .meterReadStep) (fun b u v hv => ?_) s
    split at hv <;> cases hv
    exact meterStep_touches _ _
  case routeListStep =>
    change ∃ t, execRouteListStep s = .next t ∧ _
    refine blockStep_frames (l := blockFields) (m := commandFields .routeListStep) (fun b u v hv => ?_) s
    split at hv <;> cases hv
    exact routeListStep_touches _ _ _ _
  all_goals exact writeRow_frames _ _ _ _ _ _ s

end Sys2Proof.Machine
end

section
/-! PROOF. The block as a machine, the starts, and the clock: what a step is, what a start leaves, and the sample counter. -/

namespace Sys2Proof.Machine

/-! ## Steps -/

/-- Settles O1: a step is `exec` of the front command, by definition. -/
theorem stepRunsFrontCommand : Obligations.StepRunsFrontCommand := fun _ _ _ => ⟨rfl, rfl⟩

/-- A step idles, or runs the command at the front on the state with the queue's rest. -/
theorem step_cases {s t : State} (h : step s = .next t) :
    t = s ∨ ∃ c rest, s.pending = c :: rest ∧ exec c { s with pending := rest } = .next t := by
  unfold step at h
  split at h
  next => cases h; exact .inl rfl
  next c rest hp => exact .inr ⟨c, rest, hp, h⟩

/-- A property that every command keeps, and that says nothing of the waiting commands, is one that every step keeps. -/
theorem step_keeps_of_exec {P : State → Prop} (hpend : ∀ s rest, P s → P { s with pending := rest })
    (hexec : ∀ c s t, P s → exec c s = .next t → P t) {s t : State} (hs : P s) (h : step s = .next t) : P t := by
  rcases step_cases h with rfl | ⟨c, rest, -, hc⟩
  · exact hs
  · exact hexec c _ t (hpend s rest hs) hc

/-- What a command answers, it answers within its frame. -/
theorem exec_touches {c : Instr} {s t : State} (h : exec c s = .next t) : Touches (commandFields c) s t := by
  obtain ⟨u, hu, hf⟩ := commandFrames c s
  rw [hu] at h
  cases h
  exact hf

/-! ## Starts (R199) -/

theorem port_blank (ph : Phase) (st : Straps) (n : Nat) (l : List Instr) (x : PortId) :
    (State.blank ph st n l).port x = Port.reset (st.portOff.getLsbD x.val) := by
  fin_cases x <;> rfl

theorem circuit_blank (ph : Phase) (st : Straps) (n : Nat) (l : List Instr) (c : CircuitId) :
    (State.blank ph st n l).circuit c = Circuit.reset c.val := by
  simp [State.circuit, State.blank, tget]

/-- A start raises STARTED on the reset tables. -/
theorem start_started (st : Straps) (s : State) : Started st (start st s) := by
  obtain ⟨hev, hother, hnot⟩ := raise_raised .started none (State.blank .running st s.draws s.pending) rfl
  have hf := raise_touches_settled .started none (s := State.blank .running st s.draws s.pending) rfl
  refine ⟨hf .phase (by decide), hf .straps (by decide), hf .restart (by decide), hf.timing, fun x => ?_,
    hf.orders, hf.replies, hnot, hf.block, fun x => ?_, fun n => ?_, fun d => ?_, fun x => ?_, fun d => ?_, fun d => ?_,
    fun p => ?_, fun k => ?_, fun p => ?_, fun c => ?_, fun x => ?_, hf.cadences, hev, fun k hk => ?_⟩
  · exact (congrArg (tget · x) hf.ports).trans (port_blank _ _ _ _ x)
  · exact (congrArg (tget · x) hf.probeQueues).trans (tget_replicate _ x)
  · exact (congrArg (tget · n) hf.sources).trans (tget_replicate _ n)
  · exact (congrArg (tget · d) hf.dests).trans (tget_replicate _ d)
  · exact (congrArg (tget · x) hf.stations).trans (tget_replicate _ x)
  · exact (congrArg (tget · d) hf.entries).trans (tget_replicate _ d)
  · exact (congrArg (tget · d) hf.arbiters).trans (tget_replicate _ d)
  · exact (congrArg (tget · p) hf.panels).trans (tget_replicate _ p)
  · exact (congrArg (tget · k) hf.keys).trans (tget_replicate _ k)
  · exact (congrArg (tget · p) hf.parties).trans (tget_replicate _ p)
  · exact (congrArg (tget · c) hf.circuits).trans (circuit_blank _ _ _ _ c)
  · exact (congrArg (tget · x) hf.taps).trans (tget_replicate _ x)
  · exact hother k hk

theorem start_pending (st : Straps) (s : State) : (start st s).pending = s.pending :=
  start_touches st s .pending (by decide)

/-! ## The part held in reset -/

theorem not_awake_of_inReset {s : State} (h : s.phase = .inReset) : s.awake = false := by simp [State.awake, h]

theorem not_orderReady_of_inReset {s : State} (h : s.phase = .inReset) (tag : Byte) (o : Order) :
    s.orderReady tag o = false := by simp [State.orderReady, State.unitFree, h]

theorem not_stepReady_of_inReset {s : State} (h : s.phase = .inReset) : s.stepReady = false := by
  simp [State.stepReady, State.unitFree, h]

theorem writeRow_waits {t : TableName} {r : Nat → List FieldValue → Bool} {tag : Byte} {i : BitVec 16} {m : BitVec 32}
    {v : List Byte} {s : State} (h : s.orderReady tag (.recordWrite t.code i m v) = false) :
    writeRow t r tag i m v s = .next s := by
  unfold writeRow orderUnit
  rw [h]
  simp

/-- The commands that are an order's unit wait where their order is not ready. -/
theorem exec_of_not_orderReady {c : Instr} {tag : Byte} {o : Order} {s : State} (hc : commandOrder c = some (tag, o))
    (h : s.orderReady tag o = false) : exec c s = .next s := by
  cases c <;> cases hc
  case recordRead | recordWrite | blockRead | fill | meterRead | routeList | routeAdd | routeRemove | routeNudge | swap
    | partyJoin | partyLeave | partyFlags | statusRead | statusClear | clearDynamic | restart | unlistedOrderCode =>
    exact order_waits h
  all_goals exact writeRow_waits h

theorem blockReadStep_waits {s : State} (h : s.stepReady = false) : exec .blockReadStep s = .next s :=
  (blockStep_waits h : execBlockReadStep s = .next s)
theorem fillStep_waits {s : State} (h : s.stepReady = false) : exec .fillStep s = .next s :=
  (blockStep_waits h : execFillStep s = .next s)
theorem meterReadStep_waits {s : State} (h : s.stepReady = false) : exec .meterReadStep s = .next s :=
  (blockStep_waits h : execMeterReadStep s = .next s)
theorem routeListStep_waits {s : State} (h : s.stepReady = false) : exec .routeListStep s = .next s :=
  (blockStep_waits h : execRouteListStep s = .next s)

/-- Settles O21: an order's unit is taken only where `orderReady` holds, a block step only where `stepReady` does. -/
theorem orderWaits : Obligations.OrderWaits := fun _ =>
  ⟨fun _ _ _ hc h => exec_of_not_orderReady hc h, fun h =>
    ⟨blockReadStep_waits h, fillStep_waits h, meterReadStep_waits h, routeListStep_waits h⟩⟩

/-- While RESET_N is low, only a power-on, a release and an assert are more than nothing. -/
theorem exec_of_inReset {c : Instr} {s : State} (h : s.phase = .inReset) (h1 : ∀ x, c ≠ .powerOn x)
    (h2 : ∀ x, c ≠ .resetNRelease x) (h3 : c ≠ .resetNAssert) : exec c s = .next s := by
  cases hc : commandOrder c with
  | some p => exact exec_of_not_orderReady (o := p.2) (tag := p.1) hc (not_orderReady_of_inReset h _ _)
  | none =>
    have hidle : ∀ can f, event can f s = .next s := fun can f => event_idle (.inl (not_awake_of_inReset h))
    have hwait := not_stepReady_of_inReset h
    cases c
    case powerOn x => exact absurd rfl (h1 x)
    case resetNRelease x => exact absurd rfl (h2 x)
    case resetNAssert => exact absurd rfl h3
    case restartStart x => change execRestartStart x s = _; simp [execRestartStart, h]
    case blockReadStep => exact blockReadStep_waits hwait
    case fillStep => exact fillStep_waits hwait
    case meterReadStep => exact meterReadStep_waits hwait
    case routeListStep => exact routeListStep_waits hwait
    case frameArrival x b => exact (hidle _ _ : execFrameArrival x b s = .next s)
    case periodBoundary => exact hidle _ _
    case sampleInstant => exact hidle _ _
    case refclkAbsent => exact (hidle _ _ : execRefclkAbsent s = .next s)
    case refclkPresent => exact (hidle _ _ : execRefclkPresent s = .next s)
    case latchWindowExpiry k => exact (hidle _ _ : execLatchWindowExpiry k s = .next s)
    case winkTimerExpiry k => exact (hidle _ _ : execWinkTimerExpiry k s = .next s)
    case silenceTimerExpiry p => exact hidle _ _
    case replyExpiry p x => exact (hidle _ _ : execReplyExpiry p x s = .next s)
    case intervalTimerExpiry c => exact (hidle _ _ : execIntervalTimerExpiry c s = .next s)
    case probeTimeout c x => exact hidle _ _
    all_goals cases hc

/-- Settles O3: a start is STARTED raised on blank tables, a stop is the blank tables held in reset. -/
theorem startsAndResets : Obligations.StartsAndResets := by
  refine ⟨fun st s => ⟨fun h => ?_, fun h => ?_, fun h hd => ?_⟩, fun s => ⟨⟨stop s, rfl, ?_⟩, fun h c => exec_of_inReset h⟩⟩
  · exact ⟨_, by change execPowerOn st s = _; simp only [execPowerOn, h], start_started st s, start_pending st s⟩
  · exact ⟨_, by change execResetNRelease st s = _; simp only [execResetNRelease, h], start_started st s,
      start_pending st s⟩
  · exact ⟨_, by change execRestartStart st s = _; simp only [execRestartStart, h, hd]; rfl, start_started st s,
      start_pending st s⟩
  · exact ⟨rfl, rfl, rfl, rfl, rfl, rfl, fun d => tget_replicate _ d, rfl⟩

/-! ## The clock (R15) -/

theorem ClockInv.of_same {s t : State} (h : Fld.same s t .clock) (hs : ClockInv s) : ClockInv t := by
  obtain ⟨hp, hsm, hpl, -⟩ := h
  unfold ClockInv
  rw [hp, hsm, hpl]
  exact hs

theorem clockInv_of_timing_reset {s : State} (h : s.timing = Timing.reset) : ClockInv s := by
  unfold ClockInv
  rw [h]
  decide

/-- The commands that move the clock: the starts and stops, the boundary and the sample clock. -/
def movesClock : Instr → Bool
  | .powerOn _ | .resetNAssert | .resetNRelease _ | .restartStart _ | .periodBoundary | .sampleInstant => true
  | _ => false

theorem clock_not_touched {c : Instr} (h : movesClock c = false) : Fld.clock ∉ commandFields c := by
  cases c
  case recordWrite tag table i m v =>
    cases ht : tableOf table with
    | none => simp [commandFields, ht]
    | some t => cases t <;> simp [commandFields, ht, TableName.fields]
  all_goals simp_all [movesClock, commandFields, TableName.fields]

/-- What a boundary changes before it begins its period: all of its fields but the clock. -/
abbrev beforePeriodFields : List Fld :=
  [.reference, .mark, .ports, .orders, .replies, .notices, .probeQueues, .lampPositions, .block, .sources, .dests,
    .entries, .nextSerial, .arbiters, .panels, .keys, .parties, .circuits, .taps, .events, .sent, .lampDirty, .draws]

/-- A boundary ends with its period begun on a state whose clock is the one it met. -/
theorem boundary_begins (s : State) :
    ∃ u, Touches beforePeriodFields s u ∧ u.timing.atBoundary = false ∧ boundary s = restartFalls (beginPeriod u) := by
  have hassemble : ∀ b u, Touches beforePeriodFields u ((allOf 4).foldl (assemblePort b) u) := fun b u =>
    Touches.foldl (fun _ _ => (assemblePort_touches _ _ _).up) _ _
  have hclose : ∀ u, Touches beforePeriodFields u ((allOf 4).foldl closePort u) := fun u =>
    Touches.foldl (fun _ _ => (closePort_touches _ _).up) _ _
  unfold boundary
  refine ⟨_, ?_, ?_, rfl⟩
  · refine Touches.trans ?_ (atBoundary_touches _ _).up
    refine Touches.trans ?_ (flushLamps_touches _).up
    refine Touches.trans ?_ (hclose _)
    refine Touches.trans ?_ (applyReference_touches _).up
    exact (atBoundary_touches true s).up.trans (hassemble _ _)
  · rfl

/-- R15: a boundary raises the period counter, keeps the sample counter, and begins the period at its place 0. -/
theorem boundary_clock (s : State) :
    (boundary s).timing.period = s.timing.period + 1 ∧ (boundary s).timing.sample = s.timing.sample ∧
      (boundary s).timing.place = 0 ∧ (boundary s).timing.position = s.timing.position + 1 := by
  obtain ⟨u, hu, -, hb⟩ := boundary_begins s
  obtain ⟨hp, hs, -, hpos⟩ := hu .clock (by simp)
  rw [hb, ← hp, ← hs, ← hpos]
  exact ⟨rfl, rfl, rfl, rfl⟩

theorem boundary_clockInv {s : State} (hplace : s.timing.place = 48) (hs : ClockInv s) : ClockInv (boundary s) := by
  obtain ⟨hp, hsm, hpl, -⟩ := boundary_clock s
  obtain ⟨-, hsum⟩ := hs
  refine ⟨by rw [hpl]; decide, ?_⟩
  rw [hp, hsm, hpl, hsum, hplace]
  bv_omega

theorem sampleTick_clockInv {s : State} (hplace : s.timing.place < 48) (hs : ClockInv s) : ClockInv (sampleTick s) := by
  obtain ⟨-, hsum⟩ := hs
  refine ⟨hplace, ?_⟩
  change s.timing.sample + 1 = s.timing.period * 48 + BitVec.ofNat 32 (s.timing.place + 1)
  rw [hsum]
  bv_omega

theorem start_clockInv (st : Straps) (s : State) : ClockInv (start st s) := by
  obtain ⟨-, -, -, htiming, -⟩ := start_started st s
  exact clockInv_of_timing_reset htiming

theorem event_keeps_of {P : State → Prop} {can : Bool} {f : State → State} {s t : State}
    (hf : can = true → P s → P (f s)) (he : event can f s = .next t) (h : P s) : P t := by
  unfold event at he
  cases he
  split
  next hc =>
    simp only [Bool.and_eq_true] at hc
    exact hf hc.2 h
  next => exact h

theorem exec_clockInv (c : Instr) (s t : State) (hs : ClockInv s) (h : exec c s = .next t) : ClockInv t := by
  cases hc : movesClock c with
  | false => exact ClockInv.of_same (exec_touches h .clock (clock_not_touched hc)) hs
  | true =>
    have hstop : ClockInv (stop s) := clockInv_of_timing_reset rfl
    cases c
    case powerOn st =>
      change execPowerOn st s = _ at h
      unfold execPowerOn at h
      split at h <;> cases h
      · exact start_clockInv st s
      · exact hstop
    case resetNAssert => cases h; exact hstop
    case resetNRelease st =>
      change execResetNRelease st s = _ at h
      unfold execResetNRelease at h
      split at h <;> cases h
      · exact hs
      · exact start_clockInv st s
    case restartStart st =>
      cases h
      split
      · exact start_clockInv st s
      · exact hs
    case periodBoundary =>
      refine event_keeps_of (fun hp => boundary_clockInv ?_) (show execPeriodBoundary s = _ from h) hs
      simpa using hp
    case sampleInstant =>
      refine event_keeps_of (fun hp => sampleTick_clockInv ?_) (show execSampleInstant s = _ from h) hs
      simp only [State.instantOver, Bool.and_eq_true, decide_eq_true_eq] at hp
      exact hp.1.1
    all_goals cases hc

/-- Settles O7: the boundary moves the 48 instants of its period into the period counter, an instant the place. -/
theorem clockKept : Obligations.ClockKept := fun _ _ hs h =>
  step_keeps_of_exec (fun _ _ hs => hs) exec_clockInv hs h

/-! ## One sample instant (R15, R98, R27) -/

theorem State.due_iff (s : State) (e : Count) : s.due e = true ↔ e = s.timing.sample := by
  rw [State.due, beq_iff_eq, eq_comm]

theorem State.timerDue_iff (s : State) (o : Option Count) : s.timerDue o = true ↔ o = some s.timing.sample := by
  cases o <;> simp [State.timerDue, State.due_iff]

/-- Some index of a table has a property. -/
theorem any_allOf {n : Nat} (p : Fin n → Bool) : (allOf n).any p = true ↔ ∃ i, p i = true := by
  simp [allOf, List.any_eq_true]

/-- R98: an expiry of the running instant, spelled out. -/
theorem State.expiryDue_iff (s : State) :
    s.expiryDue = true ↔
      (∃ k, ((s.key k).state = .pressed ∧ (s.key k).latchTimer = some s.timing.sample) ∨
        (s.key k).winkTimer = some s.timing.sample) ∨
      (∃ p, ((s.panel p).online = .online ∧ (s.panel p).silenceTimer = some s.timing.sample) ∨
        ∃ e ∈ (s.panel p).replyList, e.expiresAt = s.timing.sample) ∨
      ∃ c, (s.circuit c).intervalTimer = some s.timing.sample ∨
        ∃ p ∈ (s.circuit c).outstanding, p.expiresAt = s.timing.sample := by
  unfold State.expiryDue
  rw [Bool.or_eq_true, Bool.or_eq_true, any_allOf, any_allOf, any_allOf]
  simp only [State.latchDue, State.silenceDue, State.timerDue_iff, State.due_iff, List.any_eq_true,
    Bool.or_eq_true, Bool.and_eq_true, beq_iff_eq, or_assoc]

theorem State.unitDue_iff (s : State) :
    s.unitDue = true ↔
      s.stepReady = true ∨ ∃ o rest, s.orders = o :: rest ∧ s.orderReady o.tag (readOrder o.body) = true := by
  unfold State.unitDue
  cases s.orders <;> simp

/-- Settles O14: `instantOver` is the clauses' condition, and the tick writes the clock and the unit's mark alone. -/
theorem sampleInstantTicks : Obligations.SampleInstantTicks := by
  intro s ha now expiry unit
  have hexp : s.expiryDue = true ↔ expiry := s.expiryDue_iff
  have hunit : s.unitDue = true ↔ unit := s.unitDue_iff
  refine ⟨fun hplace hne hnu => ?_, fun h => event_idle (.inr ?_)⟩
  · have hover : s.instantOver = true := by
      simp [State.instantOver, hplace, Config.perPeriod, ← Bool.not_eq_true, hexp, hunit, hne, hnu]
    exact ⟨_, event_taken ha hover, rfl, rfl, rfl, rfl, rfl, sampleTick_touches s⟩
  · rcases h with h | h | h
    · simp [State.instantOver, Config.perPeriod, h]
    · simp [State.instantOver, hexp.2 h]
    · simp [State.instantOver, hunit.2 h]

/-! ## The reference input (R17, R18) -/

theorem referenceGone_of_ne {r : RefSource} {s : State} (h : s.timing.selected ≠ r) : referenceGone r s = s := by
  simp [referenceGone, h]

/-- R18: the loss of the selected reference. -/
theorem referenceGone_of_selected {r : RefSource} {s : State} (h : s.timing.selected = r) (hr : r ≠ .internal) :
    referenceGone r s =
      raise .referenceLost none
        { s with timing :=
            { s.timing with
                active := .internal, pending := none, changed := s.timing.changed || s.timing.active != .internal,
                rate := if s.timing.active = .internal then s.timing.rate else .held } } := by
  simp [referenceGone, h, hr]

theorem referenceBack_of_selected {r : RefSource} {s : State} (h : s.timing.selected = r) :
    referenceBack r s =
      { s with timing := { s.timing with pending := if s.timing.active = r then none else some r } } := by
  simp [referenceBack, h]

theorem referenceBack_of_ne {r : RefSource} {s : State} (h : s.timing.selected ≠ r) : referenceBack r s = s := by
  simp [referenceBack, h]

theorem raise_timing (k : EventKind) (i : Option Nat) (s : State) : (raise k i s).timing = s.timing :=
  (raise_touches k i s).timing

theorem exec_refclkAbsent {s : State} (ha : s.awake = true) (hp : s.timing.refclkPresent = true) :
    exec .refclkAbsent s = .next (referenceGone .refclk (setRefclk false s)) :=
  (event_taken ha hp : execRefclkAbsent s = _)

theorem exec_refclkPresent {s : State} (ha : s.awake = true) (hp : s.timing.refclkPresent = false) :
    exec .refclkPresent s = .next (referenceBack .refclk (setRefclk true s)) :=
  (event_taken ha (by rw [hp]; rfl) : execRefclkPresent s = _)

/-- Settles O20: an absent selected reference is lost, a present one is marked to be taken up. -/
theorem refclkMoves : Obligations.RefclkMoves := by
  intro s ha ⟨_, hmark⟩
  refine ⟨fun hp => ?_, fun hp => ?_⟩
  · refine ⟨_, exec_refclkAbsent ha hp, ?_⟩
    by_cases hsel : s.timing.selected = .refclk
    · rw [referenceGone_of_selected (s := setRefclk false s) hsel (by decide)]
      refine ⟨by rw [raise_timing]; rfl, by rw [raise_timing]; rfl, fun _ => ⟨by rw [raise_timing], by rw [raise_timing],
        raise_raised _ _ _ hmark⟩, fun h => absurd hsel h, ?_⟩
      refine Touches.trans ?_ (raise_touches_settled .referenceLost none ?_).up
      · refine Touches.up (l := [.reference]) ?_
        exact (setRefclk_touches false s).trans (reference_touches _ _ rfl rfl rfl rfl rfl)
      · exact hmark
    · rw [referenceGone_of_ne (s := setRefclk false s) hsel]
      exact ⟨rfl, rfl, fun h => absurd h hsel, fun _ => ⟨rfl, rfl⟩, (setRefclk_touches false s).up⟩
  · refine ⟨_, exec_refclkPresent ha hp, ?_⟩
    by_cases hsel : s.timing.selected = .refclk
    · rw [referenceBack_of_selected (s := setRefclk true s) hsel]
      exact ⟨rfl, rfl, rfl, fun _ hact => if_neg hact, fun h => absurd hsel h, reference_touches s _ rfl rfl rfl rfl rfl⟩
    · rw [referenceBack_of_ne (s := setRefclk true s) hsel]
      exact ⟨rfl, rfl, rfl, fun h => absurd h hsel, fun _ => rfl, setRefclk_touches true s⟩

end Sys2Proof.Machine
end

section
/-! PROOF. The order unit: what an order taken and answered leaves (R27, R43), and the record orders (R28 to R31). -/

namespace Sys2Proof.Machine

/-! ## Lamps derived at the end of a unit -/

@[simp] theorem flushLamps_lampDirty (s : State) : (flushLamps s).lampDirty = [] := rfl

/-- What deriving lamps leaves of the panel records: all but the lamps still to be sent. -/
theorem PanelsButLamps.refl (s : State) : PanelsButLamps s s := fun _ => rfl

theorem PanelsButLamps.of_panels {s t : State} (h : t.panels = s.panels) : PanelsButLamps s t := fun p => by
  simp [State.panel, h]

theorem PanelsButLamps.trans {s t u : State} (h : PanelsButLamps s t) (k : PanelsButLamps t u) : PanelsButLamps s u :=
  fun p => by rw [k p, h p]

theorem markLamp_panels (k : KeyId) (s : State) : PanelsButLamps s (markLamp k s) := fun p => by
  unfold markLamp
  split
  · rfl
  · dsimp only
    rw [State.panel_setPanel]
    split
    next h => rw [h]
    next => rfl

theorem flushLamps_panels (s : State) : PanelsButLamps s (flushLamps s) := by
  have h : PanelsButLamps s (s.lampDirty.foldl (fun t k => markLamp k t) s) :=
    foldl_keeps (P := PanelsButLamps s) (fun t k ht => ht.trans (markLamp_panels k t)) _ _ (.refl s)
  exact h.trans (.of_panels rfl)

/-! ## An order taken and answered -/

theorem takeHead_taken (s : State) : OrderTaken s (takeHead s) := ⟨rfl, rfl, rfl⟩

theorem OrderTaken.congr {s t u : State} (h : OrderTaken s t) (ho : u.orders = t.orders) (hl : u.lastUnit = t.lastUnit)
    (hu : u.unitTaken = t.unitTaken) : OrderTaken s u := by
  obtain ⟨h1, h2, h3⟩ := h
  exact ⟨ho.trans h1, hl.trans h2, hu.trans h3⟩

theorem Replied.congr {s t s' t' : State} {tag : Byte} {l l' : List (Option Byte)} (h : Replied s t tag l)
    (hs : s.replies = s'.replies) (ht : t'.replies = t.replies) (hl : l = l') : Replied s' t' tag l' := by
  obtain ⟨body, hb, hr⟩ := h
  exact ⟨body, hl ▸ hb, by rw [ht, hr, hs]⟩

/-- What deriving lamps adds to a frame. -/
theorem Touches.flushed {l : List Fld} {s u : State} (h : Touches (.lampDirty :: l) s u) (hs : s.lampDirty = [])
    (hp : .panels ∈ l) : Touches l s (flushLamps u) := by
  intro f hf
  by_cases hd : f = .lampDirty
  · subst hd; simp [Fld.same, hs]
  · have hfp : f ∉ [Fld.panels, .lampDirty] := by
      simp only [List.mem_cons, List.not_mem_nil, or_false, not_or]
      exact ⟨fun e => hf (e ▸ hp), hd⟩
    have h1 := h f (by simp [hd, hf])
    have h2 := flushLamps_touches u f hfp
    cases f <;> simp_all [Fld.same]

/-- The answer of an order whose work leaves the order unit's own fields and the replies alone: one reply, and beside it
what the work touches. -/
theorem answered_of_work {tag c mark : Byte} {o : Order} {r : Result} {rest : List (Option Byte)} {s u : State}
    {l : List Fld} (hs : s.Ready tag o) (hu : Touches (.lampDirty :: l) (takeHead s) u) (hp : .panels ∈ l)
    (hkept : u.orders = (takeHead s).orders ∧ u.lastUnit = (takeHead s).lastUnit ∧
      u.unitTaken = (takeHead s).unitTaken ∧ u.replies = s.replies) (hlen : rest.length ≤ 25) :
    Answered s (flushLamps (reply tag c r mark rest u)) tag (stated [c, r.code, mark] ++ rest) l := by
  obtain ⟨ho, hl, ht, hr⟩ := hkept
  have hf := flushLamps_touches (reply tag c r mark rest u)
  refine ⟨(takeHead_taken s).congr (hf.orders.trans ho) (hf.lastUnit.trans hl) (hf.unitTaken.trans ht), ?_, ?_⟩
  · exact (reply_replied tag c r mark rest u hlen).congr hr hf.replies rfl
  · refine Touches.flushed ?_ hs.2.1 (by simp [hp])
    exact ((takeHead_touches s).mono (by simp)).trans ((hu.mono (by simp +contextual)).trans
      ((reply_touches tag c r mark rest u).mono (by simp)))

/-- The answer of an order whose work hands no key to the lamp unit. -/
theorem answered_of_quiet_work {tag c mark : Byte} {o : Order} {r : Result} {rest : List (Option Byte)} {s u : State}
    {l : List Fld} (hs : s.Ready tag o) (hu : Touches l (takeHead s) u) (hd : .lampDirty ∉ l)
    (hkept : u.orders = (takeHead s).orders ∧ u.lastUnit = (takeHead s).lastUnit ∧
      u.unitTaken = (takeHead s).unitTaken ∧ u.replies = s.replies) (hlen : rest.length ≤ 25) :
    flushLamps (reply tag c r mark rest u) = reply tag c r mark rest u ∧
      Answered s (reply tag c r mark rest u) tag (stated [c, r.code, mark] ++ rest) l := by
  obtain ⟨ho, hl, ht, hr⟩ := hkept
  refine ⟨flushLamps_settled ((hu .lampDirty hd).trans hs.2.1), (takeHead_taken s).congr ho hl ht, ?_, ?_⟩
  · exact (reply_replied tag c r mark rest u hlen).congr hr rfl rfl
  · exact ((takeHead_touches s).mono (by simp)).trans ((hu.mono (by simp +contextual)).trans
      ((reply_touches tag c r mark rest u).mono (by simp)))

/-- An order whose unit is a reply and nothing else. -/
theorem order_replies {tag c mark : Byte} {o : Order} {r : Result} {rest : List (Option Byte)} {body : State → State}
    {s : State} (hs : s.Ready tag o) (hbody : body (takeHead s) = reply tag c r mark rest (takeHead s))
    (hlen : rest.length ≤ 25) :
    ∃ t, order tag o body s = .next t ∧ Answered s t tag (stated [c, r.code, mark] ++ rest) [] := by
  obtain ⟨hflush, hans⟩ := answered_of_quiet_work (u := takeHead s) (l := []) (c := c) (mark := mark) (r := r)
    (rest := rest) hs (Touches.refl _ _) (by simp) ⟨rfl, rfl, rfl, rfl⟩ hlen
  refine ⟨_, order_taken hs.1, ?_⟩
  rw [hbody, hflush]
  exact hans

theorem Answered.layout {s t : State} {tag : Byte} {l l' : List (Option Byte)} {m : List Fld} (h : Answered s t tag l m)
    (hl : l = l') : Answered s t tag l' m := hl ▸ h

/-! ## Layouts -/

@[simp] theorem slice_length (l : List Byte) (i n : Nat) : (slice l i n).length = n := by simp [slice]

@[simp] theorem bytesOfNat_length (w v : Nat) : (bytesOfNat w v).length = w := by simp [bytesOfNat]

/-- Bytes that fill the slice exactly are the slice. -/
theorem slice_eq_self {l : List Byte} {n : Nat} (h : l.length = n) : slice l 0 n = l := by
  apply List.ext_getElem
  · simp [h]
  · intro i h1 h2
    simp [slice, byteAt, List.getD_eq_getElem?_getD, h2]

theorem slice_nil (n : Nat) : slice [] 0 n = List.replicate n 0 := by
  apply List.ext_getElem <;> simp [slice, byteAt]

theorem packFields_length (w v : List Nat) (m : BitVec 32) (n : Nat) : (packFields w v m n).length = n := by
  simp [packFields]

theorem valueArea_packFields (w v : List Nat) (m : BitVec 32) :
    valueArea (packFields w v m 20) = stated (packFields w v m 20) := by
  rw [valueArea, slice_eq_self (packFields_length w v m 20)]

theorem valueArea_nil : valueArea [] = stated (List.replicate 20 0) := by rw [valueArea, slice_nil]

@[simp] theorem stated_length (l : List Byte) : (stated l).length = l.length := by simp [stated]
@[simp] theorem unstated_length (n : Nat) : (unstated n).length = n := by simp [unstated]
@[simp] theorem valueArea_length (l : List Byte) : (valueArea l).length = 20 := by simp [valueArea]
@[simp] theorem noValues_length : noValues.length = 20 := by simp [noValues]

theorem stated_append (a b : List Byte) : stated (a ++ b) = stated a ++ stated b := by simp [stated]

theorem unstated_add (m n : Nat) : unstated (m + n) = unstated m ++ unstated n := by
  exact (List.replicate_append_replicate).symm

theorem markByte_final : markByte true 0 = 128 := rfl
/-! ## RECORD_READ (R30) -/

theorem readUnit_ok {tag table : Byte} {index : BitVec 16} {mask : BitVec 32} {tn : TableName} {s : State}
    (ht : tableOf table = some tn) (hi : index.toNat < tn.records) (hm : maskOk (tn.widths index.toNat) 20 mask = true) :
    readUnit tag table index mask s =
      recordReply tag (.recordRead table index mask) .ok table index
        (valueArea (packFields (tn.widths index.toNat) (s.values tn index.toNat) mask 20)) s := by
  simp [readUnit, recordCheck, ht, hi, hm]

theorem recordCheck_table {table : Byte} (h : tableOf table = none) (i : Nat) :
    recordCheck table i = .error .badTable := by simp [recordCheck, h]

theorem recordCheck_index {table : Byte} {tn : TableName} {i : Nat} (ht : tableOf table = some tn)
    (h : tn.records ≤ i) : recordCheck table i = .error .badIndex := by simp [recordCheck, ht, Nat.not_lt.2 h]

theorem recordCheck_ok {table : Byte} {tn : TableName} {i : Nat} (ht : tableOf table = some tn)
    (h : i < tn.records) : recordCheck table i = .ok tn := by simp [recordCheck, ht, h]

theorem codeIn_eq_idxOf {α : Type} [DecidableEq α] (l : List α) (x : α) : codeIn l x = l.idxOf x := rfl

theorem indexIn_val {n : Nat} (i : Fin n) : indexIn n i.val = some i := by simp [indexIn]

theorem encoders_toList (r : Panel) : r.encoders.toList = (allOf 4).map fun i => tget r.encoders i := by
  apply List.ext_getElem <;> simp [allOf, tget]

/-- R29, R99: the count and the four stations of a reply list, as one number, the count byte highest. -/
theorem replyListValue_eq (l : List ReplyEntry) :
    replyListValue l =
      (List.range 4).foldl (fun n i => n * 256 + match l[i]? with | some e => e.station.val | none => 0)
        (l.length % 256) := by
  have hbyte : ∀ i, (byteAt (BitVec.ofNat 8 l.length :: l.map fun e => BitVec.ofNat 8 e.station.val) (i + 1)).toNat =
      match l[i]? with | some e => e.station.val | none => 0 := by
    intro i
    simp only [byteAt, List.getD_eq_getElem?_getD, List.getElem?_cons_succ, List.getElem?_map]
    cases l[i]? with
    | none => rfl
    | some e =>
      have := e.station.isLt
      simp only [Option.map_some, Option.getD_some, BitVec.toNat_ofNat]
      omega
  have hslice : ∀ b : List Byte, slice b 0 5 =
      [byteAt b 0, byteAt b (0 + 1), byteAt b (1 + 1), byteAt b (2 + 1), byteAt b (3 + 1)] := fun b => rfl
  rw [replyListValue, hslice]
  simp only [natOfBytes, List.foldl_cons, List.foldl_nil, hbyte, Nat.zero_mul, Nat.zero_add]
  simp [byteAt, List.range_succ]

theorem codeIn_encoderTargets (o : Option (Fin 32)) :
    codeIn encoderTargets o = match o with | some n => n.val + 1 | none => 0 := by
  revert o
  decide

/-- Settles O22: the reply packs `State.values`, which for each table is the list of the record's components. -/
theorem recordReadAnswers : Obligations.RecordReadAnswers := by
  refine ⟨fun tag table index mask tn s hs ht hi hm => ?_, fun s => ?_⟩
  · obtain ⟨t, he, ha⟩ := order_replies (body := readUnit tag table index mask) hs (readUnit_ok ht hi hm) (by simp)
    refine ⟨t, he, ha.layout ?_⟩
    rw [valueArea_packFields]
    rfl
  · refine ⟨fun x => ?_, ?_, fun n => ?_, fun d => ?_, fun x => ?_, fun p => ?_, fun k => ?_, fun p => ?_, fun c => ?_,
      fun x => ?_, fun c => ?_, fun k => ?_⟩
    · have hx : x.val ≠ 4 := by omega
      simp only [State.values, if_neg hx, indexIn_val, Option.map_some, Option.getD_some, Port.values, codeIn_eq_idxOf]
      cases (s.port x).width <;> cases (s.port x).lastSeq <;> rfl
    · simp only [State.values, if_pos, Timing.values, codeIn_eq_idxOf]
      rfl
    · simp only [State.values, indexIn_val]
      rfl
    · simp only [State.values, indexIn_val, Option.map_some, Option.getD_some, Dest.values, codeIn_eq_idxOf]
      cases (s.dest d).circuit <;> rfl
    · simp only [State.values, indexIn_val, Option.map_some, Option.getD_some, Station.values, codeIn_eq_idxOf]
      cases (s.station x).source <;> cases (s.station x).dest <;> rfl
    · simp only [State.values, indexIn_val, Option.map_some, Option.getD_some, Panel.values, codeIn_encoderTargets,
        encoders_toList, List.map_map, replyListValue_eq]
      simp only [codeIn_eq_idxOf]
      congr 1
    · simp only [State.values, indexIn_val, Option.map_some, Option.getD_some, Key.values, codeIn_eq_idxOf]
      cases (s.key k).winkTimer <;> cases (s.key k).target <;> cases (s.key k).resolved <;> rfl
    · simp only [State.values, indexIn_val, Option.map_some, Option.getD_some, Party.values]
      refine ⟨by simp, rfl, fun i hi => ⟨fun m hm => ?_, fun hm => ?_⟩⟩ <;>
        simp [Nat.add_comm 3 i, hi, hm, memberValue, ofBool]
    · simp only [State.values, indexIn_val, Option.map_some, Option.getD_some, Circuit.values, codeIn_eq_idxOf]
      rfl
    · simp only [State.values, indexIn_val, Option.map_some, Option.getD_some, Tap.values, codeIn_eq_idxOf]
      rfl
    · simp only [State.values, indexIn_val]
      rfl
    · simp only [State.values, indexIn_val, Option.map_some, Option.getD_some, Event.values, codeIn_eq_idxOf]
      rfl

/-! ## Refusals (R28, R31) -/

/-- Settles O23: the table, the index and the mask are checked in turn, each with its reply. -/
theorem recordOrdersRefused : Obligations.RecordOrdersRefused := by
  intro tag table index mask values s refusedRead refusedWrite
  have hread : s.Ready tag (.recordRead table index mask) → ∀ r,
      readUnit tag table index mask (takeHead s) =
        recordReply tag (.recordRead table index mask) r table index noValues (takeHead s) → refusedRead r := by
    intro hs r hr
    obtain ⟨t, he, ha⟩ := order_replies (body := readUnit tag table index mask) hs hr (by simp)
    exact ⟨t, he, ha.layout (by rw [show 22 = 2 + 20 from rfl, unstated_add, ← List.append_assoc]; rfl)⟩
  have hwrite : s.Ready tag (.recordWrite table index mask values) → ∀ r,
      writeUnit tag table index mask values (takeHead s) =
        recordReply tag (.recordWrite table index mask values) r table index (valueArea []) (takeHead s) →
      refusedWrite r := by
    intro hs r hr
    obtain ⟨t, he, ha⟩ := order_replies (body := writeUnit tag table index mask values) hs hr (by simp)
    refine ⟨t, he, ha.layout ?_⟩
    rw [valueArea_nil]
    rfl
  refine ⟨fun hs => ⟨fun ht => hread hs _ ?_, fun tn ht => ⟨fun hi => hread hs _ ?_, fun hi hm => hread hs _ ?_⟩⟩,
    fun hs => ⟨fun ht => hwrite hs _ ?_, fun tn ht => ⟨fun hi => hwrite hs _ ?_, fun hi hm => hwrite hs _ ?_⟩⟩⟩
  · simp [readUnit, recordCheck_table ht]
  · simp [readUnit, recordCheck_index ht hi]
  · simp [readUnit, recordCheck_ok ht hi, hm]
  · simp [writeUnit, recordCheck_table ht]
  · simp [writeUnit, recordCheck_index ht hi]
  · simp [writeUnit, recordCheck_ok ht hi, recordWrite, hm]

end Sys2Proof.Machine
end

section
/-! PROOF. RECORD_WRITE and the block orders: every write row is its RECORD_WRITE (R31); a write leaves the order unit's own
fields alone; what the acceptance of a block order and each of its steps answers (R32 to R35). -/

namespace Sys2Proof.Machine

/-! ## A record write leaves the host's queues alone -/

/-- What the loss of a port other than the management port may touch. -/
abbrev guestLossFields : List Fld :=
  [.ports, .notices, .events, .draws, .keys, .panels, .arbiters, .parties, .entries, .nextSerial, .lampDirty, .circuits,
    .probeQueues, .reference]

/-- R12: only the management port's loss empties the host's queues. -/
theorem losePort_touches_guest {x : PortId} {s : State} (h : s.straps.mgmt ≠ x) (st : PortState) :
    Touches guestLossFields s (losePort x st s) := by
  unfold losePort
  dsimp only
  rw [if_neg (by exact h)]
  refine Touches.trans ?_ (referenceGone_touches _ _).up
  refine Touches.trans ?_ (fieldPortLost_touches _ _).up
  refine Touches.trans ?_ (keyPortLost_touches _ _).up
  exact (setPort_touches _ _ _).up.trans (raise_touches _ _ _).up

theorem disablePort_touches_guest {x : PortId} {s : State} (h : s.straps.mgmt ≠ x) :
    Touches guestLossFields s (disablePort x s) := by
  unfold disablePort
  dsimp only
  split
  · refine Touches.trans (setPort_touches s x { s.port x with enabled := false }).up ?_
    exact losePort_touches_guest (s := s.setPort x _) h _
  · exact (setPort_touches s x { s.port x with enabled := false }).up.trans (setPort_touches _ _ _).up

/-- R13: what a write of PORT 0..3 can do: nothing but answer, or take the width and switch the port, a disable being
refused on the management port. -/
theorem writePort_cases (x : PortId) (l : List FieldValue) (s : State) :
    ((s.port x).updated l = none ∧ writePort x l s = (s, .badValue)) ∨
    ∃ r, (s.port x).updated l = some r ∧
      ((names l 1 = true ∧ r.enabled = false ∧ s.straps.mgmt = x ∧ writePort x l s = (s, .inUse)) ∨
        (¬(names l 1 = true ∧ r.enabled = false ∧ s.straps.mgmt = x) ∧
          writePort x l s =
            (if names l 1 then
              (if r.enabled then enablePort x (s.setPort x { s.port x with width := r.width })
                else disablePort x (s.setPort x { s.port x with width := r.width }))
              else s.setPort x { s.port x with width := r.width }, .ok))) := by
  unfold writePort
  cases hr : (s.port x).updated l with
  | none => exact .inl ⟨rfl, rfl⟩
  | some r =>
    refine .inr ⟨r, rfl, ?_⟩
    by_cases h : names l 1 = true ∧ r.enabled = false ∧ s.straps.mgmt = x
    · exact .inl ⟨h.1, h.2.1, h.2.2, by simp [h.1, h.2.1, h.2.2]⟩
    · refine .inr ⟨h, ?_⟩
      have hc : ¬((names l 1 && !r.enabled && s.straps.mgmt == x) = true) := by simpa [and_assoc] using h
      simp only [if_neg hc]

theorem writePort_touches_guest (x : PortId) (l : List FieldValue) (s : State) :
    Touches guestLossFields s (writePort x l s).1 := by
  rcases writePort_cases x l s with ⟨-, h⟩ | ⟨r, -, ⟨-, -, -, h⟩ | ⟨hn, h⟩⟩ <;> rw [h]
  · exact Touches.refl _ s
  · exact Touches.refl _ s
  · have hset := (setPort_touches s x { s.port x with width := r.width }).up (m := guestLossFields)
    dsimp only
    split
    next hl =>
      split
      next => exact hset.trans (enablePort_touches _ _).up
      next he =>
        refine hset.trans (disablePort_touches_guest fun hm => hn ⟨hl, by simpa using he, hm⟩)
    next => exact hset

/-- The fields of the order unit's own: the host's queues, the block in flight, and what its last unit was. -/
structure UnitKept (s t : State) : Prop where
  orders : t.orders = s.orders
  replies : t.replies = s.replies
  block : t.block = s.block
  lastUnit : t.lastUnit = s.lastUnit
  unitTaken : t.unitTaken = s.unitTaken

theorem Touches.unitKept {l : List Fld} {s t : State} (h : Touches l s t)
    (hl : (l.all fun f => !([Fld.orders, .replies, .block, .lastUnit, .unitTaken].contains f)) = true := by rfl) :
    UnitKept s t := by
  have hn : ∀ f ∈ [Fld.orders, .replies, .block, .lastUnit, .unitTaken], f ∉ l := by
    intro f hf hfl
    have := List.all_eq_true.1 hl f hfl
    simp only [Bool.not_eq_true', List.contains_eq_mem, decide_eq_false_iff_not] at this
    exact this hf
  exact ⟨h .orders (hn _ (by simp)), h .replies (hn _ (by simp)), h .block (hn _ (by simp)),
    h .lastUnit (hn _ (by simp)), h .unitTaken (hn _ (by simp))⟩

/-- R31: no record write takes an order, builds a reply or ends a block. -/
theorem writeRecord_unitKept (t : TableName) (i : Nat) (l : List FieldValue) (s : State) :
    UnitKept s (writeRecord t i l s).1 := by
  have h := writeRecord_touches t i l s
  cases t
  case port =>
    unfold writeRecord
    dsimp only
    split
    · exact (writeReference_touches l s).unitKept
    · exact (atIndex_touches guestLossFields i _ s fun j => writePort_touches_guest j l s).unitKept
  all_goals exact h.unitKept

/-! ## RECORD_WRITE (R31) -/

theorem writeUnit_of_ok {tag : Byte} {t : TableName} {index : BitVec 16} {mask : BitVec 32} {values : List Byte}
    {s : State} (hi : index.toNat < t.records) (hm : writeMaskOk t index.toNat 20 mask = true) :
    writeUnit tag t.code index mask values s =
      recordReply tag (.recordWrite t.code index mask values)
        (writeRecord t index.toNat (writtenValues t index mask values) s).2 t.code index (valueArea [])
        (writeRecord t index.toNat (writtenValues t index mask values) s).1 := by
  simp [writeUnit, recordCheck_code t hi, recordWrite, hm, writtenValues]

/-- The commands that are a record write's: RECORD_WRITE itself, and a write row on its own table. -/
theorem exec_of_recordWrite {c : Instr} {tag table : Byte} {index : BitVec 16} {mask : BitVec 32} {values : List Byte}
    (s : State) (hw : c.wellFormed = true) (hc : commandOrder c = some (tag, .recordWrite table index mask values)) :
    exec c s = exec (.recordWrite tag table index mask values) s := by
  have hrow : ∀ {t : TableName} {r : Nat → List FieldValue → Bool} {tag i m v}, rowOk t r i m v = true →
      writeRow t r tag i m v s = exec (.recordWrite tag t.code i m v) s := fun h =>
    writeRow_taken (by simp only [rowOk, Bool.and_eq_true] at h; exact h.2)
  cases c <;> cases hc
  case recordWrite => rfl
  all_goals exact hrow hw

/-- Settles O24: a write row is its RECORD_WRITE; the reply and the lamps are all that follow the table's own write. -/
theorem recordWriteAnswers : Obligations.RecordWriteAnswers := by
  refine ⟨fun c tag table index mask values s => exec_of_recordWrite s, ?_⟩
  intro tag tn index mask values s ⟨hs, hi, hm⟩ w
  have hu : writeUnit tag tn.code index mask values (takeHead s) =
      recordReply tag (.recordWrite tn.code index mask values) w.2 tn.code index (valueArea []) w.1 := writeUnit_of_ok hi hm
  have hkept := writeRecord_unitKept tn index.toNat (writtenValues tn index mask values) (takeHead s)
  have htouch := writeRecord_touches tn index.toNat (writtenValues tn index mask values) (takeHead s)
  refine ⟨_, order_taken hs.1, ?_⟩
  rw [hu]
  have hans : Answered s (flushLamps (recordReply tag (.recordWrite tn.code index mask values) w.2 tn.code index
      (valueArea []) w.1)) tag (writeLayout tn index w.2) (.panels :: tn.fields) := by
    refine (answered_of_work hs (htouch.mono (by simp +contextual)) (by simp)
      ⟨hkept.orders, hkept.lastUnit, hkept.unitTaken, hkept.replies⟩ (by simp)).layout ?_
    rw [valueArea_nil]
    rfl
  have hlast : Touches [.replies, .draws, .panels, .lampDirty] w.1
      (flushLamps (recordReply tag (.recordWrite tn.code index mask values) w.2 tn.code index (valueArea []) w.1)) :=
    (reply_touches _ _ _ _ _ _).up.trans (flushLamps_touches _).up
  exact ⟨hans, hlast.sources, hlast.dests, hlast.stations, hlast.keys, hlast.entries, hlast.parties, hlast.circuits,
    hlast.taps, hlast.cadences, hlast.events, hlast.ports, hlast.timing, hlast.arbiters, hlast.probeQueues, hlast.notices,
    hlast.orders, hlast.block, PanelsButLamps.trans (.of_panels rfl) (flushLamps_panels _)⟩

/-! ## Block steps (R33) -/

theorem takeStep_taken (s : State) : StepTaken (takeStep s) := ⟨rfl, rfl⟩

theorem StepTaken.congr {t u : State} (h : StepTaken t) (hl : u.lastUnit = t.lastUnit) (hu : u.unitTaken = t.unitTaken) :
    StepTaken u := ⟨hl.trans h.1, hu.trans h.2⟩

theorem exec_blockReadStep {b : Block} {t : TableName} {mask : BitVec 32} {down : Bool} {s : State} (hs : s.StepReady b)
    (hw : b.work = .blockRead t mask down) :
    exec .blockReadStep s = .next (flushLamps (blockReadStep b t mask down (takeStep s))) :=
  (blockStep_taken hs.1 hs.2.1 (by rw [hw]) : execBlockReadStep s = _)

theorem exec_fillStep {b : Block} {t : TableName} {mask : BitVec 32} {down : Bool} {values : List Byte} {s : State}
    (hs : s.StepReady b) (hw : b.work = .fill t mask down values) :
    exec .fillStep s = .next (flushLamps (fillStep b t mask down values (takeStep s))) :=
  (blockStep_taken hs.1 hs.2.1 (by rw [hw]) : execFillStep s = _)

theorem exec_meterReadStep {b : Block} {s : State} (hs : s.StepReady b) (hw : b.work = .meterRead) :
    exec .meterReadStep s = .next (flushLamps (meterStep b (takeStep s))) :=
  (blockStep_taken hs.1 hs.2.1 (by rw [hw]) : execMeterReadStep s = _)

theorem exec_routeListStep {b : Block} {d : DestId} {place : Option Nat} {s : State} (hs : s.StepReady b)
    (hw : b.work = .routeList d place) :
    exec .routeListStep s = .next (flushLamps (routeListStep b d place (takeStep s))) :=
  (blockStep_taken hs.1 hs.2.1 (by rw [hw]) : execRouteListStep s = _)

/-- A step whose work hands no key to the lamp unit derives no lamp. -/
theorem flushLamps_of_touches {l : List Fld} {s u : State} (h : Touches l s u) (hs : s.lampDirty = [])
    (hl : Fld.lampDirty ∉ l := by decide) : flushLamps u = u :=
  flushLamps_settled ((h.lampDirty hl).trans hs)

theorem markByte_last (p : Prop) [Decidable p] : markByte (decide p) 0 = if p then 128 else 0 := by
  by_cases h : p <;> simp [h, markByte]

/-- A reply built on a step's state, with the block's field rewritten: what every step that only reads leaves. -/
theorem step_replies {l : List (Option Byte)} {tag code mark : Byte} {r : Result} {s : State} (b : Option Block)
    (hd : s.lampDirty = []) (hlen : l.length ≤ 25) :
    let t := reply tag code r mark l ((takeStep s).withBlock b)
    flushLamps t = t ∧ StepTaken t ∧ Replied s t tag (stated [code, r.code, mark] ++ l) ∧ t.block = b ∧
      Touches [.lastUnit, .unitTaken, .replies, .draws, .block] s t := by
  refine ⟨flushLamps_settled hd, ⟨rfl, rfl⟩, (reply_replied _ _ _ _ _ _ hlen).congr rfl rfl rfl, rfl, ?_⟩
  exact (takeStep_touches s).up.trans ((withBlock_touches _ b).up.trans (reply_touches _ _ _ _ _ _).up)

/-- Settles O26: a step of BLOCK_READ is a reply and the block moved on; a step of FILL is the record's write, and with its
last record or a refusal the reply that ends the block. -/
theorem blockReadAndFillSteps : Obligations.BlockReadAndFillSteps := by
  refine ⟨fun b tn mask down s hs hw hm => ?_, fun b tn mask down s hs hw hm => ?_,
    fun b tn mask down values s hs hw hm => ?_, ?_⟩
  · have hd := hs.2.2.1
    rw [exec_blockReadStep hs hw]
    unfold blockReadStep
    dsimp only
    rw [if_pos hm]
    obtain ⟨hf, ht, hr, hb, hx⟩ := step_replies (tag := b.tag) (code := 3) (r := .ok)
      (mark := markByte (decide (b.remaining ≤ 1)) 0) (s := s)
      (l := stated [tn.code] ++ stated (bytesOfNat 2 b.next) ++ stated (bytesOfNat 2 (b.handled + 1)) ++
        valueArea (packFields (tn.widths b.next) (s.values tn b.next) mask 20))
      (b.advance (moveIndex b.next down) 1) hd (by simp)
    refine ⟨_, congrArg _ hf, ht, hr.congr rfl rfl ?_, ?_, hx⟩
    · rw [valueArea_packFields, markByte_last]
      simp [stated, Result.code]
    · rw [hb, Block.advance, moveIndex]
  · have hd := hs.2.2.1
    rw [exec_blockReadStep hs hw]
    unfold blockReadStep
    dsimp only
    rw [if_neg (by rw [hm]; decide)]
    obtain ⟨hf, ht, hr, hb, hx⟩ := step_replies (tag := b.tag) (code := 3) (r := .badValue) (mark := markByte true 0)
      (s := s) (l := stated [tn.code] ++ stated (bytesOfNat 2 b.next) ++ stated (bytesOfNat 2 b.handled) ++ valueArea [])
      none hd (by simp)
    refine ⟨_, congrArg _ hf, ht, hb, hr.congr rfl rfl ?_, hx⟩
    rw [valueArea_nil]
    simp [stated, Result.code, markByte_final]
  · have hd := hs.2.2.1
    rw [exec_fillStep hs hw]
    unfold fillStep recordWrite
    dsimp only
    rw [if_neg (by rw [hm]; decide)]
    obtain ⟨hf, ht, hr, hb, hx⟩ := step_replies (tag := b.tag) (code := 4) (r := .badValue) (mark := markByte true 0)
      (s := s) (l := stated [tn.code] ++ stated (bytesOfNat 2 b.next) ++ stated (bytesOfNat 2 b.handled) ++ unstated 20)
      none hd (by simp)
    refine ⟨_, congrArg _ hf, ht, hb, hr.congr rfl rfl ?_, hx⟩
    simp [stated, Result.code, markByte_final]
  · intro b tn mask down values s hs hw hm hi w
    have hkept := writeRecord_unitKept tn b.next (namedValues (tn.widths b.next) mask values) (takeStep s)
    have hwr : recordWrite tn b.next 16 mask values (takeStep s) = w := by simp [recordWrite, hm, w]
    have hreply : ∀ (r : Result) (l : List (Option Byte)) (bl : Option Block), l.length ≤ 25 →
        let t := flushLamps (reply b.tag 4 r (markByte true 0) l (w.1.withBlock bl))
        t.block = bl ∧ Replied w.1 t b.tag (stated [4, r.code, 128] ++ l) := fun r l bl hl =>
      ⟨(flushLamps_touches _).block, (reply_replied _ _ _ _ _ _ hl).congr rfl (flushLamps_replies _) rfl⟩
    refine ⟨_, exec_fillStep hs hw, ?_⟩
    have hfill : Touches [.block, .replies, .draws] w.1 (fillStep b tn mask down values (takeStep s)) := by
      unfold fillStep
      rw [hwr]
      dsimp only
      have hb := fun bl => (withBlock_touches w.1 bl).up (m := [.block, .replies, .draws])
      split
      · split
        · exact (hb _).trans (reply_touches _ _ _ _ _ _).up
        · exact hb _
      · exact (hb _).trans (reply_touches _ _ _ _ _ _).up
    have hlast := (hfill.up (m := [.block, .replies, .draws, .panels, .lampDirty])).trans (flushLamps_touches _).up
    refine ⟨(takeStep_taken s).congr (hlast.lastUnit.trans hkept.lastUnit) (hlast.unitTaken.trans hkept.unitTaken),
      hlast.sources, hlast.dests, hlast.stations, hlast.keys, hlast.entries, hlast.parties, hlast.circuits, hlast.taps,
      hlast.cadences, hlast.events, hlast.ports, hlast.timing, hlast.arbiters, hlast.probeQueues, hlast.notices,
      hlast.orders, PanelsButLamps.trans (.of_panels hfill.panels) (flushLamps_panels _), fun hok hrem => ?_,
      fun hok hrem => ?_, fun hno => ?_⟩
    · unfold fillStep
      rw [hwr]
      dsimp only
      rw [hok]
      dsimp only
      rw [if_neg (Nat.not_le.2 hrem)]
      refine ⟨flushLamps_replies _, ((flushLamps_touches _).block).trans ?_⟩
      simp [State.withBlock, Block.advance, Nat.not_le.2 hrem, moveIndex]
    · unfold fillStep
      rw [hwr]
      dsimp only
      rw [hok]
      dsimp only
      rw [if_pos hrem]
      obtain ⟨hb, hr⟩ := hreply .ok (stated [tn.code] ++ stated (bytesOfNat 2 b.next) ++
        stated (bytesOfNat 2 (b.handled + 1)) ++ unstated 20) none (by simp)
      exact ⟨hb, hr.congr rfl rfl (by simp [stated, Result.code])⟩
    · have hfs : fillStep b tn mask down values (takeStep s) =
          fillReply b.tag w.2 tn.code (stated (bytesOfNat 2 b.next)) b.handled (w.1.withBlock none) := by
        unfold fillStep
        rw [hwr]
        dsimp only
        split
        · exact absurd ‹_› hno
        · rfl
      rw [hfs]
      obtain ⟨hb, hr⟩ := hreply w.2 (stated [tn.code] ++ stated (bytesOfNat 2 b.next) ++
        stated (bytesOfNat 2 b.handled) ++ unstated 20) none (by simp)
      exact ⟨hb, hr.congr rfl rfl (by simp [stated])⟩

end Sys2Proof.Machine
end

section
/-! PROOF. The steps of METER_READ and ROUTE_LIST (R34, R35), and the acceptance of the block orders (R28, R32). -/

namespace Sys2Proof.Machine

/-! ## A record written for each number of a list -/

/-- The sources of a list are rewritten one by one, each once. -/
theorem source_foldl_setSource {l : List SourceId} (hl : l.Nodup) (g : SourceId → Source → Source) (s : State)
    (i : SourceId) :
    (l.foldl (fun t n => t.setSource n (g n (t.source n))) s).source i =
      if i ∈ l then g i (s.source i) else s.source i := by
  induction l generalizing s with
  | nil => simp
  | cons n l ih =>
    obtain ⟨hn, hl⟩ := List.nodup_cons.1 hl
    rw [List.foldl_cons, ih hl, State.source_setSource]
    by_cases hi : i = n
    · subst hi; simp [hn]
    · simp [hi]

/-! ## METER_READ and ROUTE_LIST -/

theorem mem_meterSources (b : Block) (i : SourceId) :
    i ∈ meterSources b ↔ b.next ≤ i.val ∧ i.val < b.next + min 8 b.remaining := by
  unfold meterSources
  rw [List.mem_filterMap]
  constructor
  · rintro ⟨j, hj, hi⟩
    rw [List.mem_range] at hj
    unfold indexIn at hi
    split at hi
    · cases hi; simp only; omega
    · cases hi
  · rintro ⟨h1, h2⟩
    refine ⟨i.val - b.next, by rw [List.mem_range]; omega, ?_⟩
    rw [Nat.add_sub_cancel' h1, indexIn_val]

theorem meterSources_nodup (b : Block) : (meterSources b).Nodup := by
  refine List.nodup_range.filterMap fun i j n hi hj => ?_
  unfold indexIn at hi hj
  split at hi
  · split at hj
    · have := congrArg Fin.val ((Option.some.inj hi).trans (Option.some.inj hj).symm)
      simp only at this; omega
    · cases hj
  · cases hi

/-- Settles O27: the step's reply is built on the state it met; the peaks it reported are then cleared one by one. -/
theorem meterAndListSteps : Obligations.MeterAndListSteps := by
  constructor
  · intro b s hs hw _ n
    rw [exec_meterReadStep hs hw]
    have hr := reply_touches b.tag 13 .ok (markByte (decide (b.remaining ≤ 8)) (b.handled + n))
      (some (BitVec.ofNat 8 b.next) :: stated (slice
        (((meterSources b).map fun n => ((takeStep s).source n).peakHold).flatMap (bytesOfNat 3)) 0 24)) (takeStep s)
    have hc := meterStep_touches b (takeStep s)
    have hlamp : flushLamps (meterStep b (takeStep s)) = meterStep b (takeStep s) :=
      flushLamps_of_touches hc hs.2.2.1
    refine ⟨_, congrArg _ hlamp, (takeStep_taken s).congr hc.lastUnit hc.unitTaken, ?_, fun i => ?_, ?_,
      (takeStep_touches s).up.trans hc.up⟩
    · refine (reply_replied b.tag 13 .ok (markByte (decide (b.remaining ≤ 8)) (b.handled + n))
        (some (BitVec.ofNat 8 b.next) :: stated (slice
          (((meterSources b).map fun n => ((takeStep s).source n).peakHold).flatMap (bytesOfNat 3)) 0 24))
        (takeStep s) (by simp)).congr rfl ?_ ?_
      · exact (Touches.foldl (l := [.sources]) (fun t n => setSource_touches _ _ _) (meterSources b) _).replies
      · simp only [markByte, stated, Result.code, BitVec.ofNat_add, List.flatMap_map]
        by_cases h : b.remaining ≤ 8 <;> simp [h, n] <;> rfl
    · refine (source_foldl_setSource (meterSources_nodup b) (fun _ r => { r with peakHold := 0 }) _ i).trans ?_
      simp only [mem_meterSources, n]
      rfl
    · change b.advance (b.next + min 8 b.remaining) (min 8 b.remaining) = _
      unfold Block.advance
      by_cases h : b.remaining ≤ 8
      · simp [h]
      · rw [Nat.min_eq_left (Nat.le_of_not_le h)]
  · intro b d place s hs hw left now
    rw [exec_routeListStep hs hw]
    obtain ⟨hf, ht, hr, hbl, hx⟩ := step_replies (tag := b.tag) (code := 8) (r := .ok)
      (mark := markByte (decide (left.length ≤ 3)) 0) (s := s)
      (l := stated (BitVec.ofNat 8 (min 255 (b.handled + now.length)) :: slice (now.flatMap entryBytes) 0 24))
      (if left.length ≤ 3 then none
        else some { b with work := .routeList d ((now.getLast?.map Entry.serial).or place),
                           handled := b.handled + now.length }) hs.2.2.1 (by simp)
    have hstep : routeListStep b d place (takeStep s) =
        reply b.tag 8 .ok (markByte (decide (left.length ≤ 3)) 0)
          (stated (BitVec.ofNat 8 (min 255 (b.handled + now.length)) :: slice (now.flatMap entryBytes) 0 24))
          ((takeStep s).withBlock (if left.length ≤ 3 then none
            else some { b with work := .routeList d ((now.getLast?.map Entry.serial).or place),
                               handled := b.handled + now.length })) := by
      have hleft : (takeStep s).entriesAfter d place = left := rfl
      unfold routeListStep routeListReply
      rw [hleft]
      simp only [decide_eq_true_eq]
      rfl
    refine ⟨_, congrArg _ (by rw [hstep]; exact hf), ht, hr.congr rfl rfl ?_, fun h => hbl.trans (if_pos h),
      fun h => ?_, hx⟩
    · rw [markByte_last]
      simp [stated, Result.code]
    · have hlen : now.length = 3 := by simp only [now, List.length_take]; omega
      obtain ⟨e, he⟩ : ∃ e, now.getLast? = some e := by
        cases hg : now.getLast? with
        | none => rw [List.getLast?_eq_none_iff] at hg; simp [hg] at hlen
        | some e => exact ⟨e, rfl⟩
      refine ⟨e, he, hbl.trans ?_⟩
      rw [if_neg (Nat.not_le.2 h), he, hlen]
      rfl

end Sys2Proof.Machine
end

section
/-! PROOF. The acceptance of the block orders (R28, R32): refused, BUSY or placed in flight; and what the check of a FILL's
values refuses is BAD_VALUE for the write of every record alike. -/

namespace Sys2Proof.Machine

/-! ## Placing a block -/

theorem order_places {tag : Byte} {o : Order} {body : State → State} {s : State} {b : Block} (hs : s.Ready tag o)
    (hbody : body (takeHead s) = placeBlock b (takeHead s)) :
    ∃ t, order tag o body s = .next t ∧ OrderTaken s t ∧ t.block = some b ∧
      Touches [.orders, .lastUnit, .unitTaken, .block] s t := by
  refine ⟨_, order_taken hs.1, ?_⟩
  rw [hbody, flushLamps_settled (s := placeBlock b (takeHead s)) hs.2.1]
  exact ⟨takeHead_taken s, rfl, (takeHead_touches s).up.trans (withBlock_touches _ (some b)).up⟩

theorem acceptBlock_free {s : State} (h : s.block = none) (b : Block) (busy : State → State) :
    acceptBlock b busy (takeHead s) = placeBlock b (takeHead s) := if_neg (by simp [takeHead, h])

theorem acceptBlock_busy {s : State} (h : s.block ≠ none) (b : Block) (busy : State → State) :
    acceptBlock b busy (takeHead s) = busy (takeHead s) :=
  if_pos (by simpa [takeHead, Option.isSome_iff_ne_none] using h)

theorem readDirection_eq_none {d : Byte} (h : 1 < d.toNat) : readDirection d = none := by
  unfold readDirection
  rw [if_neg (by rintro rfl; simp at h), if_neg (by rintro rfl; simp at h)]

/-! ## Each order's unit at its acceptance -/

theorem blockReadUnit_error {tag table : Byte} {start : BitVec 16} {mask : BitVec 32} {count : BitVec 16}
    {direction : Byte} {e : Result} (h : recordCheck table start.toNat = .error e) (s : State) :
    blockReadUnit tag table start mask count direction s =
      blockReadReply tag e true table (unstated 2) 0 noValues s := by simp [blockReadUnit, h]

theorem blockReadUnit_badValue {tag table : Byte} {start : BitVec 16} {mask : BitVec 32} {count : BitVec 16}
    {direction : Byte} {tn : TableName} (h : recordCheck table start.toNat = .ok tn)
    (hv : 1 < direction.toNat ∨ count.toNat = 0 ∨ 256 < count.toNat ∨ maskOk (tn.widths start.toNat) 20 mask = false)
    (s : State) :
    blockReadUnit tag table start mask count direction s =
      blockReadReply tag .badValue true table (unstated 2) 0 noValues s := by
  unfold blockReadUnit
  simp only [h]
  cases hd : readDirection direction with
  | none => rfl
  | some down =>
    refine if_pos ?_
    rcases hv with hv | hv | hv | hv
    · rw [readDirection_eq_none hv] at hd; cases hd
    · exact .inl (by omega)
    · exact .inr (.inl hv)
    · exact .inr (.inr (by simp [hv]))

theorem blockReadUnit_accept {tag table : Byte} {start : BitVec 16} {mask : BitVec 32} {count : BitVec 16}
    {direction : Byte} {tn : TableName} {down : Bool} (h : recordCheck table start.toNat = .ok tn)
    (hd : readDirection direction = some down) (h1 : 1 ≤ count.toNat) (h2 : count.toNat ≤ 256)
    (hm : maskOk (tn.widths start.toNat) 20 mask = true) (s : State) :
    blockReadUnit tag table start mask count direction s =
      acceptBlock
        { tag := tag, work := .blockRead tn mask down, next := start.toNat,
          remaining := cutCount start.toNat count.toNat tn.records down, handled := 0 }
        (blockReadReply tag .busy true table (unstated 2) 0 noValues) s := by
  unfold blockReadUnit
  simp only [h, hd]
  exact if_neg (by simp [hm]; omega)

theorem fillUnit_error {tag table : Byte} {start : BitVec 16} {mask : BitVec 32} {count : BitVec 16}
    {direction : Byte} {values : List Byte} {e : Result} (h : recordCheck table start.toNat = .error e) (s : State) :
    fillUnit tag table start mask count direction values s = fillReply tag e table (unstated 2) 0 s := by
  simp [fillUnit, h]

theorem fillUnit_badValue {tag table : Byte} {start : BitVec 16} {mask : BitVec 32} {count : BitVec 16}
    {direction : Byte} {values : List Byte} {tn : TableName} (h : recordCheck table start.toNat = .ok tn)
    (hv : 1 < direction.toNat ∨ count.toNat = 0 ∨ 256 < count.toNat ∨ writeMaskOk tn start.toNat 16 mask = false ∨
      valuesRefused tn start.toNat (namedValues (tn.widths start.toNat) mask values) = true) (s : State) :
    fillUnit tag table start mask count direction values s = fillReply tag .badValue table (unstated 2) 0 s := by
  unfold fillUnit
  simp only [h]
  cases hd : readDirection direction with
  | none => rfl
  | some down =>
    refine if_pos ?_
    rcases hv with hv | hv | hv | hv | hv
    · rw [readDirection_eq_none hv] at hd; cases hd
    · exact .inl (by omega)
    · exact .inr (.inl hv)
    · exact .inr (.inr (.inl (by simp [hv])))
    · exact .inr (.inr (.inr hv))

theorem fillUnit_accept {tag table : Byte} {start : BitVec 16} {mask : BitVec 32} {count : BitVec 16}
    {direction : Byte} {values : List Byte} {tn : TableName} {down : Bool} (h : recordCheck table start.toNat = .ok tn)
    (hd : readDirection direction = some down) (h1 : 1 ≤ count.toNat) (h2 : count.toNat ≤ 256)
    (hm : writeMaskOk tn start.toNat 16 mask = true)
    (hv : valuesRefused tn start.toNat (namedValues (tn.widths start.toNat) mask values) = false) (s : State) :
    fillUnit tag table start mask count direction values s =
      acceptBlock
        { tag := tag, work := .fill tn mask down values, next := start.toNat,
          remaining := cutCount start.toNat count.toNat tn.records down, handled := 0 }
        (fillReply tag .busy table (unstated 2) 0) s := by
  unfold fillUnit
  simp only [h, hd]
  exact if_neg (by simp [hm, hv]; omega)

theorem meterUnit_badValue {tag start count : Byte} (h : count.toNat = 0 ∨ 64 < count.toNat) (s : State) :
    meterUnit tag start count s = meterReply tag .badValue true 0 none [] s := if_pos (by omega)

theorem meterUnit_accept {tag start count : Byte} (h1 : 1 ≤ count.toNat) (h2 : count.toNat ≤ 64) (s : State) :
    meterUnit tag start count s =
      acceptBlock
        { tag := tag, work := .meterRead, next := start.toNat, remaining := min count.toNat (256 - start.toNat),
          handled := 0 } (meterReply tag .busy true 0 none []) s := if_neg (by omega)

/-! ## Values that no record of the table takes -/

/-- Whether a value fits its field does not depend on what the field holds. -/
theorem boolField_isNone (l : List FieldValue) (f : Nat) (a b : Bool) :
    (boolField l f a).isNone = (boolField l f b).isNone := by unfold boolField; split <;> rfl

theorem numberField_isNone (l : List FieldValue) (f a b top : Nat) :
    (numberField l f a top).isNone = (numberField l f b top).isNone := by unfold numberField; split <;> rfl

theorem indexField_isNone {n : Nat} (l : List FieldValue) (f : Nat) (a b : Fin n) :
    (indexField l f a).isNone = (indexField l f b).isNone := by unfold indexField; split <;> rfl

theorem optionalField_isNone {n : Nat} (l : List FieldValue) (f x : Nat) (a b : Option (Fin n)) :
    (optionalField l f x a).isNone = (optionalField l f x b).isNone := by unfold optionalField; split <;> rfl

theorem enumField_isNone {α : Type} (l : List FieldValue) (f : Nat) (values : List α) (a b : α) :
    (enumField l f values a).isNone = (enumField l f values b).isNone := by unfold enumField; split <;> rfl

theorem widthField_isNone (l : List FieldValue) (f : Nat) (a b : Width) :
    (widthField l f a).isNone = (widthField l f b).isNone := by unfold widthField; split <;> rfl

/-! ### Which writes a record's own fields refuse, field by field -/

theorem Port.updated_isNone (r : Port) (l : List FieldValue) :
    (r.updated l).isNone = ((boolField l 1 r.enabled).isNone || (widthField l 2 r.width).isNone) := by
  unfold Port.updated
  cases boolField l 1 r.enabled <;> cases widthField l 2 r.width <;> rfl

theorem Source.updated_isNone (r : Source) (l : List FieldValue) :
    (r.updated l).isNone = ((boolField l 0 r.enabled).isNone || (numberField l 5 r.gapCounter 65535).isNone) := by
  unfold Source.updated
  cases boolField l 0 r.enabled <;> cases numberField l 5 r.gapCounter 65535 <;> rfl

theorem Dest.updated_isNone (r : Dest) (l : List FieldValue) :
    (r.updated l).isNone = ((boolField l 0 r.enabled).isNone || (enumField l 1 destKinds r.kind).isNone ||
      (numberField l 6 r.clipCounter 65535).isNone) := by
  unfold Dest.updated
  cases boolField l 0 r.enabled <;> cases enumField l 1 destKinds r.kind <;>
    cases numberField l 6 r.clipCounter 65535 <;> rfl

theorem Station.updated_isNone (r : Station) (l : List FieldValue) :
    (r.updated l).isNone = ((enumField l 0 stationKinds r.kind).isNone || (optionalField l 1 65535 r.source).isNone ||
      (optionalField l 2 65535 r.dest).isNone) := by
  unfold Station.updated
  cases enumField l 0 stationKinds r.kind <;> cases optionalField l 1 65535 r.source <;>
    cases optionalField l 2 65535 r.dest <;> rfl

theorem Encoder.updated_isNone (e : Encoder) (l : List FieldValue) (i : Nat) :
    (e.updated l i).isNone = ((enumField l (8 + i) encoderModes e.mode).isNone ||
      (enumField l (12 + i) encoderTargets e.target).isNone) := by
  unfold Encoder.updated
  cases enumField l (8 + i) encoderModes e.mode <;> cases enumField l (12 + i) encoderTargets e.target <;> rfl

theorem Encoder.updated_isNone_congr (e e' : Encoder) (l : List FieldValue) (i : Nat) :
    (e.updated l i).isNone = (e'.updated l i).isNone := by
  rw [Encoder.updated_isNone, Encoder.updated_isNone, enumField_isNone _ _ _ e.mode e'.mode,
    enumField_isNone _ _ _ e.target e'.target]

theorem Panel.updated_isNone (r : Panel) (l : List FieldValue) :
    (r.updated l).isNone =
      ((boolField l 0 r.configured).isNone || (indexField l 1 r.port).isNone || (numberField l 2 r.node.toNat 63).isNone ||
        (indexField l 3 r.ownStation).isNone || (enumField l 4 lossPolicies r.lossPolicy).isNone ||
        (((tget r.encoders 0).updated l 0).isNone || ((tget r.encoders 1).updated l 1).isNone ||
          ((tget r.encoders 2).updated l 2).isNone || ((tget r.encoders 3).updated l 3).isNone)) := by
  unfold Panel.updated
  split
  · rename_i hc hp hn ho hpol
    rw [hc, hp, hn, ho, hpol]
    split
    · rename_i h0 h1 h2 h3
      rw [h0, h1, h2, h3]
      rfl
    · rename_i hnone
      cases h0 : (tget r.encoders 0).updated l 0 <;> cases h1 : (tget r.encoders 1).updated l 1 <;>
        cases h2 : (tget r.encoders 2).updated l 2 <;> cases h3 : (tget r.encoders 3).updated l 3 <;> try rfl
      exact absurd h3 (by simpa using hnone _ _ _ _ h0 h1 h2)
  · rename_i hnone
    cases hc : boolField l 0 r.configured <;> cases hp : indexField l 1 r.port <;>
      cases hn : numberField l 2 r.node.toNat 63 <;> cases ho : indexField l 3 r.ownStation <;>
      cases hpol : enumField l 4 lossPolicies r.lossPolicy <;> try rfl
    exact absurd hpol (by simpa using hnone _ _ _ _ _ hc hp hn ho)

theorem Key.updated_isNone (r : Key) (l : List FieldValue) :
    (r.updated l).isNone = ((enumField l 0 keyFunctions r.function).isNone || (optionalField l 1 65535 r.target).isNone ||
      (enumField l 2 keyModes r.mode).isNone || (enumField l 3 priorities r.priority).isNone) := by
  unfold Key.updated
  cases enumField l 0 keyFunctions r.function <;> cases optionalField l 1 65535 r.target <;>
    cases enumField l 2 keyModes r.mode <;> cases enumField l 3 priorities r.priority <;> rfl

theorem Party.updated_isNone (r : Party) (l : List FieldValue) :
    (r.updated l).isNone = (boolField l 0 r.enabled).isNone := by
  unfold Party.updated
  cases boolField l 0 r.enabled <;> rfl

theorem Circuit.updated_isNone (r : Circuit) (l : List FieldValue) :
    (r.updated l).isNone =
      ((boolField l 0 r.enabled).isNone || (indexField l 2 r.reporter).isNone ||
        (numberField l 3 r.gateway.toNat 63).isNone || (numberField l 6 r.upperLimit 65535).isNone ||
        (numberField l 7 r.lowerLimit 65535).isNone || (numberField l 9 r.silenceThreshold 8388608).isNone ||
        (numberField l 15 r.strayEchoes 65535).isNone) := by
  unfold Circuit.updated
  cases boolField l 0 r.enabled <;> cases indexField l 2 r.reporter <;> cases numberField l 3 r.gateway.toNat 63 <;>
    cases numberField l 6 r.upperLimit 65535 <;> cases numberField l 7 r.lowerLimit 65535 <;>
    cases numberField l 9 r.silenceThreshold 8388608 <;> cases numberField l 15 r.strayEchoes 65535 <;> rfl

theorem Tap.updated_isNone (r : Tap) (l : List FieldValue) :
    (r.updated l).isNone =
      ((boolField l 0 r.enabled).isNone || (enumField l 1 tapSides r.side).isNone ||
        (numberField l 2 r.base.toNat 255).isNone || (numberField l 3 r.mask.toNat 255).isNone ||
        (indexField l 4 r.monitor).isNone || (boolField l 6 r.forward).isNone) := by
  unfold Tap.updated
  cases boolField l 0 r.enabled <;> cases enumField l 1 tapSides r.side <;> cases numberField l 2 r.base.toNat 255 <;>
    cases numberField l 3 r.mask.toNat 255 <;> cases indexField l 4 r.monitor <;> cases boolField l 6 r.forward <;> rfl

theorem Event.updated_isNone (r : Event) (l : List FieldValue) :
    (r.updated l).isNone = ((boolField l 3 r.enable).isNone || (enumField l 4 eventRoutes r.route).isNone) := by
  unfold Event.updated
  cases boolField l 3 r.enable <;> cases enumField l 4 eventRoutes r.route <;> rfl

theorem Cadence.updated_eq_none {r : Cadence} {l : List FieldValue}
    (h : (numberField l 3 r.brightLevel 15).isNone = true ∨ (numberField l 4 r.dimLevel 15).isNone = true) :
    r.updated l = none := by
  unfold Cadence.updated
  dsimp only
  rcases h with h | h
  · rw [Option.isNone_iff_eq_none.1 h]
  · rw [Option.isNone_iff_eq_none.1 h]
    cases numberField l 3 r.brightLevel 15 <;> rfl

/-! ### The write of a record whose fields refuse the values -/

theorem writePort_of_none {x : PortId} {l : List FieldValue} {s : State} (h : ((s.port x).updated l).isNone = true) :
    writePort x l s = (s, .badValue) := by
  unfold writePort; rw [Option.isNone_iff_eq_none.1 h]

theorem writeReference_of_none {l : List FieldValue} {s : State}
    (h : (enumField l 0 refSources s.timing.selected).isNone = true) : writeReference l s = (s, .badValue) := by
  unfold writeReference; rw [Option.isNone_iff_eq_none.1 h]

theorem writeSource_of_none {n : SourceId} {l : List FieldValue} {s : State}
    (h : ((s.source n).updated l).isNone = true) : writeSource n l s = (s, .badValue) := by
  unfold writeSource; rw [Option.isNone_iff_eq_none.1 h]

theorem writeDest_of_none {d : DestId} {l : List FieldValue} {s : State} (h : ((s.dest d).updated l).isNone = true) :
    writeDest d l s = (s, .badValue) := by
  unfold writeDest; rw [Option.isNone_iff_eq_none.1 h]

theorem writeStation_of_none {t : StationId} {l : List FieldValue} {s : State}
    (h : ((s.station t).updated l).isNone = true) : writeStation t l s = (s, .badValue) := by
  unfold writeStation; rw [Option.isNone_iff_eq_none.1 h]

theorem writePanel_of_none {p : PanelId} {l : List FieldValue} {s : State}
    (h : ((s.panel p).updated l).isNone = true) : writePanel p l s = (s, .badValue) := by
  unfold writePanel; rw [Option.isNone_iff_eq_none.1 h]

theorem writeKey_of_none {k : KeyId} {l : List FieldValue} {s : State} (h : ((s.key k).updated l).isNone = true) :
    writeKey k l s = (s, .badValue) := by
  unfold writeKey; rw [Option.isNone_iff_eq_none.1 h]

theorem writeParty_of_none {p : PartyId} {l : List FieldValue} {s : State} (h : ((s.party p).updated l).isNone = true) :
    writeParty p l s = (s, .badValue) := by
  unfold writeParty; rw [Option.isNone_iff_eq_none.1 h]

theorem writeCircuit_of_none {c : CircuitId} {l : List FieldValue} {s : State}
    (h : ((s.circuit c).updated l).isNone = true) : writeCircuit c l s = (s, .badValue) := by
  unfold writeCircuit; rw [Option.isNone_iff_eq_none.1 h]

theorem writeTap_of_none {t : TapId} {l : List FieldValue} {s : State} (h : ((s.tap t).updated l).isNone = true) :
    writeTap t l s = (s, .badValue) := by
  unfold writeTap; rw [Option.isNone_iff_eq_none.1 h]

theorem writeCadence_of_none {c : CadenceId} {l : List FieldValue} {s : State} (h : (s.cadence c).updated l = none) :
    writeCadence c l s = (s, .badValue) := by
  unfold writeCadence; rw [h]

theorem writeEvent_of_none {k : Fin 15} {l : List FieldValue} {s : State}
    (h : ((tget s.events k).updated l).isNone = true) : writeEvent k l s = (s, .badValue) := by
  unfold writeEvent; rw [Option.isNone_iff_eq_none.1 h]

theorem atIndex_of_lt {n i : Nat} (h : i < n) (w : Fin n → State → Written) (s : State) : atIndex n i w s = w ⟨i, h⟩ s := by
  simp [atIndex, indexIn, h]

theorem fieldsRefused_badValue {tn : TableName} {i j : Nat} {l : List FieldValue} {s : State} (hj : j < tn.records)
    (hport : tn = .port → (i = 4 ↔ j = 4)) (h : fieldsRefused tn i l = true) :
    writeRecord tn j l s = (s, .badValue) := by
  cases tn <;> simp only [fieldsRefused] at h <;> simp only [writeRecord, TableName.records] at hj ⊢
  case port =>
    by_cases hi : i = 4
    · rw [if_pos hi] at h
      rw [if_pos ((hport rfl).1 hi)]
      exact writeReference_of_none ((enumField_isNone _ _ _ _ _).trans h)
    · have hj4 : j ≠ 4 := fun e => hi ((hport rfl).2 e)
      rw [if_neg hi, Port.updated_isNone] at h
      rw [if_neg hj4, atIndex_of_lt (show j < 4 by omega)]
      refine writePort_of_none ?_
      rw [Port.updated_isNone, boolField_isNone _ _ _ (Port.reset false).enabled,
        widthField_isNone _ _ _ (Port.reset false).width, h]
  case source =>
    rw [atIndex_of_lt hj]
    refine writeSource_of_none ?_
    rw [Source.updated_isNone] at h ⊢
    rw [boolField_isNone _ _ _ Source.reset.enabled, numberField_isNone _ _ _ Source.reset.gapCounter, h]
  case destination =>
    rw [atIndex_of_lt hj]
    refine writeDest_of_none ?_
    rw [Dest.updated_isNone] at h ⊢
    rw [boolField_isNone _ _ _ Dest.reset.enabled, enumField_isNone _ _ _ _ Dest.reset.kind,
      numberField_isNone _ _ _ Dest.reset.clipCounter, h]
  case station =>
    rw [atIndex_of_lt hj]
    refine writeStation_of_none ?_
    rw [Station.updated_isNone] at h ⊢
    rw [enumField_isNone _ _ _ _ Station.reset.kind, optionalField_isNone _ 1 _ _ Station.reset.source,
      optionalField_isNone _ 2 _ _ Station.reset.dest, h]
  case panel =>
    rw [atIndex_of_lt hj]
    refine writePanel_of_none ?_
    rw [Panel.updated_isNone] at h ⊢
    rw [boolField_isNone _ _ _ Panel.reset.configured, indexField_isNone _ 1 _ Panel.reset.port,
      numberField_isNone _ _ _ Panel.reset.node.toNat, indexField_isNone _ 3 _ Panel.reset.ownStation,
      enumField_isNone _ _ _ _ Panel.reset.lossPolicy, Encoder.updated_isNone_congr _ (tget Panel.reset.encoders 0) _ 0,
      Encoder.updated_isNone_congr _ (tget Panel.reset.encoders 1) _ 1,
      Encoder.updated_isNone_congr _ (tget Panel.reset.encoders 2) _ 2,
      Encoder.updated_isNone_congr _ (tget Panel.reset.encoders 3) _ 3, h]
  case key =>
    rw [atIndex_of_lt hj]
    refine writeKey_of_none ?_
    rw [Key.updated_isNone] at h ⊢
    rw [enumField_isNone _ _ _ _ Key.reset.function, optionalField_isNone _ _ _ _ Key.reset.target,
      enumField_isNone _ _ _ _ Key.reset.mode, enumField_isNone _ _ _ _ Key.reset.priority, h]
  case party =>
    rw [atIndex_of_lt hj]
    refine writeParty_of_none ?_
    rw [Party.updated_isNone] at h ⊢
    rw [boolField_isNone _ _ _ Party.reset.enabled, h]
  case circuit =>
    rw [atIndex_of_lt hj]
    refine writeCircuit_of_none ?_
    rw [Circuit.updated_isNone] at h ⊢
    rw [boolField_isNone _ _ _ (Circuit.reset 0).enabled, indexField_isNone _ _ _ (Circuit.reset 0).reporter,
      numberField_isNone _ 3 _ (Circuit.reset 0).gateway.toNat, numberField_isNone _ 6 _ (Circuit.reset 0).upperLimit,
      numberField_isNone _ 7 _ (Circuit.reset 0).lowerLimit, numberField_isNone _ 9 _ (Circuit.reset 0).silenceThreshold,
      numberField_isNone _ 15 _ (Circuit.reset 0).strayEchoes, h]
  case tap =>
    rw [atIndex_of_lt hj]
    refine writeTap_of_none ?_
    rw [Tap.updated_isNone] at h ⊢
    rw [boolField_isNone _ 0 _ Tap.reset.enabled, enumField_isNone _ _ _ _ Tap.reset.side,
      numberField_isNone _ 2 _ Tap.reset.base.toNat, numberField_isNone _ 3 _ Tap.reset.mask.toNat,
      indexField_isNone _ _ _ Tap.reset.monitor, boolField_isNone _ 6 _ Tap.reset.forward, h]
  case cadence =>
    rw [atIndex_of_lt hj]
    refine writeCadence_of_none (Cadence.updated_eq_none ?_)
    rw [numberField_isNone _ _ _ 0, numberField_isNone _ 4 _ 0]
    simpa using h
  case event =>
    rw [atIndex_of_lt hj]
    refine writeEvent_of_none ?_
    rw [Event.updated_isNone] at h ⊢
    rw [boolField_isNone _ _ _ (Event.reset true .notice).enable, enumField_isNone _ _ _ _ (Event.reset true .notice).route, h]

/-! ### Limits between two fields -/

theorem lookup_of_names {l : List FieldValue} {f : Nat} (h : names l f = true) : ∃ v, l.lookup f = some v := by
  cases hl : l.lookup f with
  | some v => exact ⟨v, rfl⟩
  | none =>
    rw [List.lookup_eq_none_iff] at hl
    obtain ⟨x, hx, hf⟩ := List.any_eq_true.1 h
    have := hl x hx
    simp only [beq_iff_eq, bne_iff_ne] at hf this
    exact absurd hf.symm this

theorem levelField_of_names {l : List FieldValue} {f : Nat} (h : names l f = true) (a b : Level) :
    levelField l f a = levelField l f b := by
  obtain ⟨v, hv⟩ := lookup_of_names h
  simp [levelField, hv]

theorem Encoder.updated_limits {e e' : Encoder} {l : List FieldValue} {i : Nat} (h : e.updated l i = some e') :
    e'.minimum = levelField l (16 + i) e.minimum ∧ e'.maximum = levelField l (20 + i) e.maximum := by
  unfold Encoder.updated at h
  split at h
  · cases h; exact ⟨rfl, rfl⟩
  · cases h

theorem Panel.updated_encoders {r r' : Panel} {l : List FieldValue} (h : r.updated l = some r') (i : Fin 4) :
    (tget r.encoders i).updated l i.val = some (tget r'.encoders i) := by
  unfold Panel.updated at h
  split at h
  · split at h
    · rename_i h0 h1 h2 h3
      cases h
      fin_cases i
      · exact h0
      · exact h1
      · exact h2
      · exact h3
    · cases h
  · cases h

/-- What each field of an accepted circuit write takes. -/
theorem Circuit.updated_fields {r r' : Circuit} {l : List FieldValue} (h : r.updated l = some r') :
    boolField l 0 r.enabled = some r'.enabled ∧ indexField l 2 r.reporter = some r'.reporter ∧
      (∃ g, numberField l 3 r.gateway.toNat 63 = some g ∧ r'.gateway = BitVec.ofNat 6 g) ∧
      numberField l 6 r.upperLimit 65535 = some r'.upperLimit ∧
      numberField l 7 r.lowerLimit 65535 = some r'.lowerLimit ∧
      numberField l 9 r.silenceThreshold 8388608 = some r'.silenceThreshold ∧
      numberField l 15 r.strayEchoes 65535 = some r'.strayEchoes ∧
      r' = { r with
               enabled := r'.enabled, reporter := r'.reporter, gateway := r'.gateway
               probeInterval := timeField l 4 r.probeInterval 1 100 5000
               probeTimeout := timeField l 5 r.probeTimeout 1 200 1365
               upperLimit := r'.upperLimit, lowerLimit := r'.lowerLimit, degradeCode := levelField l 8 r.degradeCode
               silenceThreshold := r'.silenceThreshold, silenceTime := timeField l 10 r.silenceTime 1 1000 60000
               strayEchoes := r'.strayEchoes } := by
  unfold Circuit.updated at h
  split at h
  · rename_i h0 h2 h3 h6 h7 h9 h15
    cases h
    exact ⟨h0, h2, ⟨_, h3, rfl⟩, h6, h7, h9, h15, rfl⟩
  · cases h

/-- What each field of an accepted key write takes. -/
theorem Key.updated_fields {r r' : Key} {l : List FieldValue} (h : r.updated l = some r') :
    enumField l 0 keyFunctions r.function = some r'.function ∧ optionalField l 1 65535 r.target = some r'.target ∧
      enumField l 2 keyModes r.mode = some r'.mode ∧ enumField l 3 priorities r.priority = some r'.priority ∧
      r' = { r with function := r'.function, target := r'.target, mode := r'.mode, priority := r'.priority,
                    talkLevel := levelField l 4 r.talkLevel } := by
  unfold Key.updated at h
  split at h
  · rename_i h0 h1 h2 h3
    cases h
    exact ⟨h0, h1, h2, h3, rfl⟩
  · cases h

theorem Key.targetOk_congr {r q : Key} (hf : r.function = q.function) (ht : r.target = q.target) :
    r.targetOk = q.targetOk := by simp [Key.targetOk, hf, ht]

theorem limitsRefused_badValue {tn : TableName} {j : Nat} {l : List FieldValue} {s : State} (hj : j < tn.records)
    (hc : ∀ c, (s.circuit c).upperLimit ≤ 65535) (h : limitsRefused tn l = true) :
    writeRecord tn j l s = (s, .badValue) := by
  cases tn <;> simp only [limitsRefused, Bool.false_eq_true] at h <;>
    simp only [writeRecord, TableName.records] at hj ⊢
  case panel =>
    rw [atIndex_of_lt hj]
    obtain ⟨i, hi, h⟩ := List.any_eq_true.1 h
    simp only [List.mem_range] at hi
    simp only [Bool.and_eq_true, decide_eq_true_eq] at h
    obtain ⟨⟨hmin, hmax⟩, hlt⟩ := h
    cases hu : (s.panel ⟨j, hj⟩).updated l with
    | none => exact writePanel_of_none (by rw [hu]; rfl)
    | some r =>
      obtain ⟨h1, h2⟩ := Encoder.updated_limits (Panel.updated_encoders hu ⟨i, hi⟩)
      have hcross : r.encoders.toList.any (fun e => decide (e.maximum < e.minimum)) = true := by
        rw [encoders_toList, List.any_eq_true]
        refine ⟨tget r.encoders ⟨i, hi⟩, List.mem_map.2 ⟨_, List.mem_finRange _, rfl⟩, decide_eq_true ?_⟩
        rw [h1, h2, levelField_of_names hmin _ 0, levelField_of_names hmax _ 0]
        exact hlt
      unfold writePanel
      simp [hu, State.panelCheck, hcross]
  case circuit =>
    rw [atIndex_of_lt hj]
    cases hu : (s.circuit ⟨j, hj⟩).updated l with
    | none => exact writeCircuit_of_none (by rw [hu]; rfl)
    | some r =>
      have hle : r.upperLimit ≤ r.lowerLimit := by
        have hold := hc ⟨j, hj⟩
        obtain ⟨_, _, _, h6, h7, _⟩ := Circuit.updated_fields hu
        have h := of_decide_eq_true h
        unfold numberField at h6 h7
        cases hl6 : l.lookup 6 <;> cases hl7 : l.lookup 7 <;> simp only [hl6, hl7, Option.getD] at h h6 h7
        · omega
        · split at h7 <;> simp only [Option.some.injEq, reduceCtorEq] at h6 h7
          omega
        · split at h6 <;> simp only [Option.some.injEq, reduceCtorEq] at h6 h7
          omega
        · split at h6 <;> split at h7 <;> simp only [Option.some.injEq, reduceCtorEq] at h6 h7
          omega
      unfold writeCircuit
      simp [hu, State.circuitCheck, hle]
  case key =>
    rw [atIndex_of_lt hj]
    simp only [Bool.and_eq_true] at h
    obtain ⟨⟨h0, h1⟩, h⟩ := h
    cases hu : (s.key ⟨j, hj⟩).updated l with
    | none => exact writeKey_of_none (by rw [hu]; rfl)
    | some r =>
      have hr : r.targetOk = false := by
        obtain ⟨v0, hv0⟩ := lookup_of_names h0
        obtain ⟨v1, hv1⟩ := lookup_of_names h1
        cases hq : Key.reset.updated l with
        | none => rw [hq] at h; cases h
        | some q =>
          have hbad : q.targetOk = false := by simpa [hq] using h
          obtain ⟨hf, ht, _⟩ := Key.updated_fields hu
          obtain ⟨hf', ht', _⟩ := Key.updated_fields hq
          simp only [enumField, optionalField, hv0, hv1] at hf ht hf' ht'
          rw [← hbad]
          exact Key.targetOk_congr (Option.some.inj (hf.symm.trans hf')) (Option.some.inj (ht.symm.trans ht'))
      unfold writeKey
      simp [hu, hr]

/-! ## The acceptance of the block orders -/

/-- Settles O25: each order's unit at its acceptance is one refusal, or it places the block or is BUSY; the check of FILL's
values refuses what every record's write refuses. -/
theorem blockOrdersPlaced : Obligations.BlockOrdersPlaced := by
  refine ⟨?_, fun tn i j l s _ hj hport hc h => ?_⟩
  · intro tag table start mask count direction values first n dest tn down s placed refused span layout meterLayout read
      fill named
    have hread : ∀ r, s.Ready tag (.blockRead table start mask count direction) →
        blockReadUnit tag table start mask count direction (takeHead s) =
          blockReadReply tag r true table (unstated 2) 0 noValues (takeHead s) → refused read (layout 3 r) := by
      intro r hs hu
      obtain ⟨t, ht, ha⟩ := order_replies hs hu (by simp)
      exact ⟨t, ht, ha.layout (by simp [layout, stated, markByte_final, noValues, bytesOfNat])⟩
    have hfill : ∀ r, s.Ready tag (.fill table start mask count direction values) →
        fillUnit tag table start mask count direction values (takeHead s) =
          fillReply tag r table (unstated 2) 0 (takeHead s) → refused fill (layout 4 r) := by
      intro r hs hu
      obtain ⟨t, ht, ha⟩ := order_replies hs hu (by simp)
      exact ⟨t, ht, ha.layout (by simp [layout, stated, markByte_final, bytesOfNat])⟩
    have hmeter : ∀ r, s.Ready tag (.meterRead first n) →
        meterUnit tag first n (takeHead s) = meterReply tag r true 0 none [] (takeHead s) →
        refused (.meterRead tag first n) (meterLayout r) := by
      intro r hs hu
      obtain ⟨t, ht, ha⟩ := order_replies hs hu (by simp)
      exact ⟨t, ht, ha.layout (by simp [meterLayout, stated, markByte_final, unstated, slice_nil])⟩
    refine ⟨fun hs => ⟨fun ht => hread _ hs (blockReadUnit_error (recordCheck_table ht _) _), fun ht =>
        ⟨fun hi => hread _ hs (blockReadUnit_error (recordCheck_index ht hi) _), fun hi => ?_⟩⟩,
      fun hs => ⟨fun ht => hfill _ hs (fillUnit_error (recordCheck_table ht _) _), fun ht =>
        ⟨fun hi => hfill _ hs (fillUnit_error (recordCheck_index ht hi) _), fun hi => ?_⟩⟩,
      fun hs => ⟨fun hv => hmeter _ hs (meterUnit_badValue hv _), fun h1 h2 => ?_⟩, fun hs => ?_⟩
    · have hok := recordCheck_ok ht hi
      refine ⟨fun hv => hread _ hs (blockReadUnit_badValue hok hv _), fun hd h1 h2 hm => ?_⟩
      have hacc := blockReadUnit_accept (tag := tag) hok hd h1 h2 hm (takeHead s)
      exact ⟨fun hb => order_places hs (hacc.trans (acceptBlock_free hb _ _)),
        fun hb => hread _ hs (hacc.trans (acceptBlock_busy hb _ _))⟩
    · have hok := recordCheck_ok ht hi
      refine ⟨fun hv => hfill _ hs (fillUnit_badValue hok hv _), fun hd h1 h2 hm hv => ?_⟩
      have hacc := fillUnit_accept (tag := tag) hok hd h1 h2 hm hv (takeHead s)
      exact ⟨fun hb => order_places hs (hacc.trans (acceptBlock_free hb _ _)),
        fun hb => hfill _ hs (hacc.trans (acceptBlock_busy hb _ _))⟩
    · have hacc := meterUnit_accept (tag := tag) (start := first) h1 h2 (takeHead s)
      exact ⟨fun hb => order_places hs (hacc.trans (acceptBlock_free hb _ _)),
        fun hb => hmeter _ hs (hacc.trans (acceptBlock_busy hb _ _))⟩
    · refine ⟨fun hb => order_places hs (acceptBlock_free hb _ _), fun hb => ?_⟩
      obtain ⟨t, ht, ha⟩ := order_replies hs (acceptBlock_busy hb _ (routeListReply tag .busy true 0 [])) (by simp)
      exact ⟨t, ht, ha.layout (by simp [stated, markByte_final, slice_nil, Result.code])⟩
  · rw [valuesRefused, Bool.or_eq_true] at h
    exact h.elim (fieldsRefused_badValue hj hport) (limitsRefused_badValue hj hc)

end Sys2Proof.Machine
end

section
/-! PROOF. The route orders (R37, R73 to R75), STATUS_READ and STATUS_CLEAR (R198), RESTART and the unlisted codes (R39,
R28). -/

namespace Sys2Proof.Machine

/-! ## An order that works and then replies -/

/-- An order's unit that ends in its reply, on the state u its work leaves: the answer, and what of u still moves. -/
theorem order_works {tag c mark : Byte} {o : Order} {r : Result} {rest : List (Option Byte)} {body : State → State}
    {s u : State} {l : List Fld} (hs : s.Ready tag o) (hbody : body (takeHead s) = reply tag c r mark rest u)
    (hu : Touches (.lampDirty :: l) (takeHead s) u) (hkept : UnitKept (takeHead s) u) (hlen : rest.length ≤ 25) :
    ∃ t, order tag o body s = .next t ∧ Answered s t tag (stated [c, r.code, mark] ++ rest) (.panels :: l) ∧
      Touches [.replies, .draws, .panels, .lampDirty] u t ∧ PanelsButLamps u t := by
  refine ⟨_, order_taken hs.1, ?_, ?_, ?_⟩
  · rw [hbody]
    exact answered_of_work hs (hu.mono (by simp +contextual)) (by simp)
      ⟨hkept.orders, hkept.lastUnit, hkept.unitTaken, hkept.replies⟩ hlen
  · rw [hbody]
    exact (reply_touches _ _ _ _ _ _).up.trans (flushLamps_touches _).up
  · rw [hbody]
    exact .trans (.of_panels rfl) (flushLamps_panels _)

/-- The same for work that hands no key to the lamp unit: then no lamp moves either. -/
theorem order_works_quiet {tag c mark : Byte} {o : Order} {r : Result} {rest : List (Option Byte)}
    {body : State → State} {s u : State} {l : List Fld} (hs : s.Ready tag o)
    (hbody : body (takeHead s) = reply tag c r mark rest u) (hu : Touches l (takeHead s) u) (hd : .lampDirty ∉ l)
    (hkept : UnitKept (takeHead s) u) (hlen : rest.length ≤ 25) :
    ∃ t, order tag o body s = .next t ∧ Answered s t tag (stated [c, r.code, mark] ++ rest) l ∧
      Touches [.replies, .draws] u t := by
  obtain ⟨hflush, hans⟩ := answered_of_quiet_work (c := c) (mark := mark) (r := r) (rest := rest) hs hu hd
    ⟨hkept.orders, hkept.lastUnit, hkept.unitTaken, hkept.replies⟩ hlen
  refine ⟨_, order_taken hs.1, ?_⟩
  rw [hbody, hflush]
  exact ⟨hans, reply_touches _ _ _ _ _ _⟩

/-! ## How many routes an order carries -/

/-- The number of routes an order names. -/
def Order.routeCount : Order → Nat
  | .routeAdd _ l => l.length
  | .routeRemove _ l => l.length
  | .routeNudge _ _ _ l => l.length
  | _ => 0

theorem routeCount_le (c : Byte) : routeCount c ≤ 6 := by unfold routeCount; split <;> omega

theorem readOrder_routeCount_le (b : List Byte) : (readOrder b).routeCount ≤ 6 := by
  unfold readOrder
  split <;> simp [Order.routeCount, readRoutes, readPairs, routeCount_le]

theorem Ready_routeCount_le {s : State} {tag : Byte} {o : Order} (hs : s.Ready tag o) : o.routeCount ≤ 6 := by
  obtain ⟨hr, _⟩ := hs
  simp only [State.orderReady, Bool.and_eq_true, State.headIs] at hr
  obtain ⟨⟨_, hh⟩, _⟩ := hr
  split at hh
  · simp only [Bool.and_eq_true, beq_iff_eq] at hh
    rw [← hh.2]
    exact readOrder_routeCount_le _
  · cases hh

theorem eachRoute_length {α β : Type} (f : α → State → State × β) (l : List α) (s : State) :
    (eachRoute f l s).2.length = l.length := by
  induction l generalizing s with
  | nil => rfl
  | cons x l ih => simp [eachRoute, ih]

theorem nudgeRoute_touches_entries (down : Bool) (c : Nat) (r : PairArg) (s : State) :
    Touches [.entries] s (nudgeRoute down c r s).1 := by
  unfold nudgeRoute
  dsimp only
  split
  · exact .refl _ _
  · split
    · exact writeEntryLevel_touches _ _ _ _
    · exact .refl _ _

/-- Settles O28: each unit is `eachRoute` of its route's work and one reply. -/
theorem routeOrdersAnswer : Obligations.RouteOrdersAnswer := by
  intro tag count direction stepCode routes pairs down s added removed nudged
  refine ⟨fun hs => ⟨fun hc => ?_, fun hc => ?_⟩, fun hs => ⟨fun hc => ?_, fun hc => ?_⟩, fun hs hd =>
    ⟨fun hc hk hl => ?_, fun hc hk => ?_, fun hc => ?_⟩⟩
  · have htouch : Touches arriveFields (takeHead s) added.1 :=
      eachRoute_touches _ _ (fun x t => addRoute_touches x t) _ _
    have hlen : routes.length ≤ 6 := Ready_routeCount_le hs
    obtain ⟨t, ht, ha, hu, hp⟩ := order_works (c := 5) (r := .ok) (mark := markByte true 0)
      (rest := stated (count :: added.2.map Result.code)) (body := routeAddUnit tag count routes) hs
      (if_pos hc) (htouch.up (m := .lampDirty :: arriveFields)) htouch.unitKept (by simp [added, eachRoute_length]; omega)
    exact ⟨t, ht, ha.layout (by simp [stated, markByte_final, Result.code]), hu.entries,
      .trans (.of_panels htouch.panels) hp⟩
  · obtain ⟨t, ht, ha⟩ := order_replies (c := 5) (mark := markByte true 0) (body := routeAddUnit tag count routes) hs
      (if_neg (by simp [hc])) (by simp)
    exact ⟨t, ht, ha.layout (by simp [stated, markByte_final, Result.code])⟩
  · have htouch : Touches arriveFields (takeHead s) removed.1 :=
      eachRoute_touches _ _ (fun x t => removeRoute_touches x t) _ _
    have hlen : pairs.length ≤ 6 := Ready_routeCount_le hs
    obtain ⟨t, ht, ha, hu, hp⟩ := order_works (c := 6) (r := .ok) (mark := markByte true 0)
      (rest := stated (count :: removed.2.map Result.code)) (body := routeRemoveUnit tag count pairs) hs
      (if_pos hc) (htouch.up (m := .lampDirty :: arriveFields)) htouch.unitKept (by simp [removed, eachRoute_length]; omega)
    exact ⟨t, ht, ha.layout (by simp [stated, markByte_final, Result.code]), hu.entries,
      .trans (.of_panels htouch.panels) hp⟩
  · obtain ⟨t, ht, ha⟩ := order_replies (c := 6) (mark := markByte true 0) (body := routeRemoveUnit tag count pairs) hs
      (if_neg (by simp [hc])) (by simp)
    exact ⟨t, ht, ha.layout (by simp [stated, markByte_final, Result.code])⟩
  · have htouch : Touches [.entries] (takeHead s) nudged.1 :=
      eachRoute_touches _ _ (fun x t => nudgeRoute_touches_entries _ _ x t) _ _
    have hn : nudged.2.length = pairs.length := eachRoute_length _ _ _
    obtain ⟨t, ht, ha, hu⟩ := order_works_quiet (c := 7) (r := .ok) (mark := markByte true 0)
      (rest := stated (count :: nudged.2.map fun x => x.1.code) ++ unstated (6 - nudged.2.length) ++
        stated (nudged.2.map fun x => BitVec.ofNat 8 x.2)) (body := routeNudgeUnit tag count direction stepCode pairs) hs
      (by simp only [routeNudgeUnit, hd, hc, hk, if_true]; rfl) htouch (by decide) htouch.unitKept (by simp; omega)
    exact ⟨t, ht, ha.layout (by rw [hn]; simp [stated, markByte_final, Result.code]), hu.entries⟩
  · have hlen : pairs.length ≤ 6 := Ready_routeCount_le hs
    obtain ⟨t, ht, ha⟩ := order_replies (c := 7) (r := .ok) (mark := markByte true 0)
      (rest := stated (count :: pairs.map fun _ => Result.badValue.code) ++ unstated (6 - pairs.length) ++
        stated (pairs.map fun _ => 0)) (body := routeNudgeUnit tag count direction stepCode pairs) hs
      (by simp [routeNudgeUnit, hd, hc, Nat.not_le.2 hk, Order.code]) (by simp; omega)
    exact ⟨t, ht, ha.layout (by simp [stated, markByte_final, Result.code])⟩
  · obtain ⟨t, ht, ha⟩ := order_replies (c := 7) (r := .badValue) (mark := markByte true 0)
      (rest := stated [count] ++ unstated 24) (body := routeNudgeUnit tag count direction stepCode pairs) hs
      (by simp [routeNudgeUnit, hd, hc, routeRefused, Order.code]) (by simp)
    exact ⟨t, ht, ha.layout (by simp [stated, markByte_final, Result.code])⟩

end Sys2Proof.Machine
end

section
/-! PROOF. The rules of the crosspoint store: which entry a pair has after each move (R61 to R66), and that every move keeps
the store's form. -/

namespace Sys2Proof.Machine

/-! ## Reading the store -/

theorem State.entriesOf_congr {s t : State} (h : t.entries = s.entries) (d : DestId) : t.entriesOf d = s.entriesOf d := by
  simp [State.entriesOf, h]

theorem State.findEntry_congr {s t : State} (h : t.entries = s.entries) (src : SourceId) (d : DestId) :
    t.findEntry src d = s.findEntry src d := by simp [State.findEntry, State.entriesOf_congr h]

theorem State.mem_of_findEntry {s : State} {src : SourceId} {d : DestId} {e : Entry} (h : s.findEntry src d = some e) :
    e ∈ s.entriesOf d ∧ e.source = src :=
  ⟨List.mem_of_find?_eq_some h, by simpa using List.find?_some h⟩

theorem State.findEntry_eq_none {s : State} {src : SourceId} {d : DestId} :
    s.findEntry src d = none ↔ ∀ e ∈ s.entriesOf d, e.source ≠ src := by
  simp [State.findEntry]

/-- A list with one entry to a source has it as the entry of its pair. -/
theorem State.findEntry_of_mem {s : State} {d : DestId} {e : Entry} (hn : ((s.entriesOf d).map Entry.source).Nodup)
    (he : e ∈ s.entriesOf d) : s.findEntry e.source d = some e := by
  cases hf : s.findEntry e.source d with
  | none => exact absurd rfl (State.findEntry_eq_none.1 hf e he)
  | some x =>
    obtain ⟨hx, hxs⟩ := State.mem_of_findEntry hf
    rw [List.inj_on_of_nodup_map hn hx he hxs]

theorem StoreInv.nodup {s : State} (h : StoreInv s) (d : DestId) : ((s.entriesOf d).map Entry.source).Nodup := (h d).1.1

theorem StoreInv.findEntry_iff {s : State} (h : StoreInv s) {src : SourceId} {d : DestId} {e : Entry} :
    s.findEntry src d = some e ↔ e ∈ s.entriesOf d ∧ e.source = src :=
  ⟨State.mem_of_findEntry, fun ⟨he, hs⟩ => hs ▸ State.findEntry_of_mem (h.nodup d) he⟩

/-! ## One entry rewritten -/

theorem State.entriesOf_mapEntry (s : State) (a : SourceId) (d : DestId) (f : Entry → Entry) (j : DestId) :
    (s.mapEntry a d f).entriesOf j =
      if j = d then (s.entriesOf d).map fun e => if e.source == a then f e else e else s.entriesOf j := by
  unfold State.mapEntry
  rw [State.entriesOf_setEntries]

theorem State.findEntry_mapEntry {f : Entry → Entry} (hf : ∀ e, (f e).source = e.source) (s : State) (a : SourceId)
    (d : DestId) (n : SourceId) (j : DestId) :
    (s.mapEntry a d f).findEntry n j =
      if j = d ∧ n = a then (s.findEntry n j).map f else s.findEntry n j := by
  unfold State.findEntry
  rw [State.entriesOf_mapEntry]
  by_cases hj : j = d
  · subst hj
    have hsrc : ∀ e : Entry, (if e.source == a then f e else e).source = e.source := fun e => by split <;> simp [hf]
    simp only [if_true, true_and, List.find?_map, Function.comp_def, hsrc]
    cases hx : (s.entriesOf j).find? fun e => e.source == n with
    | none => simp
    | some e =>
      have hen : e.source = n := by simpa using List.find?_some hx
      by_cases hn : n = a
      · simp [hen, hn]
      · simp [hen, hn]
  · simp [hj]

/-- What a holder's arrival, departure or level makes of an entry leaves its pair and its place. -/
@[simp] theorem Entry.joined_source (e : Entry) (h : Holder) (l : Level) (c : EntryClass) :
    (e.joined h l c).source = e.source := by cases h <;> rfl
@[simp] theorem Entry.joined_dest (e : Entry) (h : Holder) (l : Level) (c : EntryClass) :
    (e.joined h l c).dest = e.dest := by cases h <;> rfl
@[simp] theorem Entry.joined_serial (e : Entry) (h : Holder) (l : Level) (c : EntryClass) :
    (e.joined h l c).serial = e.serial := by cases h <;> rfl
@[simp] theorem Entry.joined_state (e : Entry) (h : Holder) (l : Level) (c : EntryClass) :
    (e.joined h l c).state = .active := by cases h <;> rfl
@[simp] theorem Entry.joined_applied (e : Entry) (h : Holder) (l : Level) (c : EntryClass) :
    (e.joined h l c).applied = e.applied := by cases h <;> rfl
/-- A departure takes the holder out and, with none left, makes the entry RELEASING. -/
theorem Entry.left_eq (e : Entry) (h : Holder) :
    e.left h = { e.withoutHolder h with state := if (e.withoutHolder h).held then e.state else .releasing } := by
  unfold Entry.left
  dsimp only
  by_cases hh : (e.withoutHolder h).held = true
  · rw [if_pos hh, if_pos hh]; cases h <;> rfl
  · rw [if_neg hh, if_neg hh]
@[simp] theorem Entry.left_source (e : Entry) (h : Holder) : (e.left h).source = e.source := by
  rw [Entry.left_eq]; cases h <;> rfl
@[simp] theorem Entry.left_dest (e : Entry) (h : Holder) : (e.left h).dest = e.dest := by
  rw [Entry.left_eq]; cases h <;> rfl
@[simp] theorem Entry.left_serial (e : Entry) (h : Holder) : (e.left h).serial = e.serial := by
  rw [Entry.left_eq]; cases h <;> rfl
@[simp] theorem Entry.left_level (e : Entry) (h : Holder) : (e.left h).level = e.level := by
  rw [Entry.left_eq]; cases h <;> rfl
@[simp] theorem Entry.left_cls (e : Entry) (h : Holder) : (e.left h).cls = e.cls := by
  rw [Entry.left_eq]; cases h <;> rfl
@[simp] theorem Entry.left_applied (e : Entry) (h : Holder) : (e.left h).applied = e.applied := by
  rw [Entry.left_eq]; cases h <;> rfl

theorem Entry.holds_withHolder (e : Entry) (h g : Holder) :
    (e.withHolder h).holds g = (decide (g = h) || e.holds g) := by
  cases h <;> cases g <;> simp [Entry.withHolder, Entry.holds, Bool.or_comm, List.contains_eq_mem, eq_comm]

theorem Entry.holds_withoutHolder (e : Entry) (h g : Holder) :
    (e.withoutHolder h).holds g = (decide (g ≠ h) && e.holds g) := by
  cases h <;> cases g <;> simp [Entry.withoutHolder, Entry.holds, Bool.and_comm, List.contains_eq_mem]

theorem Entry.holds_joined (e : Entry) (h g : Holder) (l : Level) (c : EntryClass) :
    (e.joined h l c).holds g = (decide (g = h) || e.holds g) := by
  rw [← Entry.holds_withHolder]
  cases h <;> cases g <;> rfl

theorem Entry.holds_left (e : Entry) (h g : Holder) : (e.left h).holds g = (decide (g ≠ h) && e.holds g) := by
  rw [← Entry.holds_withoutHolder, Entry.left_eq]
  cases g <;> rfl

/-- An entry with a holder is held; one without any is not. -/
theorem Entry.held_iff (e : Entry) : e.held = true ↔ ∃ h, e.holds h = true := by
  simp only [Entry.held, Bool.or_eq_true, Bool.not_eq_true', List.isEmpty_eq_false_iff_exists_mem]
  constructor
  · rintro (((h | ⟨k, h⟩) | ⟨p, h⟩) | ⟨t, h⟩)
    · exact ⟨.static, h⟩
    · exact ⟨.grant k, by simpa [Entry.holds] using h⟩
    · exact ⟨.party p, by simpa [Entry.holds] using h⟩
    · exact ⟨.tap t, by simpa [Entry.holds] using h⟩
  · rintro ⟨h, hh⟩
    cases h with
    | static => exact .inl (.inl (.inl hh))
    | grant k => exact .inl (.inl (.inr ⟨k, by simpa [Entry.holds] using hh⟩))
    | party p => exact .inl (.inr ⟨p, by simpa [Entry.holds] using hh⟩)
    | tap t => exact .inr ⟨t, by simpa [Entry.holds] using hh⟩

theorem Entry.left_held (e : Entry) (h : Holder) : (e.left h).held = (e.withoutHolder h).held := by
  rw [Entry.left_eq]; rfl

/-- A departure leaves the entry's state with another holder, and RELEASING without. -/
theorem Entry.left_state (e : Entry) (h : Holder) :
    (e.left h).state = if (e.left h).held then e.state else .releasing := by
  rw [Entry.left_held, Entry.left_eq]

theorem storeLevel_pos (l : Level) : 1 ≤ (storeLevel l).val := by
  unfold storeLevel
  split
  · decide
  · omega

theorem storeLevel_eq (l : Level) : storeLevel l = if l = 0 then 1 else l := by
  unfold storeLevel
  by_cases h : l = 0
  · simp [h]
  · have hv : l.val ≠ 0 := fun e => h (Fin.ext e)
    simp [h, hv]

/-! ## Arrival and departure, by what the pair had -/

theorem arrive_found {h : Holder} {l : Level} {c : EntryClass} {src : SourceId} {d : DestId} {s : State} {e : Entry}
    (hf : s.findEntry src d = some e) : Touches [.entries, .lampDirty] s (arrive h l c src d s).1 := by
  unfold arrive
  rw [hf]
  dsimp only
  split
  · exact .refl _ _
  · split
    · exact .refl _ _
    · split
      · exact (mapEntry_touches _ _ _ _).up.trans (handEntry_touches _ _ _).up
      · exact (mapEntry_touches _ _ _ _).up

theorem depart_touches_held (h : Holder) (src : SourceId) (d : DestId) (s : State) :
    Touches [.entries, .lampDirty] s (depart h src d s) := by
  unfold depart
  split
  · exact .refl _ _
  · split
    · dsimp only
      split
      · exact (mapEntry_touches _ _ _ _).up.trans (handEntry_touches _ _ _).up
      · exact (mapEntry_touches _ _ _ _).up
    · exact .refl _ _

theorem entriesOf_createEntry (h : Holder) (l : Level) (c : EntryClass) (src : SourceId) (d : DestId) (s : State)
    (j : DestId) :
    (createEntry h l c src d s).entriesOf j =
      if j = d then s.entriesOf d ++ [newEntry h l c src d s.nextSerial] else s.entriesOf j :=
  State.entriesOf_setEntries s d _ j

@[simp] theorem newEntry_source (h : Holder) (l : Level) (c : EntryClass) (src : SourceId) (d : DestId) (n : Nat) :
    (newEntry h l c src d n).source = src := by cases h <;> rfl
@[simp] theorem newEntry_dest (h : Holder) (l : Level) (c : EntryClass) (src : SourceId) (d : DestId) (n : Nat) :
    (newEntry h l c src d n).dest = d := by cases h <;> rfl
@[simp] theorem newEntry_serial (h : Holder) (l : Level) (c : EntryClass) (src : SourceId) (d : DestId) (n : Nat) :
    (newEntry h l c src d n).serial = n := by cases h <;> rfl
@[simp] theorem newEntry_level (h : Holder) (l : Level) (c : EntryClass) (src : SourceId) (d : DestId) (n : Nat) :
    (newEntry h l c src d n).level = storeLevel l := by cases h <;> rfl
@[simp] theorem newEntry_cls (h : Holder) (l : Level) (c : EntryClass) (src : SourceId) (d : DestId) (n : Nat) :
    (newEntry h l c src d n).cls = c := by cases h <;> rfl
@[simp] theorem newEntry_state (h : Holder) (l : Level) (c : EntryClass) (src : SourceId) (d : DestId) (n : Nat) :
    (newEntry h l c src d n).state = .active := by cases h <;> rfl
@[simp] theorem newEntry_applied (h : Holder) (l : Level) (c : EntryClass) (src : SourceId) (d : DestId) (n : Nat) :
    (newEntry h l c src d n).applied = 0 := by cases h <;> rfl

theorem newEntry_holds (h g : Holder) (l : Level) (c : EntryClass) (src : SourceId) (d : DestId) (n : Nat) :
    (newEntry h l c src d n).holds g = decide (g = h) := by
  rw [newEntry, Entry.holds_withHolder]
  cases g <;> simp [Entry.holds]

theorem findEntry_createEntry (h : Holder) (l : Level) (c : EntryClass) (src : SourceId) (d : DestId) (s : State)
    (hf : s.findEntry src d = none) (n : SourceId) (j : DestId) :
    (createEntry h l c src d s).findEntry n j =
      if j = d ∧ n = src then some (newEntry h l c src d s.nextSerial) else s.findEntry n j := by
  unfold State.findEntry at hf ⊢
  rw [entriesOf_createEntry]
  by_cases hj : j = d
  · subst hj
    simp only [if_true, true_and, List.find?_append]
    by_cases hn : n = src
    · subst hn; simp [hf]
    · have : ¬src = n := fun e => hn e.symm
      simp [hn, this]
  · simp [hj]

/-- R65: the pair's entry after an arrival that found one: recorded, unless it was or the grants are full. -/
theorem findEntry_arrive_found {h : Holder} {l : Level} {c : EntryClass} {src : SourceId} {d : DestId} {s : State}
    {e : Entry} (hf : s.findEntry src d = some e) (n : SourceId) (j : DestId) :
    (arrive h l c src d s).1.findEntry n j =
      if j = d ∧ n = src ∧ e.holds h = false ∧ (h.isGrant = true → e.grants.length < 32) then some (e.joined h l c)
      else s.findEntry n j := by
  rcases arrive_cases h l c src d s with ⟨h1, _⟩ | ⟨h1, _⟩ | ⟨e', he', hc⟩
  · rw [hf] at h1; cases h1
  · rw [hf] at h1; cases h1
  · rw [hf] at he'
    cases he'
    rcases hc with ⟨hh, ha⟩ | ⟨hh, hg, hl, ha⟩ | ⟨hh, hg, _, ha⟩
    · simp [ha, hh]
    · have : ¬ e.grants.length < 32 := Nat.not_lt.2 hl
      simp [ha, hg, this]
    · rw [State.findEntry_congr ha, State.findEntry_mapEntry (by simp)]
      by_cases hjn : j = d ∧ n = src
      · obtain ⟨rfl, rfl⟩ := hjn
        rw [if_pos ⟨rfl, rfl⟩, if_pos ⟨rfl, rfl, hh, hg⟩, hf]
        rfl
      · rw [if_neg hjn, if_neg (fun h => hjn ⟨h.1, h.2.1⟩)]

/-- R66: the pair's entry after a departure. -/
theorem findEntry_depart (h : Holder) (src : SourceId) (d : DestId) (s : State) (n : SourceId) (j : DestId) :
    (depart h src d s).findEntry n j =
      if j = d ∧ n = src then (s.findEntry src d).map fun e => if e.holds h then e.left h else e
      else s.findEntry n j := by
  rcases depart_cases h src d s with ⟨hno, hd⟩ | ⟨e, he, hh, hd⟩
  · rw [hd]
    split
    · rename_i hjn
      obtain ⟨rfl, rfl⟩ := hjn
      cases hf : s.findEntry n j with
      | none => rfl
      | some e => simp [hno e hf]
    · rfl
  · rw [State.findEntry_congr hd, State.findEntry_mapEntry (by simp)]
    by_cases hjn : j = d ∧ n = src
    · obtain ⟨rfl, rfl⟩ := hjn
      simp [he, hh]
    · rw [if_neg hjn, if_neg hjn]

theorem entriesOf_arrive_ne {h : Holder} {l : Level} {c : EntryClass} {src : SourceId} {d : DestId} {s : State}
    {j : DestId} (hj : j ≠ d) : (arrive h l c src d s).1.entriesOf j = s.entriesOf j := by
  rcases arrive_cases h l c src d s with ⟨_, _, ha⟩ | ⟨_, _, ha⟩ | ⟨e, _, ⟨_, ha⟩ | ⟨_, _, _, ha⟩ | ⟨_, _, _, ha⟩⟩
  · rw [ha, entriesOf_createEntry, if_neg hj]
  · rw [ha]
  · rw [ha]
  · rw [ha]
  · rw [State.entriesOf_congr ha, State.entriesOf_mapEntry, if_neg hj]

theorem entriesOf_depart_ne {h : Holder} {src : SourceId} {d : DestId} {s : State} {j : DestId} (hj : j ≠ d) :
    (depart h src d s).entriesOf j = s.entriesOf j := by
  rcases depart_cases h src d s with ⟨_, hd⟩ | ⟨e, _, _, hd⟩
  · rw [hd]
  · rw [State.entriesOf_congr hd, State.entriesOf_mapEntry, if_neg hj]

/-! ## What each move keeps of the store's form -/

/-- The form of one entry of destination d (R61 to R64). -/
def EntryInv (d : DestId) (e : Entry) : Prop :=
  e.dest = d ∧ 1 ≤ e.level.val ∧ (e.state = .active ↔ e.held = true) ∧ e.grants.Nodup ∧ e.grants.length ≤ 32

theorem StoreInv.entryInv {s : State} (h : StoreInv s) {d : DestId} {e : Entry} (he : e ∈ s.entriesOf d) :
    EntryInv d e := (h d).1.2 e he

theorem StoreInv.of_same {s t : State} (he : t.entries = s.entries) (hn : t.nextSerial = s.nextSerial)
    (hs : StoreInv s) : StoreInv t := by
  intro d
  rw [State.entriesOf_congr he, hn]
  exact hs d

/-- A rewriting of the entries that keeps pair, place and form keeps the store's form. -/
theorem StoreInv.map {s t : State} {g : DestId → Entry → Entry} (hs : StoreInv s) (hn : t.nextSerial = s.nextSerial)
    (he : ∀ d, t.entriesOf d = (s.entriesOf d).map (g d)) (hsrc : ∀ d e, (g d e).source = e.source)
    (hser : ∀ d e, (g d e).serial = e.serial) (hinv : ∀ d, ∀ e ∈ s.entriesOf d, EntryInv d (g d e)) : StoreInv t := by
  intro d
  have h1 : Entry.source ∘ g d = Entry.source := funext fun e => hsrc d e
  have h2 : Entry.serial ∘ g d = Entry.serial := funext fun e => hser d e
  obtain ⟨⟨hnd, _⟩, hp, hb⟩ := hs d
  rw [he d, hn, List.map_map, h2]
  refine ⟨⟨by rw [List.map_map, h1]; exact hnd, fun e hm => ?_⟩, hp, fun e hm => ?_⟩
  · obtain ⟨x, hx, rfl⟩ := List.mem_map.1 hm
    exact hinv d x hx
  · obtain ⟨x, hx, rfl⟩ := List.mem_map.1 hm
    rw [hser]
    exact hb x hx

theorem StoreInv.mapEntry {s t : State} {a : SourceId} {d : DestId} {f : Entry → Entry} (hs : StoreInv s)
    (hn : t.nextSerial = s.nextSerial) (he : t.entries = (s.mapEntry a d f).entries)
    (hsrc : ∀ e, (f e).source = e.source) (hser : ∀ e, (f e).serial = e.serial)
    (hinv : ∀ e ∈ s.entriesOf d, e.source = a → EntryInv d e → EntryInv d (f e)) : StoreInv t := by
  refine hs.map (g := fun j e => if j = d ∧ e.source = a then f e else e) hn (fun j => ?_) (fun j e => ?_)
    (fun j e => ?_) fun j e hm => ?_
  · rw [State.entriesOf_congr he, State.entriesOf_mapEntry]
    by_cases hj : j = d
    · simp [hj]
    · simp [hj]
  · split <;> simp [hsrc]
  · split <;> simp [hser]
  · split
    · rename_i hc
      obtain ⟨rfl, ha⟩ := hc
      exact hinv e hm ha (hs.entryInv hm)
    · exact hs.entryInv hm

theorem newEntry_inv (h : Holder) (l : Level) (c : EntryClass) (src : SourceId) (d : DestId) (n : Nat) :
    EntryInv d (newEntry h l c src d n) := by
  have hh : (newEntry h l c src d n).held = true := (Entry.held_iff _).2 ⟨h, by rw [newEntry_holds]; simp⟩
  refine ⟨newEntry_dest .., ?_, by simp [hh], ?_⟩
  · rw [newEntry_level]; exact storeLevel_pos l
  · cases h <;> simp [newEntry, Entry.withHolder]

theorem createEntry_storeInv {h : Holder} {l : Level} {c : EntryClass} {src : SourceId} {d : DestId} {s : State}
    (hf : s.findEntry src d = none) (hs : StoreInv s) : StoreInv (createEntry h l c src d s) := by
  intro j
  rw [entriesOf_createEntry]
  change _ ∧ _ ∧ ∀ e ∈ _, Entry.serial e < s.nextSerial + 1
  obtain ⟨⟨hnd, hinv⟩, hp, hb⟩ := hs j
  by_cases hj : j = d
  · subst hj
    rw [if_pos rfl]
    refine ⟨⟨?_, ?_⟩, ?_, ?_⟩
    · rw [List.map_append, List.nodup_append]
      refine ⟨hnd, by simp, ?_⟩
      intro a ha b hb' hab
      obtain ⟨e, he, rfl⟩ := List.mem_map.1 ha
      simp only [List.map_cons, List.map_nil, newEntry_source, List.mem_singleton] at hb'
      exact State.findEntry_eq_none.1 hf e he (hab.trans hb')
    · intro e he
      rcases List.mem_append.1 he with he | he
      · exact hinv e he
      · rw [List.mem_singleton.1 he]; exact newEntry_inv ..
    · rw [List.map_append, List.pairwise_append]
      refine ⟨hp, by simp, ?_⟩
      intro a ha b hb'
      obtain ⟨e, he, rfl⟩ := List.mem_map.1 ha
      simp only [List.map_cons, List.map_nil, newEntry_serial, List.mem_singleton] at hb'
      exact hb' ▸ hb e he
    · intro e he
      rcases List.mem_append.1 he with he | he
      · exact Nat.lt_succ_of_lt (hb e he)
      · rw [List.mem_singleton.1 he, newEntry_serial]; exact Nat.lt_succ_self _
  · rw [if_neg hj]
    exact ⟨⟨hnd, hinv⟩, hp, fun e he => Nat.lt_succ_of_lt (hb e he)⟩

theorem Entry.joined_inv {e : Entry} {h : Holder} {d : DestId} (l : Level) (c : EntryClass) (hh : e.holds h = false)
    (hg : h.isGrant = true → e.grants.length < 32) (he : EntryInv d e) : EntryInv d (e.joined h l c) := by
  obtain ⟨hd, hl, _, hn, hlen⟩ := he
  have hheld : (e.joined h l c).held = true := (Entry.held_iff _).2 ⟨h, by rw [Entry.holds_joined]; simp⟩
  refine ⟨(Entry.joined_dest ..).trans hd, ?_, by simp [hheld], ?_⟩
  · cases h <;> first | exact storeLevel_pos l | exact hl
  · cases h with
    | grant k =>
      refine ⟨?_, by simpa [Entry.joined, Entry.withHolder] using hg rfl⟩
      have hk : k ∉ e.grants := by simpa [Entry.holds] using hh
      simp only [Entry.joined, Entry.withHolder]
      exact List.nodup_append.2 ⟨hn, by simp, fun a ha b hb hab => hk (by simp_all)⟩
    | static => exact ⟨hn, hlen⟩
    | party p => exact ⟨hn, hlen⟩
    | tap t => exact ⟨hn, hlen⟩

theorem Entry.left_inv {e : Entry} {h : Holder} {d : DestId} (he : EntryInv d e) : EntryInv d (e.left h) := by
  obtain ⟨hd, hl, hact, hn, hlen⟩ := he
  refine ⟨(Entry.left_dest ..).trans hd, by rw [Entry.left_level]; exact hl, ?_, ?_⟩
  · rw [Entry.left_state]
    cases hh : (e.left h).held with
    | false => simp
    | true =>
      simp only [if_true, iff_true]
      obtain ⟨g, hg⟩ := (Entry.held_iff _).1 hh
      rw [Entry.holds_left, Bool.and_eq_true] at hg
      exact hact.2 ((Entry.held_iff _).2 ⟨g, hg.2⟩)
  · rw [Entry.left_eq]
    cases h with
    | grant k => exact ⟨hn.filter _, (List.length_filter_le _ _).trans hlen⟩
    | static => exact ⟨hn, hlen⟩
    | party p => exact ⟨hn, hlen⟩
    | tap t => exact ⟨hn, hlen⟩

theorem arrive_storeInv (h : Holder) (l : Level) (c : EntryClass) (src : SourceId) (d : DestId) (s : State)
    (hs : StoreInv s) : StoreInv (arrive h l c src d s).1 := by
  rcases arrive_cases h l c src d s with ⟨hf, _, ha⟩ | ⟨_, _, ha⟩ | ⟨e, hf, ⟨_, ha⟩ | ⟨_, _, _, ha⟩ | ⟨hh, hg, _, ha⟩⟩
  · rw [ha]; exact createEntry_storeInv hf hs
  · rw [ha]; exact hs
  · rw [ha]; exact hs
  · rw [ha]; exact hs
  · refine hs.mapEntry (arrive_found hf).nextSerial ha (by simp) (by simp) fun x hx hxs hinv => ?_
    have hxe : x = e := by
      have := hs.findEntry_iff.2 ⟨hx, hxs⟩
      rw [hf] at this
      exact (Option.some.inj this).symm
    subst hxe
    exact Entry.joined_inv l c hh hg hinv

theorem depart_storeInv (h : Holder) (src : SourceId) (d : DestId) (s : State) (hs : StoreInv s) :
    StoreInv (depart h src d s) := by
  rcases depart_cases h src d s with ⟨_, hd⟩ | ⟨e, _, _, hd⟩
  · rw [hd]; exact hs
  · exact hs.mapEntry (depart_touches_held h src d s).nextSerial hd (by simp) (by simp)
      fun _ _ _ hinv => Entry.left_inv hinv

theorem writeEntryLevel_storeInv (l : Level) (src : SourceId) (d : DestId) (s : State) (hs : StoreInv s) :
    StoreInv (writeEntryLevel l src d s) :=
  hs.mapEntry rfl rfl (fun _ => rfl) (fun _ => rfl) fun _ _ _ ⟨hd, _, ha, hn⟩ => ⟨hd, storeLevel_pos l, ha, hn⟩

theorem requestPair_storeInv (p : PartyId) (l : Level) (s : State) (x : MemberPair) (hs : StoreInv s) :
    StoreInv (requestPair p l s x) := by
  have ha := arrive_storeInv (.party p) l .talk x.source x.dest s hs
  unfold requestPair
  dsimp only
  split
  · exact ha
  · have ht := raise_touches .grantRefused (some x.dest.val) (arrive (.party p) l .talk x.source x.dest s).1
    exact ha.of_same ht.entries ht.nextSerial

theorem withdrawPairs_storeInv (p : PartyId) (l : List MemberPair) (s : State) (hs : StoreInv s) :
    StoreInv (withdrawPairs p l s) :=
  foldl_keeps (fun _ _ h => depart_storeInv _ _ _ _ h) l s hs

theorem changeParty_storeInv (p : PartyId) (r : Party) (s : State) (hs : StoreInv s) : StoreInv (changeParty p r s) :=
  foldl_keeps (fun _ _ h => requestPair_storeInv _ _ _ _ h) _ _
    (withdrawPairs_storeInv _ _ _ (hs.of_same (t := s.setParty p r) rfl rfl))

/-- R70: the entries after an assembly, whatever the rest of it does. -/
theorem assembleDest_entries (before : State) (d : DestId) (s : State) :
    (assembleDest before d s).entries = (s.setEntries d (s.closeEntries d)).entries ∧
      (assembleDest before d s).nextSerial = s.nextSerial := by
  have hfold : ∀ (l : List Entry) (u : State), Touches [.lampDirty] u (l.foldl (fun t e => handEntry e.source d t) u) :=
    fun l u => Touches.foldl (fun t e => handEntry_touches _ _ _) l u
  have hclip : ∀ (n : Nat) (u : State),
      Touches [.events, .notices, .draws] u (if n = 0 then u else raise .clip (some d.val) u) := by
    intro n u
    split
    · exact .refl _ _
    · exact raise_touches _ _ _
  unfold assembleDest
  exact ⟨(hclip _ _).entries.trans (hfold _ _).entries, (hclip _ _).nextSerial.trans (hfold _ _).nextSerial⟩

theorem entriesOf_assembleDest (before : State) (d : DestId) (s : State) (j : DestId) :
    (assembleDest before d s).entriesOf j = if j = d then s.closeEntries d else s.entriesOf j := by
  rw [State.entriesOf_congr (assembleDest_entries before d s).1, State.entriesOf_setEntries]

theorem assembleDest_storeInv (before : State) (d : DestId) (s : State) (hs : StoreInv s) :
    StoreInv (assembleDest before d s) := by
  intro j
  rw [entriesOf_assembleDest, (assembleDest_entries before d s).2]
  by_cases hj : j = d
  · subst hj
    rw [if_pos rfl]
    obtain ⟨⟨hnd, hinv⟩, hp, hb⟩ := hs j
    have hsub : (((s.entriesOf j).filter fun e => e.state == .active)).Sublist (s.entriesOf j) := List.filter_sublist
    unfold State.closeEntries
    refine ⟨⟨?_, ?_⟩, ?_, ?_⟩
    · rw [List.map_map]; exact hnd.sublist (hsub.map Entry.source)
    · intro e he
      obtain ⟨x, hx, rfl⟩ := List.mem_map.1 he
      exact hinv x (hsub.subset hx)
    · rw [List.map_map]; exact hp.sublist (hsub.map Entry.serial)
    · intro e he
      obtain ⟨x, hx, rfl⟩ := List.mem_map.1 he
      exact hb x (hsub.subset hx)
  · rw [if_neg hj]; exact hs j

theorem Entry.cleared_eq (e : Entry) :
    e.cleared = { e with grants := [], parties := []
                         state := if e.static = true ∨ e.taps ≠ [] then e.state else .releasing } := by
  unfold Entry.cleared
  have hh : ({ e with grants := [], parties := [] } : Entry).held = true ↔ e.static = true ∨ e.taps ≠ [] := by
    simp [Entry.held]
  by_cases hc : e.static = true ∨ e.taps ≠ []
  · dsimp only
    rw [if_pos (hh.2 hc), if_pos hc]
  · dsimp only
    rw [if_neg (fun h => hc (hh.1 h)), if_neg hc]

theorem entriesOf_clearStore (s : State) (d : DestId) :
    (clearStore s).entriesOf d = (s.entriesOf d).map Entry.cleared := tget_map _ _ _

theorem clearStore_storeInv (s : State) (hs : StoreInv s) : StoreInv (clearTalk (clearStore s)) := by
  refine hs.map (g := fun _ => Entry.cleared) rfl (fun d => entriesOf_clearStore s d)
    (fun _ e => by rw [Entry.cleared_eq]) (fun _ e => by rw [Entry.cleared_eq]) fun d e he => ?_
  obtain ⟨hd, hl, ha, _⟩ := hs.entryInv he
  rw [Entry.cleared_eq]
  refine ⟨hd, hl, ?_, by simp⟩
  by_cases hc : e.static = true ∨ e.taps ≠ []
  · have hheld : e.held = true := by
      rcases hc with h | h <;> simp [Entry.held, h]
    simp only [hc, if_true]
    rw [ha, hheld]
    rcases hc with h | h <;> simp [Entry.held, h]
  · rw [not_or, Bool.not_eq_true, not_not] at hc
    simp [hc, Entry.held]

/-! ## Taps -/

/-- What every holder's arrival and departure, every level and every other table's write keeps, a tap's write keeps. -/
theorem writeTap_keeps_of {P : State → Prop}
    (hother : ∀ {s t : State}, Touches [.taps, .sources] s t → P s → P t)
    (harrive : ∀ t l c a d s, P s → P (arrive (.tap t) l c a d s).1)
    (hdepart : ∀ t a d s, P s → P (depart (.tap t) a d s)) (hlevel : ∀ l a d s, P s → P (writeEntryLevel l a d s))
    (t : TapId) (l : List FieldValue) (s : State) (hs : P s) : P (writeTap t l s).1 := by
  have hset : ∀ r, P (s.setTap t r) := fun r => hother (setTap_touches _ _ _).up hs
  have hiso : ∀ up s n, P s → P (isolate up s n) := fun up s n => hother (isolate_touches _ _ _).up
  rcases writeTap_cases t l s with h | ⟨r, _, _, h⟩ | ⟨r, _, _, _, h⟩
  · rw [h]; exact hs
  · rw [h]
    unfold enableTap
    split
    · have h1 := foldl_keeps (P := P) (fun u n hu => harrive t r.level .talk n r.monitor u hu) r.matched _ (hset r)
      dsimp only
      split
      · exact h1
      · exact foldl_keeps (fun u n hu => hiso true u n hu) _ _ h1
    · exact hset r
  · rw [h]
    unfold settleTap
    have hl : P (if ((s.tap t).enabled && names l 5) = true then tapLevel r (s.setTap t r) else s.setTap t r) := by
      split
      · unfold tapLevel
        split
        · exact foldl_keeps (fun u n hu => hlevel _ _ _ _ hu) _ _ (hset r)
        · exact hset r
      · exact hset r
    dsimp only
    split
    · unfold disableTap
      split
      · have h1 := foldl_keeps (P := P) (fun u n hu => hdepart t n r.monitor u hu) r.matched _ hl
        dsimp only
        split
        · exact h1
        · exact foldl_keeps (fun u n hu => hiso false u n hu) _ _ h1
      · exact hl
    · exact hl

theorem blank_storeInv (ph : Phase) (st : Straps) (dr : Nat) (pe : List Instr) : StoreInv (State.blank ph st dr pe) := by
  intro d
  have h : (State.blank ph st dr pe).entriesOf d = [] := tget_replicate _ _
  rw [h]
  exact ⟨⟨by simp, by simp⟩, by simp, by simp⟩

theorem storeInv_storeClosed : StoreClosed StoreInv where
  other h := StoreInv.of_same h.entries h.nextSerial
  arrive h l c a d s _ := arrive_storeInv h l c a d s
  depart h a d s _ := depart_storeInv h a d s
  level := writeEntryLevel_storeInv
  change := changeParty_storeInv
  assemble := assembleDest_storeInv
  clear := clearStore_storeInv
  station _ _ _ _ h := h.of_same rfl rfl
  tap := writeTap_keeps_of (fun h => StoreInv.of_same h.entries h.nextSerial)
    (fun _ _ _ _ _ _ => arrive_storeInv _ _ _ _ _ _) (fun _ _ _ _ => depart_storeInv _ _ _ _) writeEntryLevel_storeInv
  blank := blank_storeInv

/-- Settles O8: each move on the store keeps its form, so every step does. -/
theorem storeKept : Obligations.StoreKept := fun _ _ hs hst => step_keeps storeInv_storeClosed hs hst

end Sys2Proof.Machine
end

section
/-! PROOF. What a holder's arrival and departure do to their pair (R65 to R67), what one route of a route order does (R73 to
R75), and that a party holds only its wanted pairs (R126). -/

namespace Sys2Proof.Machine

/-! ## Arrival and departure -/

theorem arrive_full {h : Holder} {l : Level} {c : EntryClass} {src : SourceId} {d : DestId} {s : State}
    (hf : s.findEntry src d = none) (hr : s.hasRoom d 1 = false) : arrive h l c src d s = (s, false) := by
  simp [arrive, hf, hr]

theorem arrive_new {h : Holder} {l : Level} {c : EntryClass} {src : SourceId} {d : DestId} {s : State}
    (hf : s.findEntry src d = none) (hr : s.hasRoom d 1 = true) :
    arrive h l c src d s = (createEntry h l c src d s, true) := by simp [arrive, hf, hr]

theorem arrive_held {h : Holder} {l : Level} {c : EntryClass} {src : SourceId} {d : DestId} {s : State} {e : Entry}
    (hf : s.findEntry src d = some e) (hh : e.holds h = true) : arrive h l c src d s = (s, true) := by
  simp [arrive, hf, hh]

theorem arrive_grants_full {k : KeyId} {l : Level} {c : EntryClass} {src : SourceId} {d : DestId} {s : State} {e : Entry}
    (hf : s.findEntry src d = some e) (hk : k ∉ e.grants) (hl : 32 ≤ e.grants.length) :
    arrive (.grant k) l c src d s = (s, false) := by
  simp [arrive, hf, Entry.holds, hk, Holder.isGrant, Config.grantCap, hl]

/-- The answer of an arrival on a pair that has an entry: refused only as the 33rd grant. -/
theorem arrive_found_ok {h : Holder} {l : Level} {c : EntryClass} {src : SourceId} {d : DestId} {s : State} {e : Entry}
    (hf : s.findEntry src d = some e) (hg : e.holds h = true ∨ (h.isGrant = true → e.grants.length < 32)) :
    (arrive h l c src d s).2 = true := by
  rcases arrive_cases h l c src d s with ⟨h1, _⟩ | ⟨h1, _⟩ | ⟨e', he', hc⟩
  · rw [hf] at h1; cases h1
  · rw [hf] at h1; cases h1
  · rw [hf] at he'
    cases he'
    rcases hc with ⟨_, ha⟩ | ⟨hh, hk, hl, _⟩ | ⟨_, _, ha, _⟩
    · rw [ha]
    · rcases hg with hg | hg
      · rw [hh] at hg; cases hg
      · exact absurd (hg hk) (Nat.not_lt.2 hl)
    · exact ha

theorem findEntry_arrive_ne {h : Holder} {l : Level} {c : EntryClass} {src : SourceId} {d : DestId} {s : State}
    {n : SourceId} (hn : n ≠ src) : (arrive h l c src d s).1.findEntry n d = s.findEntry n d := by
  cases hf : s.findEntry src d with
  | some e => rw [findEntry_arrive_found hf, if_neg (fun hc => hn hc.2.1)]
  | none =>
    cases hr : s.hasRoom d 1 with
    | false => rw [arrive_full hf hr]
    | true =>
      rw [arrive_new hf hr]
      exact (findEntry_createEntry _ _ _ _ _ _ hf _ _).trans (if_neg fun hc => hn hc.2)

theorem Entry.joined_level_cls {e : Entry} {h : Holder} (l : Level) (c : EntryClass) (hn : h ≠ .static) :
    (e.joined h l c).level = e.level ∧ (e.joined h l c).cls = e.cls := by
  cases h with
  | static => exact absurd rfl hn
  | grant k => exact ⟨rfl, rfl⟩
  | party p => exact ⟨rfl, rfl⟩
  | tap t => exact ⟨rfl, rfl⟩

/-- Settles O50: an arrival creates the pair's entry, records a holder on it or is refused; a departure takes its holder out
of the pair's one entry. -/
theorem holdersArriveAndDepart : Obligations.HoldersArriveAndDepart := by
  constructor
  · intro h level cls src d s hs u
    refine ⟨fun d' hd => entriesOf_arrive_ne hd, fun n hn => findEntry_arrive_ne hn, fun hf => ⟨fun hr =>
      arrive_full hf hr, fun hr => ?_⟩, fun e hf hg => ?_, fun e k hf hk hkn hl => ?_⟩
    · have hu : u = (createEntry h level cls src d s, true) := arrive_new hf hr
      rw [hu]
      refine ⟨rfl, newEntry h level cls src d s.nextSerial, (entriesOf_createEntry ..).trans (if_pos rfl),
        newEntry_source .., newEntry_dest .., newEntry_state .., newEntry_applied .., newEntry_cls ..,
        (newEntry_level ..).trans (storeLevel_eq level), ?_, fun k => ?_, fun p => ?_, fun t => ?_⟩
      · have := newEntry_holds h .static level cls src d s.nextSerial
        simpa [Entry.holds, eq_comm] using this
      · have := newEntry_holds h (.grant k) level cls src d s.nextSerial
        rw [← decide_eq_true_iff (p := h = .grant k), ← List.elem_iff]
        simpa [Entry.holds, eq_comm] using this
      · have := newEntry_holds h (.party p) level cls src d s.nextSerial
        rw [← decide_eq_true_iff (p := h = .party p), ← List.elem_iff]
        simpa [Entry.holds, eq_comm] using this
      · have := newEntry_holds h (.tap t) level cls src d s.nextSerial
        rw [← decide_eq_true_iff (p := h = .tap t), ← List.elem_iff]
        simpa [Entry.holds, eq_comm] using this
    · obtain ⟨hmem, _⟩ := State.mem_of_findEntry hf
      obtain ⟨_, _, hact, _⟩ := hs.entryInv hmem
      cases hh : e.holds h with
      | true =>
        have hu : u = (s, true) := arrive_held hf hh
        rw [hu]
        refine ⟨rfl, e, hf, hh, hact.2 ((Entry.held_iff e).2 ⟨h, hh⟩), rfl, fun _ => ⟨rfl, rfl⟩, fun hst hno => ?_,
          fun _ _ => rfl⟩
        subst hst
        rw [Entry.holds, hno] at hh
        cases hh
      | false =>
        have hgr : h.isGrant = true → e.grants.length < 32 := by
          intro hk
          cases h with
          | grant k =>
            refine (hg k rfl).resolve_left fun hm => ?_
            simp [Entry.holds, hm] at hh
          | static => cases hk
          | party p => cases hk
          | tap t => cases hk
        refine ⟨arrive_found_ok hf (.inr hgr), e.joined h level cls,
          (findEntry_arrive_found hf _ _).trans (if_pos ⟨rfl, rfl, hh, hgr⟩), by rw [Entry.holds_joined]; simp,
          Entry.joined_state .., Entry.joined_applied .., Entry.joined_level_cls _ _, fun hst _ => ?_, fun g hg' => ?_⟩
        · subst hst
          exact ⟨storeLevel_eq level, rfl⟩
        · rw [Entry.holds_joined]; simp [hg']
    · subst hk
      exact arrive_grants_full hf hkn hl
  · intro h src d s hs u
    have hfind := fun n => findEntry_depart h src d s n d
    refine ⟨fun d' hd => entriesOf_depart_ne hd, fun n hn => (hfind n).trans (if_neg fun hc => hn hc.2), fun hno => ?_,
      fun e hf hh => ⟨e.left h, ?_, ?_, Entry.left_level .., Entry.left_cls .., Entry.left_applied .., fun hheld => ?_,
        fun hheld => ?_, fun g hg => ?_⟩⟩
    · rcases depart_cases h src d s with ⟨_, hd⟩ | ⟨e, he, hh, _⟩
      · exact hd
      · rw [hno e he] at hh; cases hh
    · rw [hfind src, if_pos ⟨rfl, rfl⟩, hf]
      simp [hh]
    · rw [Entry.holds_left]; simp
    · obtain ⟨hmem, _⟩ := State.mem_of_findEntry hf
      obtain ⟨_, _, hact, _⟩ := hs.entryInv hmem
      rw [Entry.left_state, if_pos hheld]
      exact hact.2 ((Entry.held_iff e).2 ⟨h, hh⟩)
    · rw [Entry.left_state, hheld]; rfl
    · rw [Entry.holds_left]; simp [hg]

/-! ## One route -/

theorem readClass_eq_none {b : Byte} (h : 1 < b.toNat) : readClass b = none := by
  unfold readClass
  rw [if_neg (by rintro rfl; simp at h), if_neg (by rintro rfl; simp at h)]

theorem readClass_eq_some {b : Byte} (h : b.toNat ≤ 1) : readClass b = some (if b = 0 then .programme else .talk) := by
  unfold readClass
  by_cases h0 : b = 0
  · simp [h0]
  · have h1 : b = 1 := by
      apply BitVec.eq_of_toNat_eq
      have : b.toNat ≠ 0 := fun e => h0 (BitVec.eq_of_toNat_eq e)
      change b.toNat = 1
      omega
    simp [h1]

theorem storeLevel_clampLevel {b : Byte} (h : b ≠ 0) : storeLevel (clampLevel b.toNat) = clampLevel b.toNat := by
  rw [storeLevel_eq, if_neg]
  intro hc
  have hv := congrArg Fin.val hc
  have h0 : b.toNat ≠ 0 := fun e => h (BitVec.eq_of_toNat_eq e)
  simp only [clampLevel, Fin.val_zero] at hv
  omega

theorem nudged_pos (l : Level) (h : 1 ≤ l.val) (down : Bool) (c : Nat) : 1 ≤ (nudged l down c).val := by
  unfold nudged clampLevel
  cases down
  · simp; omega
  · simp

/-- Settles O29: the checks of a route in their order, and the arrival, departure or level of its static holder. -/
theorem routeResults : Obligations.RouteResults := by
  constructor
  · intro r s src d
    refine ⟨fun hbad => ?_, fun hcls hlev => ?_⟩
    · unfold addRoute
      dsimp only
      rcases hbad with h | h
      · rw [readClass_eq_none h]
      · cases readClass r.cls with
        | none => rfl
        | some c => exact if_pos h
    · have hc := readClass_eq_some hcls
      have hadd : (s.dest d).kind ≠ .monitor → (s.findEntry src d).any Entry.static = false →
          addRoute r s =
            ((arrive .static (clampLevel r.level.toNat) (if r.cls = 0 then .programme else .talk) src d s).1,
              if (arrive .static (clampLevel r.level.toNat) (if r.cls = 0 then .programme else .talk) src d s).2 then .ok
              else .full) := by
        intro hk hs
        unfold addRoute
        dsimp only
        rw [hc]
        dsimp only
        rw [if_neg hlev, if_neg hk, if_neg (by rw [show s.findEntry r.source.toFin r.dest.toFin = s.findEntry src d from rfl, hs]; decide)]
      refine ⟨fun hk => ?_, fun hk => ⟨fun e hf hst => ?_, fun e hf hst => ?_, fun hf hr => ?_, fun hf hr => ?_⟩⟩
      · unfold addRoute
        dsimp only
        rw [hc]
        dsimp only
        rw [if_neg hlev, if_pos hk]
      · unfold addRoute
        dsimp only
        rw [hc]
        dsimp only
        rw [if_neg hlev, if_neg hk, if_pos]
        change (s.findEntry src d).any Entry.static = true
        rw [hf]
        exact hst
      · have hno : e.holds .static = false := hst
        rw [hadd hk (by rw [hf]; exact hst), arrive_found_ok hf (.inr (by simp [Holder.isGrant]))]
        refine ⟨rfl, (findEntry_arrive_found hf _ _).trans ((if_pos ⟨rfl, rfl, hno, by simp [Holder.isGrant]⟩).trans ?_)⟩
        simp [Entry.joined, Entry.withHolder, storeLevel_clampLevel hlev]
      · rw [hadd hk (by rw [hf]; rfl), arrive_full hf hr]
        rfl
      · rw [hadd hk (by rw [hf]; rfl), arrive_new hf hr]
        refine ⟨rfl, (entriesOf_createEntry ..).trans ((if_pos rfl).trans ?_)⟩
        simp [newEntry, Entry.withHolder, storeLevel_clampLevel hlev]
  · intro r down stepCode s hs src d
    refine ⟨fun hno => ⟨?_, ?_⟩, fun e hf hst => ⟨?_, ?_, nudged e.level down stepCode, ?_, ?_, ?_⟩⟩
    · refine if_neg ?_
      change ¬ (s.findEntry src d).any Entry.static = true
      cases hf : s.findEntry src d with
      | none => simp
      | some e => simp [hno e hf]
    · unfold nudgeRoute
      dsimp only
      change (match s.findEntry src d with | none => _ | some e => _) = _
      cases hf : s.findEntry src d with
      | none => rfl
      | some e => simp [hno e hf]
    all_goals
      have hany : (s.findEntry r.source.toFin r.dest.toFin).any Entry.static = true := by
        rw [show s.findEntry r.source.toFin r.dest.toFin = some e from hf]; exact hst
      have hrem : removeRoute r s = (depart .static src d s, .ok) := if_pos hany
      have hnudge : nudgeRoute down stepCode r s =
          (writeEntryLevel (nudged e.level down stepCode) src d s, .ok, (nudged e.level down stepCode).val) := by
        unfold nudgeRoute
        dsimp only
        rw [show s.findEntry r.source.toFin r.dest.toFin = some e from hf]
        exact if_pos hst
      obtain ⟨hmem, _⟩ := State.mem_of_findEntry hf
      obtain ⟨_, hpos, hact, _⟩ := hs.entryInv hmem
    · rw [hrem]
    · have hstate : e.state = .active := hact.2 (by simp [Entry.held, hst])
      rw [hrem, findEntry_depart, if_pos ⟨rfl, rfl⟩, hf]
      simp only [Option.map_some, Entry.holds, hst, if_true, Entry.left_eq, Entry.withoutHolder, Entry.held, hstate]
      by_cases hc : e.grants = [] ∧ e.parties = [] ∧ e.taps = []
      · simp [hc]
      · rw [if_neg hc, if_pos]
        simp only [not_and_or] at hc
        rcases hc with h | h | h <;> simp [h]
    · simp only [nudged, clampLevel]
      have := e.level.isLt
      cases down <;> simp <;> omega
    · rw [hnudge]
    · rw [hnudge]
      refine (State.findEntry_mapEntry (f := fun x => { x with level := storeLevel (nudged e.level down stepCode) })
        (fun _ => rfl) _ _ _ _ _).trans ?_
      have hl : storeLevel (nudged e.level down stepCode) = nudged e.level down stepCode := by
        rw [storeLevel_eq, if_neg]
        intro hz
        have := nudged_pos e.level hpos down stepCode
        rw [hz] at this
        cases this
      rw [if_pos ⟨rfl, rfl⟩, hf]
      simp [hl]

/-! ## Parties hold only their wanted pairs -/

/-- A member pair of a record is a talking member with a source and another, listening one with a destination. -/
theorem State.mem_satisfied {s : State} {r : Party} {x : MemberPair} :
    x ∈ s.satisfied r ↔ r.enabled = true ∧
      ∃ a ∈ r.members, ∃ b ∈ r.members, a.station = x.talker ∧ b.station = x.listener ∧ a.station ≠ b.station ∧
        a.talk = true ∧ (s.station a.station).source = some x.source ∧ b.listen = true ∧
          (s.station b.station).dest = some x.dest := by
  obtain ⟨xt, xl, xs, xd⟩ := x
  unfold State.satisfied
  cases hen : r.enabled with
  | false => simp
  | true =>
    simp only [if_true, List.mem_flatMap, true_and]
    refine exists_congr fun a => and_congr_right fun _ => ?_
    cases hs : (s.station a.station).source with
    | none => simp
    | some src =>
      cases ht : a.talk with
      | false => simp
      | true =>
        simp only [if_true, List.mem_filterMap, true_and, Option.some.injEq]
        refine exists_congr fun b => and_congr_right fun _ => ?_
        cases hd : (s.station b.station).dest with
        | none => simp
        | some d =>
          by_cases hc : b.listen = true ∧ a.station ≠ b.station
          · simp [hc]
          · have : ¬((b.listen && a.station != b.station) = true) := by simpa using hc
            simp only [this, if_false, reduceCtorEq, false_iff]
            tauto

theorem wanted_iff {s : State} {p : PartyId} {src : SourceId} {d : DestId} :
    Wanted s p src d ↔ ∃ x ∈ s.satisfied (s.party p), x.source = src ∧ x.dest = d := by
  constructor
  · rintro ⟨hen, a, ha, b, hb, hne, ht, hs, hl, hd⟩
    exact ⟨⟨a.station, b.station, src, d⟩, State.mem_satisfied.2 ⟨hen, a, ha, b, hb, rfl, rfl, hne, ht, hs, hl, hd⟩, rfl, rfl⟩
  · rintro ⟨x, hx, rfl, rfl⟩
    obtain ⟨hen, a, ha, b, hb, _, _, hne, ht, hs, hl, hd⟩ := State.mem_satisfied.1 hx
    exact ⟨hen, a, ha, b, hb, hne, ht, hs, hl, hd⟩

theorem Wanted.congr {s t : State} {p : PartyId} {src : SourceId} {d : DestId} (hp : t.party p = s.party p)
    (hst : t.stations = s.stations) (h : Wanted s p src d) : Wanted t p src d := by
  have hs : ∀ x, t.station x = s.station x := fun x => by simp [State.station, hst]
  unfold Wanted at h ⊢
  simpa only [hp, hs] using h

/-- Party p is a holder of the entry of the pair. -/
def State.PartyHolds (s : State) (p : PartyId) (src : SourceId) (d : DestId) : Prop :=
  ∃ e ∈ s.entriesOf d, e.source = src ∧ p ∈ e.parties

theorem partyInv_iff {s : State} : PartyInv s ↔ ∀ p src d, s.PartyHolds p src d → Wanted s p src d :=
  ⟨fun h p _ d ⟨e, he, hs, hp⟩ => hs ▸ h d e he p hp, fun h d e he p hp => h p e.source d ⟨e, he, rfl, hp⟩⟩

/-- What a party holds, by the entry of the pair, in a store of its form. -/
theorem StoreInv.partyHolds_iff {s : State} (hs : StoreInv s) {p : PartyId} {src : SourceId} {d : DestId} :
    s.PartyHolds p src d ↔ ∃ e, s.findEntry src d = some e ∧ p ∈ e.parties :=
  ⟨fun ⟨e, he, hsrc, hp⟩ => ⟨e, hs.findEntry_iff.2 ⟨he, hsrc⟩, hp⟩, fun ⟨e, hf, hp⟩ =>
    ⟨e, (hs.findEntry_iff.1 hf).1, (hs.findEntry_iff.1 hf).2, hp⟩⟩

theorem PartyHolds.congr {s t : State} (he : t.entries = s.entries) {p : PartyId} {src : SourceId} {d : DestId} :
    t.PartyHolds p src d ↔ s.PartyHolds p src d := by simp [State.PartyHolds, State.entriesOf_congr he]

theorem Entry.mem_parties (e : Entry) (p : PartyId) : p ∈ e.parties ↔ e.holds (.party p) = true := by
  simp [Entry.holds]

/-- An arrival adds only its own holder to what a party holds. -/
theorem partyHolds_arrive {h : Holder} {l : Level} {c : EntryClass} {a : SourceId} {b : DestId} {s : State}
    (hs : StoreInv s) {p : PartyId} {src : SourceId} {d : DestId}
    (hh : (arrive h l c a b s).1.PartyHolds p src d) : s.PartyHolds p src d ∨ (h = .party p ∧ src = a ∧ d = b) := by
  obtain ⟨e, he, hp⟩ := (arrive_storeInv h l c a b s hs).partyHolds_iff.1 hh
  by_cases hab : d = b ∧ src = a
  · obtain ⟨rfl, rfl⟩ := hab
    by_cases hk : h = .party p
    · exact .inr ⟨hk, rfl, rfl⟩
    refine .inl (hs.partyHolds_iff.2 ?_)
    rw [Entry.mem_parties] at hp
    cases hf : s.findEntry src d with
    | some x =>
      rw [findEntry_arrive_found hf] at he
      split at he
      · cases he
        rw [Entry.holds_joined] at hp
        exact ⟨x, rfl, (Entry.mem_parties x p).2 (by simpa [Ne.symm hk] using hp)⟩
      · rw [hf] at he
        cases he
        exact ⟨e, rfl, (Entry.mem_parties e p).2 hp⟩
    | none =>
      cases hr : s.hasRoom d 1 with
      | false => rw [arrive_full hf hr, hf] at he; cases he
      | true =>
        rw [arrive_new hf hr, findEntry_createEntry _ _ _ _ _ _ hf, if_pos ⟨rfl, rfl⟩] at he
        cases he
        rw [newEntry_holds] at hp
        exact absurd (of_decide_eq_true hp).symm hk
  · refine .inl (hs.partyHolds_iff.2 ⟨e, ?_, hp⟩)
    by_cases hd : d = b
    · subst hd
      rwa [findEntry_arrive_ne (fun hn => hab ⟨rfl, hn⟩)] at he
    · unfold State.findEntry at he ⊢
      rwa [entriesOf_arrive_ne hd] at he

/-- A departure adds nothing to what a party holds, and its own holder is gone from its pair. -/
theorem partyHolds_depart {h : Holder} {a : SourceId} {b : DestId} {s : State} (hs : StoreInv s) {p : PartyId}
    {src : SourceId} {d : DestId} (hh : (depart h a b s).PartyHolds p src d) :
    s.PartyHolds p src d ∧ ¬(h = .party p ∧ src = a ∧ d = b) := by
  obtain ⟨e, he, hp⟩ := (depart_storeInv h a b s hs).partyHolds_iff.1 hh
  rw [Entry.mem_parties] at hp
  rw [findEntry_depart] at he
  split at he
  · rename_i hab
    obtain ⟨rfl, rfl⟩ := hab
    obtain ⟨x, hf, hex⟩ := Option.map_eq_some_iff.1 he
    subst hex
    have hx : x.holds (.party p) = true ∧ h ≠ .party p := by
      split at hp
      · rw [Entry.holds_left, Bool.and_eq_true, decide_eq_true_eq] at hp
        exact ⟨hp.2, fun e => hp.1 e.symm⟩
      · rename_i hno
        exact ⟨hp, fun e => hno (e ▸ hp)⟩
    exact ⟨hs.partyHolds_iff.2 ⟨x, hf, (Entry.mem_parties x p).2 hx.1⟩, fun hc => hx.2 hc.1⟩
  · rename_i hab
    exact ⟨hs.partyHolds_iff.2 ⟨e, he, (Entry.mem_parties e p).2 hp⟩, fun hc => hab ⟨hc.2.2, hc.2.1⟩⟩

theorem partyHolds_writeEntryLevel {l : Level} {a : SourceId} {b : DestId} {s : State} {p : PartyId} {src : SourceId}
    {d : DestId} (hh : (writeEntryLevel l a b s).PartyHolds p src d) : s.PartyHolds p src d := by
  obtain ⟨e, he, hs, hp⟩ := hh
  unfold writeEntryLevel at he
  rw [State.entriesOf_mapEntry] at he
  split at he
  · rename_i hd
    obtain ⟨x, hx, rfl⟩ := List.mem_map.1 he
    refine ⟨x, hd ▸ hx, ?_, ?_⟩
    · split at hs <;> exact hs
    · split at hp <;> exact hp
  · exact ⟨e, he, hs, hp⟩

/-- What parties hold after withdrawals of party p: nothing more, and of p none of the pairs withdrawn. -/
theorem partyHolds_withdrawPairs {p : PartyId} {l : List MemberPair} {s : State} (hs : StoreInv s) {q : PartyId}
    {src : SourceId} {d : DestId} (hh : (withdrawPairs p l s).PartyHolds q src d) :
    s.PartyHolds q src d ∧ (q = p → ∀ x ∈ l, ¬(x.source = src ∧ x.dest = d)) := by
  induction l generalizing s with
  | nil => exact ⟨hh, fun _ x hx => by cases hx⟩
  | cons y l ih =>
    obtain ⟨h1, h2⟩ := ih (depart_storeInv (.party p) y.source y.dest s hs) hh
    obtain ⟨h3, h4⟩ := partyHolds_depart hs h1
    refine ⟨h3, fun hq x hx => ?_⟩
    rcases List.mem_cons.1 hx with rfl | hx
    · rintro ⟨rfl, rfl⟩
      exact h4 ⟨by rw [hq], rfl, rfl⟩
    · exact h2 hq x hx

/-- What parties hold after requests of party p: what they held, and of p the pairs requested. -/
theorem partyHolds_requestPairs {p : PartyId} {l : List MemberPair} {lv : Level} {s : State} (hs : StoreInv s)
    {q : PartyId} {src : SourceId} {d : DestId} (hh : (l.foldl (requestPair p lv) s).PartyHolds q src d) :
    s.PartyHolds q src d ∨ (q = p ∧ ∃ x ∈ l, x.source = src ∧ x.dest = d) := by
  induction l generalizing s with
  | nil => exact .inl hh
  | cons y l ih =>
    rcases ih (requestPair_storeInv p lv s y hs) hh with h | ⟨hq, x, hx, hxs⟩
    · have h' : (arrive (.party p) lv .talk y.source y.dest s).1.PartyHolds q src d := by
        unfold requestPair at h
        dsimp only at h
        split at h
        · exact h
        · exact (PartyHolds.congr (raise_touches _ _ _).entries).1 h
      rcases partyHolds_arrive hs h' with h | ⟨hp, rfl, rfl⟩
      · exact .inl h
      · cases hp
        exact .inr ⟨rfl, y, List.mem_cons_self, rfl, rfl⟩
    · exact .inr ⟨hq, x, List.mem_cons_of_mem _ hx, hxs⟩

theorem changeParty_stations (p : PartyId) (r : Party) (s : State) : (changeParty p r s).stations = s.stations :=
  (changeParty_touches p r s).stations

/-- What a request of a party may touch: no party record. -/
theorem requestPair_touches_store (p : PartyId) (l : Level) (s : State) (x : MemberPair) :
    Touches [.entries, .nextSerial, .lampDirty, .events, .notices, .draws] s (requestPair p l s x) := by
  have ha := (arrive_touches (.party p) l .talk x.source x.dest s).up
    (m := [.entries, .nextSerial, .lampDirty, .events, .notices, .draws])
  unfold requestPair
  dsimp only
  split
  · exact ha
  · exact ha.trans (raise_touches _ _ _).up

theorem changeParty_party (p : PartyId) (r : Party) (s : State) (q : PartyId) :
    (changeParty p r s).party q = if q = p then r else s.party q := by
  have h : (changeParty p r s).parties = (s.setParty p r).parties := by
    unfold changeParty
    exact (Touches.foldl (fun t x => requestPair_touches_store p r.level t x) _ _).parties.trans
      (withdrawPairs_touches _ _ _).parties
  rw [State.party, h]
  exact State.party_setParty ..

/-- R126, R127: after a change of party p every party holds only wanted pairs. -/
theorem changeParty_partyInv (p : PartyId) (r : Party) (s : State) (hs : StoreInv s) (hp : PartyInv s) :
    PartyInv (changeParty p r s) := by
  rw [partyInv_iff] at hp ⊢
  intro q src d hh
  have hs1 : StoreInv (s.setParty p r) := hs.of_same rfl rfl
  have hparty := changeParty_party p r s
  have hstation : ∀ x, (changeParty p r s).station x = s.station x := fun x => by
    simp [State.station, changeParty_stations]
  have hsat : ∀ u : Party, (changeParty p r s).satisfied u = s.satisfied u := fun u => by
    simp only [State.satisfied, hstation]
  unfold changeParty at hh
  rcases partyHolds_requestPairs (withdrawPairs_storeInv _ _ _ hs1) hh with h | ⟨rfl, x, hx, hxs⟩
  · obtain ⟨h1, h2⟩ := partyHolds_withdrawPairs hs1 h
    have hw := hp q src d h1
    by_cases hq : q = p
    · subst hq
      obtain ⟨x, hx, hxs, hxd⟩ := wanted_iff.1 hw
      have hnow : ((s.satisfied r).any fun y => y.source == x.source && y.dest == x.dest) = true := by
        by_contra hno
        exact h2 rfl x (List.mem_filter.2 ⟨hx, by simpa using hno⟩) ⟨hxs, hxd⟩
      obtain ⟨y, hy, hyx⟩ := List.any_eq_true.1 hnow
      simp only [Bool.and_eq_true, beq_iff_eq] at hyx
      refine wanted_iff.2 ⟨y, ?_, hyx.1.trans hxs, hyx.2.trans hxd⟩
      rw [hparty, if_pos rfl, hsat]
      exact hy
    · exact hw.congr ((hparty q).trans (if_neg hq)) (changeParty_stations p r s)
  · refine wanted_iff.2 ⟨x, ?_, hxs⟩
    rw [hparty, if_pos rfl, hsat]
    exact (List.mem_filter.1 hx).1

/-- R59: a station that is not in use is no party's member. -/
theorem not_member_of_not_inUse {s : State} {t : StationId} (h : s.stationInUse t = false) {p : PartyId} {m : Member}
    (hm : m ∈ (s.party p).members) : m.station ≠ t := by
  rintro rfl
  have h1 : (allOf 16).any (fun p => ((s.party p).find m.station).isSome) = false := by
    unfold State.stationInUse at h
    simp only [Bool.or_eq_false_iff] at h
    exact h.1.1
  have h2 : (allOf 16).any (fun p => ((s.party p).find m.station).isSome) = true :=
    any_allOf _ |>.2 ⟨p, by simpa [Party.find, List.find?_isSome] using ⟨m, hm, rfl⟩⟩
  rw [h1] at h2
  cases h2

theorem partyInv_of_same {s t : State} (he : t.entries = s.entries) (hp : t.parties = s.parties)
    (hst : t.stations = s.stations) (h : PartyInv s) : PartyInv t := by
  rw [partyInv_iff] at h ⊢
  exact fun p src d hh => (h p src d ((PartyHolds.congr he).1 hh)).congr (by simp [State.party, hp]) hst

theorem partyInv_of_holds {s t : State} (hh : ∀ p src d, t.PartyHolds p src d → s.PartyHolds p src d)
    (hp : t.parties = s.parties) (hst : t.stations = s.stations) (h : PartyInv s) : PartyInv t := by
  rw [partyInv_iff] at h ⊢
  exact fun p src d ht => (h p src d (hh p src d ht)).congr (by simp [State.party, hp]) hst

/-- The two forms together: the store's, and that parties hold only wanted pairs. -/
structure StorePartyInv (s : State) : Prop where
  store : StoreInv s
  party : PartyInv s

theorem arrive_storePartyInv {h : Holder} {l : Level} {c : EntryClass} {a : SourceId} {d : DestId} {s : State}
    (hn : ∀ p, h ≠ .party p) (hs : StorePartyInv s) : StorePartyInv (arrive h l c a d s).1 :=
  ⟨arrive_storeInv _ _ _ _ _ _ hs.1, partyInv_of_holds
    (fun p _ _ ht => (partyHolds_arrive hs.1 ht).resolve_right fun hc => hn p hc.1)
    (arrive_touches _ _ _ _ _ _).parties (arrive_touches _ _ _ _ _ _).stations hs.2⟩

theorem depart_storePartyInv {h : Holder} {a : SourceId} {d : DestId} {s : State} (hs : StorePartyInv s) :
    StorePartyInv (depart h a d s) :=
  ⟨depart_storeInv _ _ _ _ hs.1, partyInv_of_holds (fun _ _ _ ht => (partyHolds_depart hs.1 ht).1)
    (depart_touches _ _ _ _).parties (depart_touches _ _ _ _).stations hs.2⟩

theorem writeEntryLevel_storePartyInv (l : Level) (a : SourceId) (d : DestId) (s : State) (hs : StorePartyInv s) :
    StorePartyInv (writeEntryLevel l a d s) :=
  ⟨writeEntryLevel_storeInv _ _ _ _ hs.1, partyInv_of_holds (fun _ _ _ => partyHolds_writeEntryLevel) rfl rfl hs.2⟩

theorem StorePartyInv.of_touches {l : List Fld} {s t : State} (h : Touches l s t)
    (hl : [Fld.entries, .nextSerial, .parties, .stations].all (fun f => !l.contains f) = true) (hs : StorePartyInv s) :
    StorePartyInv t := by
  simp only [List.all_cons, List.all_nil, Bool.and_true, Bool.and_eq_true, Bool.not_eq_true', List.contains_eq_mem,
    decide_eq_false_iff_not] at hl
  obtain ⟨he, hn, hp, hst⟩ := hl
  exact ⟨hs.1.of_same (h.entries he) (h.nextSerial hn), partyInv_of_same (h.entries he) (h.parties hp) (h.stations hst) hs.2⟩

theorem storePartyInv_storeClosed : StoreClosed StorePartyInv where
  other h := .of_touches h (by decide)
  arrive _ _ _ _ _ _ hn := arrive_storePartyInv hn
  depart _ _ _ _ _ := depart_storePartyInv
  level := writeEntryLevel_storePartyInv
  change p r s h := ⟨changeParty_storeInv p r s h.1, changeParty_partyInv p r s h.1 h.2⟩
  assemble before d s h := by
    have ht := assembleDest_touches before d s
    refine ⟨assembleDest_storeInv before d s h.1, partyInv_of_holds (fun p _ j hh => ?_) ht.parties ht.stations h.2⟩
    obtain ⟨e, he, hsrc, hp⟩ := hh
    rw [entriesOf_assembleDest] at he
    split at he
    · rename_i hj
      obtain ⟨x, hx, rfl⟩ := List.mem_map.1 he
      exact ⟨x, hj ▸ (List.mem_filter.1 hx).1, hsrc, hp⟩
    · exact ⟨e, he, hsrc, hp⟩
  clear s h := by
    refine ⟨clearStore_storeInv s h.1, fun d e he p hp => ?_⟩
    rw [show (clearTalk (clearStore s)).entriesOf d = (s.entriesOf d).map Entry.cleared from entriesOf_clearStore s d] at he
    obtain ⟨x, _, rfl⟩ := List.mem_map.1 he
    rw [Entry.cleared_eq] at hp
    cases hp
  station t r s hu h := by
    refine ⟨h.1.of_same rfl rfl, fun d e he p hp => ?_⟩
    obtain ⟨hen, a, ha, b, hb, hne, ht, hsrc, hl, hd⟩ := h.2 d e he p hp
    refine ⟨hen, a, ha, b, hb, hne, ht, ?_, hl, ?_⟩
    · rw [State.station_setStation, if_neg (not_member_of_not_inUse hu ha)]; exact hsrc
    · rw [State.station_setStation, if_neg (not_member_of_not_inUse hu hb)]; exact hd
  tap := writeTap_keeps_of (fun h => .of_touches h (by decide))
    (fun _ _ _ _ _ _ => arrive_storePartyInv (by simp)) (fun _ _ _ _ => depart_storePartyInv)
    writeEntryLevel_storePartyInv
  blank ph st dr pe := by
    refine ⟨blank_storeInv ph st dr pe, fun d e he => ?_⟩
    rw [show (State.blank ph st dr pe).entriesOf d = [] from tget_replicate _ _] at he
    cases he

/-- Settles O10: each move keeps the store's form and that parties hold only wanted pairs, so every step does. -/
theorem partyHoldersKept : Obligations.PartyHoldersKept := fun _ _ hs hp hst =>
  (step_keeps storePartyInv_storeClosed ⟨hs, hp⟩ hst).2

end Sys2Proof.Machine
end

section
/-! PROOF. STATUS_READ and STATUS_CLEAR (R198), RESTART and the unlisted codes (R39, R28), and the simple record writes:
REFERENCE_SELECT (R19), SOURCE_WRITE (R46), EVENT_WRITE (R198). -/

namespace Sys2Proof.Machine

/-! ## STATUS_READ, STATUS_CLEAR -/

theorem event_clearKinds (kinds : BitVec 16) (s : State) (k : EventKind) :
    (clearKinds kinds s).event k = if kinds.getLsbD k.number.val then (s.event k).cleared else s.event k := by
  have hfold : ∀ (l : List EventKind) (u : State),
      (l.foldl (fun t k => if kinds.getLsbD k.number.val then t.setEvent k (t.event k).cleared else t) u).event k =
        if k ∈ l ∧ kinds.getLsbD k.number.val = true then (u.event k).cleared else u.event k := by
    intro l
    induction l with
    | nil => simp
    | cons j l ih =>
      intro u
      rw [List.foldl_cons, ih]
      by_cases hj : kinds.getLsbD j.number.val = true
      · rw [if_pos hj, State.event_setEvent]
        by_cases hk : k = j
        · subst hk
          simp [hj, Event.cleared]
        · simp [hk]
      · rw [if_neg hj]
        by_cases hk : k = j
        · subst hk; simp [hj]
        · simp [hk]
  unfold clearKinds
  rw [hfold]
  simp [mem_allKinds]

/-- Settles O32: STATUS_READ is one reply; STATUS_CLEAR clears the named kinds and replies. -/
theorem statusOrdersAnswer : Obligations.StatusOrdersAnswer := by
  intro tag kinds s names
  have halarm : BitVec.ofNat 8 (ofBool (takeHead s).alarmActive) = if s.alarmActive = true then (1 : Byte) else 0 := by
    change BitVec.ofNat 8 (ofBool s.alarmActive) = _
    cases s.alarmActive <;> rfl
  refine ⟨fun hs => ⟨fun hk => ?_, fun hk => ?_⟩, fun hs => ⟨fun hk => ?_, fun hk => ?_⟩⟩
  · obtain ⟨t, ht, ha⟩ := order_replies (c := 14) (r := .ok) (mark := markByte true 0)
      (body := statusReadUnit tag kinds) hs (if_neg (by rw [hk]; decide)) (by simp [allKinds])
    refine ⟨t, ht, ha.layout ?_⟩
    rw [halarm, markByte_final]
    simp only [stated_append, List.append_assoc]
    rfl
  · obtain ⟨t, ht, ha⟩ := order_replies (c := 14) (r := .badValue) (mark := markByte true 0)
      (body := statusReadUnit tag kinds) hs (if_pos hk) (by simp)
    refine ⟨t, ht, ha.layout ?_⟩
    rw [halarm, markByte_final]
    simp only [List.append_assoc]
    rfl
  · have htouch := clearKinds_touches kinds (takeHead s)
    obtain ⟨t, ht, ha, hu⟩ := order_works_quiet (c := 15) (r := .ok) (mark := markByte true 0)
      (rest := stated (List.replicate 25 0)) (body := statusClearUnit tag kinds) hs (if_neg (by rw [hk]; decide)) htouch
      (by decide) htouch.unitKept (by simp)
    refine ⟨t, ht, ha.layout (by rw [markByte_final]; rfl), fun k => ?_⟩
    have he : t.event k = (clearKinds kinds (takeHead s)).event k := by simp [State.event, hu.events]
    rw [he, event_clearKinds]
    rfl
  · obtain ⟨t, ht, ha⟩ := order_replies (c := 15) (r := .badValue) (mark := markByte true 0)
      (body := statusClearUnit tag kinds) hs (if_pos hk) (by simp)
    exact ⟨t, ht, ha.layout (by rw [markByte_final]; rfl)⟩

/-! ## RESTART -/

theorem not_unitFree_of_marked {u : State} (h : u.restart = .marked) : u.unitFree = false := by
  simp [State.unitFree, h]

/-- Settles O34: RESTART's unit is the mark alone; on a marked part the order unit is not free. -/
theorem restartAndUnlisted : Obligations.RestartAndUnlisted := by
  intro tag code s
  refine ⟨fun hs => ⟨restartUnit (takeHead s), (order_taken hs.1).trans (congrArg _ (flushLamps_settled hs.2.1)), rfl,
    (takeHead_taken s).congr rfl rfl rfl, ?_, fun u hu => ⟨?_, fun tag' o => ?_⟩⟩, fun hs _ => ?_⟩
  · exact (takeHead_touches s).up.trans (restartUnit_touches _).up
  · simp [State.stepReady, not_unitFree_of_marked hu]
  · simp [State.orderReady, not_unitFree_of_marked hu]
  · obtain ⟨t, ht, ha⟩ := order_replies (c := code) (r := .badValue) (mark := markByte true 0)
      (body := plainReply tag (.unlisted code) .badValue) hs rfl (by simp)
    exact ⟨t, ht, ha.layout (by rw [markByte_final]; rfl)⟩

/-! ## A write row that is taken -/

/-- What the taking of a write row leaves in t, where its record's write leaves u: the answer, all else as u has it but for
the lamps to be sent. -/
structure RowTaken (s u t : State) (tn : TableName) (tag : Byte) (index : BitVec 16) (r : Result) (l : List Fld) :
    Prop where
  wrote : Wrote s t tn tag index r (.panels :: l)
  rest : Touches [.replies, .draws, .panels, .lampDirty] u t
  panels : PanelsButLamps u t

/-- R31: the row's RECORD_WRITE is answered with the result of its record's write, on the state u that write leaves. -/
theorem row_wrote {tn : TableName} {isRow : Nat → List FieldValue → Bool} {tag : Byte} {index : BitVec 16}
    {mask : BitVec 32} {values : List Byte} {s u : State} {r : Result} {l : List Fld}
    (hs : WriteReady s tn tag index mask values) (hr : isRow index.toNat (writtenValues tn index mask values) = true)
    (hw : writeRecord tn index.toNat (writtenValues tn index mask values) (takeHead s) = (u, r))
    (hu : Touches (.lampDirty :: l) (takeHead s) u) :
    ∃ t, writeRow tn isRow tag index mask values s = .next t ∧ RowTaken s u t tn tag index r l := by
  have hkept := writeRecord_unitKept tn index.toNat (writtenValues tn index mask values) (takeHead s)
  rw [hw] at hkept
  obtain ⟨t, ht, ha, h1, h2⟩ := order_works (c := 2) (r := r) (mark := markByte true 0)
    (rest := stated (tn.code :: bytesOfNat 2 index.toNat) ++ unstated 2 ++ valueArea [])
    (body := writeUnit tag tn.code index mask values) hs.1
    (by rw [writeUnit_of_ok hs.2.1 hs.2.2, hw]; rfl) hu hkept (by simp)
  rw [writeRow_taken hr]
  refine ⟨t, ht, ha.layout ?_, h1, h2⟩
  rw [valueArea_nil, markByte_final]
  simp [writeLayout, stated]

/-- The same for a write that hands no key to the lamp unit. -/
theorem row_wrote_quiet {tn : TableName} {isRow : Nat → List FieldValue → Bool} {tag : Byte} {index : BitVec 16}
    {mask : BitVec 32} {values : List Byte} {s u : State} {r : Result} {l : List Fld}
    (hs : WriteReady s tn tag index mask values) (hr : isRow index.toNat (writtenValues tn index mask values) = true)
    (hw : writeRecord tn index.toNat (writtenValues tn index mask values) (takeHead s) = (u, r))
    (hu : Touches l (takeHead s) u) (hd : .lampDirty ∉ l) :
    ∃ t, writeRow tn isRow tag index mask values s = .next t ∧ Wrote s t tn tag index r l ∧
      Touches [.replies, .draws] u t := by
  have hkept := writeRecord_unitKept tn index.toNat (writtenValues tn index mask values) (takeHead s)
  rw [hw] at hkept
  obtain ⟨t, ht, ha, h1⟩ := order_works_quiet (c := 2) (r := r) (mark := markByte true 0)
    (rest := stated (tn.code :: bytesOfNat 2 index.toNat) ++ unstated 2 ++ valueArea [])
    (body := writeUnit tag tn.code index mask values) hs.1
    (by rw [writeUnit_of_ok hs.2.1 hs.2.2, hw]; rfl) hu hd hkept (by simp)
  rw [writeRow_taken hr]
  refine ⟨t, ht, ha.layout ?_, h1⟩
  rw [valueArea_nil, markByte_final]
  simp [writeLayout, stated]

/-- A refused write changes nothing. -/
theorem row_refused {tn : TableName} {isRow : Nat → List FieldValue → Bool} {tag : Byte} {index : BitVec 16}
    {mask : BitVec 32} {values : List Byte} {s : State} {r : Result}
    (hs : WriteReady s tn tag index mask values) (hr : isRow index.toNat (writtenValues tn index mask values) = true)
    (hw : writeRecord tn index.toNat (writtenValues tn index mask values) (takeHead s) = (takeHead s, r)) :
    ∃ t, writeRow tn isRow tag index mask values s = .next t ∧ Wrote s t tn tag index r [] := by
  obtain ⟨t, ht, ha, _⟩ := row_wrote_quiet (l := []) hs hr hw (Touches.refl _ _) (by simp)
  exact ⟨t, ht, ha⟩

/-- Where the written index is that of a record, the write is the record's. -/
theorem atIndex_val {n i : Nat} {j : Fin n} (h : i = j.val) (w : Fin n → State → Written) (s : State) :
    atIndex n i w s = w j s := by
  subst h; exact atIndex_of_lt j.isLt w s

theorem Raised.congr {s t t' : State} {k : EventKind} {i : Option Nat} (h : Raised s t k i) (he : t'.events = t.events)
    (hn : t'.notices = t.notices) : Raised s t' k i := by
  have hev : ∀ j, t'.event j = t.event j := fun j => by simp [State.event, he]
  obtain ⟨h1, h2, h3⟩ := h
  exact ⟨(hev k).trans h1, fun j hj => (hev j).trans (h2 j hj), hn.trans h3⟩

theorem names_of_lookup {l : List FieldValue} {f v : Nat} (h : l.lookup f = some v) : names l f = true := by
  cases hn : names l f with
  | true => rfl
  | false => rw [lookup_of_not_named hn] at h; cases h

/-! ## REFERENCE_SELECT -/

theorem writeReference_of_lookup {l : List FieldValue} {v : Nat} {r : RefSource} (hl : l.lookup 0 = some v)
    (hr : refSources[v]? = some r) (s : State) : writeReference l s = (selectReference r s, .ok) := by
  simp [writeReference, enumField, hl, hr]

theorem selectReference_present {r : RefSource} {s : State} (h : s.refPresent r = true) :
    selectReference r s =
      { s with timing :=
          { s.timing with selected := r, pending := if s.timing.active = r then none else some r } } := if_pos h

theorem selectReference_absent {r : RefSource} {s : State} (h : s.refPresent r = false) :
    selectReference r s =
      raise .referenceLost none
        { s with timing :=
            { s.timing with selected := r,
                            pending := if s.timing.active = .internal then none else some .internal } } :=
  if_neg (by simp [h])

/-- Outside a boundary the choice of a reference draws nothing. -/
theorem selectReference_touches_settled (r : RefSource) {s : State} (hs : s.timing.atBoundary = false) :
    Touches [.reference, .events, .notices] s (selectReference r s) := by
  cases hp : s.refPresent r with
  | true =>
    rw [selectReference_present hp]
    exact (reference_touches _ _ (by rfl) (by rfl) (by rfl) (by rfl) (by rfl)).up
  | false =>
    rw [selectReference_absent hp]
    have hsel : Touches [.reference] s
        { s with timing :=
            { s.timing with selected := r, pending := if s.timing.active = .internal then none else some .internal } } :=
      reference_touches _ _ rfl rfl rfl rfl rfl
    exact (hsel.up (m := [.reference, .events, .notices])).trans
      (Touches.up (raise_touches_settled .referenceLost none (s := { s with timing := _ }) hs))

theorem selectReference_raised {r : RefSource} {s : State} (hp : s.refPresent r = false)
    (hs : s.timing.atBoundary = false) : Raised s (selectReference r s) .referenceLost none := by
  rw [selectReference_absent hp]
  exact raise_raised .referenceLost none (s := _) hs

/-- Settles O36: the write of PORT 4 is `selectReference`. -/
theorem referenceSelectTakesEffect : Obligations.ReferenceSelectTakesEffect := by
  intro tag index mask values v s hs hi hl
  have hrow : isReferenceSelect index.toNat (writtenValues .port index mask values) = true := by
    simp [isReferenceSelect, hi, names_of_lookup hl]
  have hrec : ∀ u, writeRecord .port index.toNat (writtenValues .port index mask values) u =
      writeReference (writtenValues .port index mask values) u := fun u => if_pos hi
  refine ⟨fun r hr => ?_, fun hv => ?_⟩
  · have hw := (hrec (takeHead s)).trans (writeReference_of_lookup hl hr _)
    cases hp : s.refPresent r with
    | true =>
      rw [selectReference_present (s := takeHead s) hp] at hw
      obtain ⟨t, ht, ha, hu⟩ := row_wrote_quiet (l := [.reference]) (isRow := isReferenceSelect) hs hrow hw
        (reference_touches _ _ rfl rfl rfl rfl rfl) (by decide)
      have htm := hu.timing
      refine ⟨t, ht, ?_, by rw [htm], by rw [htm]; rfl, fun _ => ⟨by rw [htm]; rfl, hu.events⟩, fun hno => by cases hno⟩
      exact ⟨ha.1, ha.2.1, ha.2.2.mono (by simp)⟩
    | false =>
      have hsel := selectReference_touches_settled r (s := takeHead s) hs.1.2.2
      rw [selectReference_absent (s := takeHead s) hp] at hw hsel
      obtain ⟨t, ht, ha, hu⟩ := row_wrote_quiet (l := [.reference, .events, .notices]) (isRow := isReferenceSelect) hs
        hrow hw
        hsel (by decide)
      have htm := hu.timing.trans (raise_timing ..)
      refine ⟨t, ht, ha, by rw [htm], by rw [htm]; rfl, fun hno => absurd hno Bool.false_ne_true, fun _ => ⟨by rw [htm]; rfl, ?_⟩⟩
      have hraised := selectReference_raised (s := takeHead s) hp hs.1.2.2
      rw [selectReference_absent (s := takeHead s) hp] at hraised
      exact hraised.congr hu.events hu.notices
  · have hw : writeRecord .port index.toNat (writtenValues .port index mask values) (takeHead s) =
        (takeHead s, .badValue) := by
      refine (hrec _).trans (writeReference_of_none ?_)
      have : refSources[v]? = none := List.getElem?_eq_none hv
      simp [enumField, hl, this]
    exact row_refused hs hrow hw

/-! ## SOURCE_WRITE -/

theorem natOfBytes_lt (l : List Byte) : natOfBytes l < 256 ^ l.length := by
  have h : ∀ (l : List Byte) (n : Nat), l.foldl (fun n b => n * 256 + b.toNat) n < (n + 1) * 256 ^ l.length := by
    intro l
    induction l with
    | nil => intro n; simp
    | cons b l ih =>
      intro n
      refine (ih _).trans_le ?_
      dsimp only
      have hb := b.isLt
      have hstep : n * 256 + b.toNat + 1 ≤ (n + 1) * 256 := by omega
      calc (n * 256 + b.toNat + 1) * 256 ^ l.length ≤ (n + 1) * 256 * 256 ^ l.length := Nat.mul_le_mul_right _ hstep
        _ = (n + 1) * 256 ^ (b :: l).length := by rw [List.length_cons, Nat.pow_succ]; ring
  simpa [natOfBytes] using h l 0

/-- A carried value fits the bytes of its field. -/
theorem lookup_unpack_lt {w : List Nat} {fs : List Nat} {bs : List Byte} {f v : Nat}
    (h : (unpack w fs bs).lookup f = some v) : v < 256 ^ w.getD f 0 := by
  induction fs generalizing bs with
  | nil => cases h
  | cons g fs ih =>
    unfold unpack at h
    dsimp only at h
    rw [List.lookup_cons] at h
    split at h
    · rename_i hg
      cases h
      rw [beq_iff_eq.1 hg]
      have := natOfBytes_lt (slice bs 0 (w.getD g 0))
      rwa [slice_length] at this
    · exact ih h

theorem lookup_writtenValues_lt {tn : TableName} {index : BitVec 16} {mask : BitVec 32} {values : List Byte} {f v : Nat}
    (h : (writtenValues tn index mask values).lookup f = some v) : v < 256 ^ (tn.widths index.toNat).getD f 0 :=
  lookup_unpack_lt h

/-- A number whose bytes cannot hold more than its range is never refused. -/
theorem numberField_of_fits {l : List FieldValue} {f old top : Nat} (h : ∀ v, l.lookup f = some v → v ≤ top) :
    numberField l f old top = some ((l.lookup f).getD old) := by
  unfold numberField
  cases hl : l.lookup f with
  | none => rfl
  | some v => simp [h v hl]

/-- Settles O37: the record takes its named fields. -/
theorem sourceWritesTakeEffect : Obligations.SourceWritesTakeEffect := by
  intro tag index mask values n s hs hi l hrow
  have hrec : ∀ u, writeRecord .source index.toNat l u = writeSource n l u := fun u => atIndex_val hi _ u
  have hgap : numberField l 5 (s.source n).gapCounter 65535 = some ((l.lookup 5).getD (s.source n).gapCounter) :=
    numberField_of_fits fun v hv => Nat.le_of_lt_succ (lookup_writtenValues_lt hv)
  refine ⟨fun e he => ?_, fun he => ?_⟩
  · have hw : writeRecord .source index.toNat l (takeHead s) = ((takeHead s).setSource n
        { s.source n with enabled := e, trim := levelField l 1 (s.source n).trim,
                          gapCounter := (l.lookup 5).getD (s.source n).gapCounter }, .ok) := by
      rw [hrec]
      unfold writeSource Source.updated
      rw [show (takeHead s).source n = s.source n from rfl, he, hgap]
    obtain ⟨t, ht, ha, hu⟩ := row_wrote_quiet (isRow := isSourceWrite) hs hrow hw (setSource_touches _ _ _) (by decide)
    have hsrc : ∀ m, t.source m = _ := fun m => (congrArg (tget · m) hu.sources).trans (State.source_setSource _ n _ m)
    exact ⟨t, ht, ha, (hsrc n).trans (if_pos rfl), fun m hm => (hsrc m).trans (if_neg hm)⟩
  · refine row_refused hs hrow ((hrec _).trans (writeSource_of_none ?_))
    rw [show (takeHead s).source n = s.source n from rfl, Source.updated_isNone, he]
    rfl

/-! ## EVENT_WRITE -/

theorem State.orderReady_running {s : State} {tag : Byte} {o : Order} (h : s.orderReady tag o = true) :
    s.phase = .running := by
  simp only [State.orderReady, State.unitFree, Bool.and_eq_true, beq_iff_eq] at h
  exact h.1.1.1.1.1

/-- Settles O46: enable and route take their values; the alarm line follows the record. -/
theorem eventWritesTakeEffect : Obligations.EventWritesTakeEffect := by
  intro tag index mask values k s hs hi l hrow
  have hrec : ∀ u, writeRecord .event index.toNat l u = writeEvent k.number l u := fun u => atIndex_val hi _ u
  refine ⟨fun e x he hx => ?_, fun hbad => ?_⟩
  · have hw : writeRecord .event index.toNat l (takeHead s) =
        ((takeHead s).setEvent k { s.event k with enable := e, route := x }, .ok) := by
      rw [hrec]
      unfold writeEvent Event.updated
      rw [show tget (takeHead s).events k.number = s.event k from rfl, he, hx]
      rfl
    obtain ⟨t, ht, ha, hu⟩ := row_wrote_quiet (isRow := isEventWrite) hs hrow hw (setEvent_touches _ _ _) (by decide)
    have hev : ∀ j, t.event j = _ := fun j =>
      (congrArg (tget · j.number) hu.events).trans (State.event_setEvent _ k _ j)
    have hk := (hev k).trans (if_pos rfl)
    refine ⟨t, ht, ha, hk, fun j hj => (hev j).trans (if_neg hj), fun hset he hx => ?_⟩
    refine t.alarmActive_iff.2 ⟨?_, k, (Event.alarming_iff _).2 ?_⟩
    · exact (hu .phase (by decide)).trans (State.orderReady_running (s := s) hs.1.1)
    · rw [hk]; exact ⟨hset, he, hx⟩
  · refine row_refused hs hrow ((hrec _).trans (writeEvent_of_none ?_))
    rw [show tget (takeHead s).events k.number = s.event k from rfl, Event.updated_isNone]
    rcases hbad with h | h <;> simp [h]

end Sys2Proof.Machine
end

section
/-! PROOF. The mix arithmetic (R82 to R93), the probe tags (R162) and the lamp of a key (R186, R187). -/

namespace Sys2Proof.Machine

/-! ## Probe tags -/

theorem getLsbD_nextTag (t : BitVec 15) (i : Nat) :
    (nextTag t).getLsbD i =
      if i = 0 then t.getLsbD 14 ^^ t.getLsbD 13 else decide (i < 15) && t.getLsbD (i - 1) := by
  unfold nextTag
  cases i with
  | zero => simp
  | succ i => simp

theorem nextTag_toNat (t : BitVec 15) :
    (nextTag t).toNat = t.toNat * 2 % 32768 + if t.getLsbD 14 = t.getLsbD 13 then 0 else 1 := by
  have hbit : ((BitVec.ofBool (t.getLsbD 14 ^^ t.getLsbD 13)).setWidth 15).toNat =
      if t.getLsbD 14 = t.getLsbD 13 then 0 else 1 := by
    cases t.getLsbD 14 <;> cases t.getLsbD 13 <;> rfl
  have hshift : t.toNat <<< 1 % 2 ^ 15 = (t.toNat % 2 ^ 14) <<< 1 := by
    rw [Nat.shiftLeft_eq, Nat.shiftLeft_eq]; omega
  have hor : (nextTag t).toNat = (t.toNat % 2 ^ 14) <<< 1 + if t.getLsbD 14 = t.getLsbD 13 then 0 else 1 := by
    rw [nextTag, BitVec.toNat_or, BitVec.toNat_shiftLeft, hbit, hshift]
    refine (Nat.shiftLeft_add_eq_or_of_lt ?_ _).symm
    split <;> omega
  rw [hor, Nat.shiftLeft_eq]
  omega

theorem nextTag_injective {a b : BitVec 15} (h : nextTag a = nextTag b) : a = b := by
  have hbit : ∀ i, (nextTag a).getLsbD i = (nextTag b).getLsbD i := fun i => by rw [h]
  have hlow : ∀ i < 14, a.getLsbD i = b.getLsbD i := fun i hi => by
    have := hbit (i + 1)
    rw [getLsbD_nextTag, getLsbD_nextTag] at this
    simpa [show i + 1 < 15 by omega] using this
  have htop : a.getLsbD 14 = b.getLsbD 14 := by
    have := hbit 0
    rw [getLsbD_nextTag, getLsbD_nextTag, if_pos rfl, if_pos rfl, hlow 13 (by decide)] at this
    revert this
    generalize a.getLsbD 14 = x, b.getLsbD 14 = y, b.getLsbD 13 = z
    revert x y z
    decide
  refine BitVec.eq_of_getLsbD_eq fun i hi => ?_
  rcases Nat.lt_or_eq_of_le (Nat.le_of_lt_succ hi) with h' | rfl
  · exact hlow i h'
  · exact htop

/-- The bits of a tag that is its own k-th successor repeat with period k. -/
theorem getLsbD_of_period {t : BitVec 15} {k : Nat} (hk : 0 < k)
    (hper : ∀ i < 15, k ≤ i → t.getLsbD i = t.getLsbD (i - k)) : ∀ i < 15, t.getLsbD i = t.getLsbD (i % k) := by
  intro i
  induction i using Nat.strong_induction_on with
  | _ i ih =>
    intro hi
    rcases Nat.lt_or_ge i k with h | h
    · rw [Nat.mod_eq_of_lt h]
    · rw [hper i hi h, ih (i - k) (by omega) (by omega), Nat.mod_eq_sub_mod h]

theorem eq_zero_of_period {t : BitVec 15} {k : Nat} (hk : 0 < k)
    (hper : ∀ i < 15, k ≤ i → t.getLsbD i = t.getLsbD (i - k)) (hlow : ∀ i < k, t.getLsbD i = false) : t = 0 := by
  refine BitVec.eq_of_getLsbD_eq fun i hi => ?_
  rw [getLsbD_of_period hk hper i hi, hlow _ (Nat.mod_lt i hk)]
  exact BitVec.getLsbD_zero.symm

/-- A tag that returns after one, two or three steps is 0: its bits repeat, and the folded bits force each to 0. -/
theorem nextTag_periodic {t : BitVec 15}
    (h : nextTag t = t ∨ nextTag (nextTag t) = t ∨ nextTag (nextTag (nextTag t)) = t) : t = 0 := by
  rcases h with h | h | h
  all_goals have hbit := fun i => congrArg (BitVec.getLsbD · i) h
  all_goals simp only [getLsbD_nextTag] at hbit
  · have hper : ∀ i < 15, 1 ≤ i → t.getLsbD i = t.getLsbD (i - 1) := fun i hi h1 => by
      simpa [hi, show i ≠ 0 by omega] using (hbit i).symm
    have hmod := getLsbD_of_period (by decide) hper
    have h0 : t.getLsbD 0 = (t.getLsbD 14 ^^ t.getLsbD 13) := (hbit 0).symm
    rw [hmod 14 (by decide), hmod 13 (by decide), Bool.xor_self] at h0
    refine eq_zero_of_period (by decide) hper fun i hi => ?_
    rwa [Nat.lt_one_iff.1 hi]
  · have hper : ∀ i < 15, 2 ≤ i → t.getLsbD i = t.getLsbD (i - 2) := fun i hi h1 => by
      simpa [hi, show i ≠ 0 by omega, show i - 1 ≠ 0 by omega, show i - 1 < 15 by omega, Nat.sub_sub] using
        (hbit i).symm
    have hmod := getLsbD_of_period (by decide) hper
    have h0 : t.getLsbD 0 = (t.getLsbD 13 ^^ t.getLsbD 12) := (hbit 0).symm
    have h1 : t.getLsbD 1 = (t.getLsbD 14 ^^ t.getLsbD 13) := (hbit 1).symm
    rw [hmod 13 (by decide), hmod 12 (by decide)] at h0
    rw [hmod 14 (by decide), hmod 13 (by decide)] at h1
    have hfalse : ∀ a b : Bool, a = (b ^^ a) → b = (a ^^ b) → a = false ∧ b = false := by decide
    obtain ⟨z0, z1⟩ := hfalse _ _ h0 h1
    refine eq_zero_of_period (by decide) hper fun i hi => ?_
    interval_cases i <;> assumption
  · have hper : ∀ i < 15, 3 ≤ i → t.getLsbD i = t.getLsbD (i - 3) := fun i hi h1 => by
      simpa [hi, show i ≠ 0 by omega, show i - 1 ≠ 0 by omega, show i - 1 < 15 by omega, show i - 2 ≠ 0 by omega,
        show i - 2 < 15 by omega, Nat.sub_sub] using (hbit i).symm
    have hmod := getLsbD_of_period (by decide) hper
    have h0 : t.getLsbD 0 = (t.getLsbD 12 ^^ t.getLsbD 11) := (hbit 0).symm
    have h1 : t.getLsbD 1 = (t.getLsbD 13 ^^ t.getLsbD 12) := (hbit 1).symm
    have h2 : t.getLsbD 2 = (t.getLsbD 14 ^^ t.getLsbD 13) := (hbit 2).symm
    rw [hmod 12 (by decide), hmod 11 (by decide)] at h0
    rw [hmod 13 (by decide), hmod 12 (by decide)] at h1
    rw [hmod 14 (by decide), hmod 13 (by decide)] at h2
    have hfalse : ∀ a b c : Bool, a = (a ^^ c) → b = (b ^^ a) → c = (c ^^ b) →
        a = false ∧ b = false ∧ c = false := by decide
    obtain ⟨z0, z1, z2⟩ := hfalse _ _ _ h0 h1 h2
    refine eq_zero_of_period (by decide) hper fun i hi => ?_
    interval_cases i <;> assumption

/-- Settles O60. -/
theorem tagsRun : Obligations.TagsRun := by
  intro a b
  have hzero : nextTag 0 = 0 := by decide
  have hne : ∀ t : BitVec 15, t ≠ 0 → nextTag t ≠ 0 := fun t ht h => ht (nextTag_injective (h.trans hzero.symm))
  refine ⟨nextTag_toNat a, nextTag_injective, fun ha => ⟨hne a ha, ?_⟩⟩
  have h1 := hne a ha
  have h2 := hne _ h1
  have step1 : ∀ t : BitVec 15, t ≠ 0 → t ≠ nextTag t := fun t ht h => ht (nextTag_periodic (.inl h.symm))
  have step2 : ∀ t : BitVec 15, t ≠ 0 → t ≠ nextTag (nextTag t) :=
    fun t ht h => ht (nextTag_periodic (.inr (.inl h.symm)))
  have step3 : a ≠ nextTag (nextTag (nextTag a)) := fun h => ha (nextTag_periodic (.inr (.inr h.symm)))
  simp [step1 a ha, step1 _ h1, step1 _ h2, step2 a ha, step2 _ h1, step3]

/-! ## Mix arithmetic -/

theorem factor_of_pos {l : Level} (h : l.val ≠ 0) : factor l = (16 + l.val % 16) * 2 ^ (l.val / 16) := if_neg h

theorem factor_lt_succ (i : Fin 159) : factor i.castSucc < factor i.succ := by
  rw [factor_of_pos (l := i.succ) (Nat.succ_ne_zero i.val), Fin.val_succ]
  have hpow : 0 < 2 ^ (i.val / 16) := Nat.two_pow_pos _
  rcases Nat.eq_zero_or_pos i.val with h0 | h0
  · have : factor i.castSucc = 0 := if_pos h0
    rw [this, h0]
    decide
  · rw [factor_of_pos (l := i.castSucc) (Nat.ne_of_gt h0), Fin.val_castSucc]
    by_cases h15 : i.val % 16 = 15
    · have hm : (i.val + 1) % 16 = 0 := by omega
      have hq : (i.val + 1) / 16 = i.val / 16 + 1 := by omega
      rw [hm, hq, h15, Nat.pow_succ]
      omega
    · have hm : (i.val + 1) % 16 = i.val % 16 + 1 := by omega
      have hq : (i.val + 1) / 16 = i.val / 16 := by omega
      rw [hm, hq]
      exact Nat.mul_lt_mul_of_pos_right (by omega) hpow

theorem factor_strictMono {a b : Level} (h : a < b) : factor a < factor b :=
  Fin.strictMono_iff_lt_succ.2 factor_lt_succ h

theorem combine_val (a b : Level) :
    (combine a b).val = if a.val = 0 ∨ b.val = 0 then 0 else min (a.val + b.val - 128) 159 := by
  unfold combine
  split <;> rfl

theorem combine_comm (a b : Level) : combine a b = combine b a := by
  refine Fin.ext ?_
  simp only [combine_val, Nat.add_comm b.val, Or.comm (a := b.val = 0)]

theorem combine_neutral (a : Level) : combine a 128 = a := by
  refine Fin.ext ?_
  have h128 : (128 : Level).val = 128 := rfl
  have ha := a.isLt
  rw [combine_val, h128]
  split <;> omega

/-- The part of the way from a to t that sample n has taken, for a rising and (negated) for a falling ramp. -/
theorem ramp_of_le {a t : Nat} (h : a ≤ t) (n : Nat) :
    ramp a t n = a + (((t - a) * (n + 1) / 48 : Nat) : Int) := by
  have hd : ((t : Int) - a) * ((n : Int) + 1) = (((t - a) * (n + 1) : Nat) : Int) := by push_cast [h]; ring
  rw [ramp, hd]
  norm_cast

theorem ramp_of_ge {a t : Nat} (h : t ≤ a) (n : Nat) :
    ramp a t n = a - (((a - t) * (n + 1) / 48 : Nat) : Int) := by
  have hd : ((t : Int) - a) * ((n : Int) + 1) = -(((a - t) * (n + 1) : Nat) : Int) := by push_cast [h]; ring
  rw [ramp, hd, Int.neg_tdiv, sub_eq_add_neg]
  norm_cast

/-- A step of a ramp over a distance d: within the distance, whole at sample 47, and at most 331 a sample. -/
theorem ramp_share {d n : Nat} (hd : d ≤ 15872) (hn : n < 48) :
    d * 48 / 48 = d ∧ d * (n + 1) / 48 ≤ d ∧ d * (n + 1) / 48 ≤ d * (n + 1 + 1) / 48 ∧
      d * (n + 1 + 1) / 48 ≤ d * (n + 1) / 48 + 331 := by
  have hle : d * (n + 1) ≤ d * 48 := Nat.mul_le_mul_left d hn
  have hnext : d * (n + 1 + 1) = d * (n + 1) + d := Nat.mul_succ d (n + 1)
  omega

theorem ramp_bounds {a t n : Nat} (ha : a ≤ 15872) (ht : t ≤ 15872) (hn : n < 48) :
    ramp a t 47 = t ∧ (min a t : Nat) ≤ ramp a t n ∧ ramp a t n ≤ ((max a t : Nat) : Int) ∧
      (ramp a t (n + 1) - ramp a t n).natAbs ≤ 331 := by
  rcases le_total a t with h | h
  · obtain ⟨h1, h2, h3, h4⟩ := ramp_share (d := t - a) (n := n) (by omega) hn
    rw [ramp_of_le h, ramp_of_le h, ramp_of_le h]
    omega
  · obtain ⟨h1, h2, h3, h4⟩ := ramp_share (d := a - t) (n := n) (by omega) hn
    rw [ramp_of_ge h, ramp_of_ge h, ramp_of_ge h]
    omega

theorem roundShift_iff (x y : Int) : roundShift x = y ↔ 4096 * y - 2048 ≤ x ∧ x < 4096 * y + 2048 := by
  unfold roundShift; omega

/-- Settles O58. -/
theorem mixArithmetic : Obligations.MixArithmetic := by
  refine ⟨⟨fun a b => factor_strictMono, by decide, by decide, fun a b => ⟨combine_neutral a, combine_comm a b, ?_⟩⟩,
    fun a t n ha ht hn => ?_, ⟨fun a t n => ?_, roundShift_iff, fun z => ?_⟩, fun before s d => ?_⟩
  · have hzero : ∀ l : Level, l = 0 ↔ l.val = 0 := fun l => Fin.ext_iff
    simp only [combine_val, hzero]
    split <;> omega
  · obtain ⟨h1, h2, h3, h4⟩ := ramp_bounds ha ht hn
    exact ⟨h1, h2, h3, fun _ => h4⟩
  · have hround : roundShift 0 = 0 := by decide
    simp [mixZ, mixSum, hround, saturate]
  · unfold saturate; omega
  · intro ramped
    refine ⟨by simp [State.destZ], fun n hn => ⟨roundShift (mixSum (s.contributions before d) n), _,
      (roundShift_iff _ _).1 rfl, (roundShift_iff _ _).1 rfl, ?_⟩⟩
    simp only [State.destZ, List.getElem?_map, List.getElem?_range hn, Option.map_some]
    rfl

/-! ## The lamp of a key -/

theorem KeyState.isOn_iff (st : KeyState) :
    st.isOn = true ↔ st = .pressed ∨ st = .momentaryOn ∨ st = .latched := by cases st <;> decide

theorem KeyFunction.targetsStation_iff (f : KeyFunction) :
    f.targetsStation = true ↔ f ∈ [KeyFunction.talkStation, .listenStation, .callStation] := by
  cases f <;> decide

theorem KeyFunction.talksOrListens_iff (f : KeyFunction) :
    f.talksOrListens = true ↔ f ∈ [KeyFunction.talkStation, .listenStation] := by cases f <;> decide

theorem indexIn_eq_some {n i : Nat} {j : Fin n} : indexIn n i = some j ↔ i = j.val := by
  unfold indexIn
  split
  · rename_i h
    simp [Fin.ext_iff]
  · rename_i h
    simp only [reduceCtorEq, false_iff]
    rintro rfl
    exact h j.isLt

theorem Key.targetStation_iff {r : Key} {x : StationId} :
    r.targetStation = some x ↔ r.function.targetsStation = true ∧ ∃ n, r.target = some n ∧ n.val = x.val := by
  unfold Key.targetStation asStation
  split
  · rename_i h
    simp [h, Option.bind_eq_some_iff, indexIn_eq_some]
  · rename_i h
    simp [h]

theorem Key.targetParty_iff {r : Key} {p : PartyId} :
    r.targetParty = some p ↔ r.function = .talkParty ∧ ∃ n, r.target = some n ∧ n.val = p.val := by
  unfold Key.targetParty asParty
  split
  · rename_i h
    simp [h, Option.bind_eq_some_iff, indexIn_eq_some]
  · rename_i h
    simp [h]

theorem State.actionActive_iff (s : State) (k : KeyId) :
    s.actionActive k = true ↔
      (s.key k).function ∈ [KeyFunction.talkStation, .listenStation, .reply, .callStation] ∨
        ((s.key k).function = .ifb ∧ (s.key k).standing = .current) ∨
        ((s.key k).function = .talkParty ∧ ∃ (p : PartyId) (n : Fin 256), (s.key k).target = some n ∧ n.val = p.val ∧
          ∃ m, (s.party p).find (s.panel (keyPanel k)).ownStation = some m ∧ m.talk = true) := by
  unfold State.actionActive
  dsimp only
  cases hf : (s.key k).function with
  | talkParty =>
    simp only [List.mem_cons, reduceCtorEq, List.not_mem_nil, or_self, false_and, true_and, false_or]
    cases hp : (s.key k).targetParty with
    | none =>
      simp only [Bool.false_eq_true, false_iff]
      rintro ⟨p, n, hn, hv, _⟩
      rw [Key.targetParty_iff.2 ⟨hf, n, hn, hv⟩] at hp
      cases hp
    | some p =>
      obtain ⟨_, n, hn, hv⟩ := Key.targetParty_iff.1 hp
      simp only [Option.any_eq_true]
      refine ⟨fun ⟨m, hm, ht⟩ => ⟨p, n, hn, hv, m, hm, ht⟩, fun ⟨q, n', hn', hv', m, hm, ht⟩ => ?_⟩
      rw [hn] at hn'
      cases hn'
      obtain rfl : p = q := Fin.ext (hv.symm.trans hv')
      exact ⟨m, hm, ht⟩
  | ifb => simp
  | unassigned => simp
  | talkStation => simp
  | listenStation => simp
  | callStation => simp
  | reply => simp

theorem State.calledLamp_iff (s : State) (k : KeyId) :
    s.calledLamp k = true ↔
      ((s.key k).function = .reply ∧ (s.panel (keyPanel k)).replyList ≠ []) ∨
        ∃ e ∈ (s.panel (keyPanel k)).replyList,
          (s.key k).function ∈ [KeyFunction.talkStation, .callStation] ∧
            ∃ n, (s.key k).target = some n ∧ n.val = e.station.val := by
  have hcalled : ∀ f, (s.key k).function = f → f.targetsStation = true →
      (((s.key k).targetStation.any fun t => (s.panel (keyPanel k)).replyList.any fun e => e.station == t) = true ↔
        ∃ e ∈ (s.panel (keyPanel k)).replyList, ∃ n, (s.key k).target = some n ∧ n.val = e.station.val) := by
    intro f hf ht
    simp only [Option.any_eq_true, List.any_eq_true, beq_iff_eq, Key.targetStation_iff, hf, ht, true_and]
    exact ⟨fun ⟨t, hn, e, he, het⟩ => ⟨e, he, het ▸ hn⟩, fun ⟨e, he, hn⟩ => ⟨e.station, hn, e, he, rfl⟩⟩
  unfold State.calledLamp
  dsimp only
  cases hf : (s.key k).function with
  | reply => simp
  | talkStation => simpa using hcalled _ hf rfl
  | callStation => simpa using hcalled _ hf rfl
  | unassigned => simp
  | listenStation => simp
  | talkParty => simp
  | ifb => simp

theorem State.talkedToLamp_iff (s : State) (k : KeyId) :
    s.talkedToLamp k = true ↔
      ∃ x src d e, ((s.key k).function ∈ [KeyFunction.talkStation, .listenStation] ∧
          ∃ n, (s.key k).target = some n ∧ n.val = x.val) ∧ (s.station x).source = some src ∧
        (s.station (s.panel (keyPanel k)).ownStation).dest = some d ∧ s.findEntry src d = some e ∧ e.state = .active ∧
          e.grants ≠ [] := by
  have htarget : ∀ {x}, (s.key k).function ∈ [KeyFunction.talkStation, .listenStation] →
      ((s.key k).targetStation = some x ↔ ∃ n, (s.key k).target = some n ∧ n.val = x.val) := by
    intro x hf
    rw [Key.targetStation_iff, KeyFunction.targetsStation_iff]
    exact and_iff_right (by revert hf; simp only [List.mem_cons]; tauto)
  unfold State.talkedToLamp
  simp only [Bool.and_eq_true, KeyFunction.talksOrListens_iff]
  constructor
  · rintro ⟨hf, h⟩
    split at h
    · rename_i t d ht hd
      split at h
      · rename_i src hsrc
        obtain ⟨e, he, h⟩ := (Option.any_eq_true _ _).1 h
        simp only [Bool.and_eq_true, beq_iff_eq, Bool.not_eq_true', List.isEmpty_eq_false_iff] at h
        obtain ⟨hact, hgr⟩ := h
        exact ⟨t, src, d, e, ⟨hf, (htarget hf).1 ht⟩, hsrc, hd, he, hact, hgr⟩
      · cases h
    · cases h
  · rintro ⟨x, src, d, e, ⟨hf, hx⟩, hsrc, hd, he, hact, hgr⟩
    refine ⟨hf, ?_⟩
    rw [(htarget hf).2 hx, show s.ownDest k = some d from hd]
    simp [hsrc, he, hact, hgr]

/-- Settles O56: `deriveLamp` tests the conditions in their order. -/
theorem lampFollowsKey : Obligations.LampFollowsKey := by
  intro k s r panel station wink waits active called heard
  have hwink : wink ↔ r.winkTimer.isSome = true := by
    cases h : r.winkTimer with
    | none => simp [wink, h]
    | some t => simp [wink, h]
  have hactive : active ↔ (r.state.isOn && s.actionActive k) = true := by
    rw [Bool.and_eq_true, KeyState.isOn_iff, State.actionActive_iff]
  have hcalled : called ↔ s.calledLamp k = true := (s.calledLamp_iff k).symm
  have hheard : heard ↔ s.talkedToLamp k = true := (s.talkedToLamp_iff k).symm
  refine ⟨fun hf => if_pos hf, fun hf => ?_⟩
  have hder : s.deriveLamp k =
      if r.winkTimer.isSome then .wink else if r.standing = .waiting then .flashBusy
      else if r.state.isOn && s.actionActive k then .on else if s.calledLamp k then .flashCall
      else if s.talkedToLamp k then .dim else .off := if_neg hf
  rw [hder, hwink, hactive, hcalled, hheard]
  by_cases h1 : r.winkTimer.isSome = true
  · simp [h1]
  · by_cases h2 : waits
    · have h2' : r.standing = .waiting := h2
      simp [h1, h2, h2']
    · have h2' : ¬r.standing = .waiting := h2
      by_cases h3 : (r.state.isOn && s.actionActive k) = true
      · simp only [if_neg h1, if_neg h2', if_pos h3]; simp [h1, h2, h3]
      · by_cases h4 : s.calledLamp k = true
        · simp only [if_neg h1, if_neg h2', if_neg h3, if_pos h4]; simp [h1, h2, h3, h4]
        · by_cases h5 : s.talkedToLamp k = true
          · simp only [if_neg h1, if_neg h2', if_neg h3, if_neg h4, if_pos h5]; simp [h1, h2, h3, h4, h5]
          · simp only [if_neg h1, if_neg h2', if_neg h3, if_neg h4, if_neg h5]; simp [h1, h2, h3, h4, h5]

end Sys2Proof.Machine
end

section
/-! PROOF. The reset column of the tables (R199), and the invariants at reset. -/

namespace Sys2Proof.Machine

theorem reset_started : Started Straps.reset State.reset := by
  refine ⟨rfl, rfl, rfl, rfl, port_blank .running Straps.reset 0 [], rfl, rfl, rfl, rfl,
    fun x => tget_replicate _ x, fun n => tget_replicate _ n, fun d => tget_replicate _ d, fun x => tget_replicate _ x,
    fun d => tget_replicate _ d, fun d => tget_replicate _ d, fun p => tget_replicate _ p, fun k => tget_replicate _ k,
    fun p => tget_replicate _ p, circuit_blank .running Straps.reset 0 [], fun x => tget_replicate _ x, rfl, rfl,
    fun k hk => ?_⟩
  revert hk
  cases k <;> decide

theorem eventReset_values (k : EventKind) (hk : k ≠ .started) :
    tget eventReset k.number =
      { isSet := false, count := 0, inst := none, enable := decide (k ≠ .clip)
        route := if k = .portDown ∨ k = .referenceLost then .both else .notice } := by
  revert hk
  cases k <;> decide

/-- Settles O2. -/
theorem resetRecords : Obligations.ResetRecords := by
  unfold Obligations.ResetRecords
  intro s
  obtain ⟨hphase, _, _, htiming, hport, horders, hreplies, hnotices, hblock, _, hsource, hdest, hstation, hentries, _,
    hpanel, hkey, hparty, hcircuit, htap, _, hstarted, hevent⟩ := reset_started
  have hev : ∀ k, s.event k = { isSet := decide (k = .started), count := if k = .started then 1 else 0, inst := none
                                enable := decide (k ≠ .clip)
                                route := if k = .portDown ∨ k = .referenceLost then .both else .notice } := fun k => by
    by_cases hk : k = .started
    · subst hk; exact hstarted
    · rw [hevent k hk, eventReset_values k hk]
      simp [hk]
  refine ⟨hphase, horders, hreplies, hblock, hnotices, by rw [htiming]; decide, fun x => ?_, hsource, fun d => ?_,
    hstation, fun p => ?_, fun k => ?_, hparty, fun c => ?_, fun x => ?_, ?_, fun k => ?_, fun k => ?_, fun k => ?_⟩
  · have hoff : Straps.reset.portOff.getLsbD x.val = false := BitVec.getLsbD_zero
    rw [hport, hoff]
    exact ⟨rfl, rfl, rfl, rfl, rfl, rfl, rfl, rfl, rfl, fun i => by simp [Port.reset, tget, BufferPosition.empty]⟩
  · rw [hdest, hentries]
    exact ⟨rfl, rfl, rfl, rfl, rfl, rfl, rfl, rfl, rfl⟩
  · rw [hpanel]
    exact ⟨rfl, rfl, rfl, rfl, rfl, rfl, rfl, rfl, rfl, rfl, rfl, rfl, fun i => tget_replicate _ i⟩
  · rw [hkey]
    exact ⟨rfl, rfl, rfl, rfl, rfl, rfl, rfl, rfl, rfl, rfl⟩
  · rw [hcircuit]
    exact ⟨rfl, rfl, rfl, rfl, rfl, rfl, rfl, rfl, rfl, rfl, rfl, rfl, rfl, rfl, rfl, rfl, rfl, rfl, rfl, rfl, rfl⟩
  · rw [htap]
    exact ⟨rfl, rfl, rfl, rfl, rfl, rfl, rfl, rfl⟩
  · simp only [State.cadence]
    decide
  · rw [hev]
    exact ⟨rfl, rfl, rfl⟩
  · rw [hev]
  · rw [hev]

/-! ## The invariants -/

theorem arbiterInv_of_empty {s : State} (ha : ∀ d, s.arbiter d = Arbiter.empty)
    (hk : ∀ k, (s.key k).standing = .outside) : ArbiterInv s := by
  refine ⟨fun d => ?_, fun k h => absurd (hk k) h⟩
  rw [ha]
  simp [Arbiter.empty]

theorem partyInv_of_empty {s : State} (h : ∀ d, s.entriesOf d = []) : PartyInv s := fun d e he => by
  rw [h d] at he; cases he

theorem lampsInv_of_unconfigured {s : State} (h : ∀ p, s.panel p = Panel.reset) : LampsInv s := by
  refine ⟨fun p => by rw [h]; decide, fun k hon => ?_⟩
  rw [h] at hon
  cases hon

theorem Started.partyInv {st : Straps} {s : State} (h : Started st s) : PartyInv s := by
  obtain ⟨-, -, -, -, -, -, -, -, -, -, -, -, -, hentries, -⟩ := h
  exact partyInv_of_empty hentries

theorem Started.queuesInv {st : Straps} {s : State} (h : Started st s) : QueuesInv s := by
  obtain ⟨-, -, -, -, -, horders, hreplies, hnotices, -⟩ := h
  simp [QueuesInv, horders, hreplies, hnotices]

theorem Started.arbiterInv {st : Straps} {s : State} (h : Started st s) : ArbiterInv s := by
  obtain ⟨-, -, -, -, -, -, -, -, -, -, -, -, -, -, harb, -, hkey, -⟩ := h
  exact arbiterInv_of_empty harb fun k => by rw [hkey]; rfl

theorem Started.lampsInv {st : Straps} {s : State} (h : Started st s) : LampsInv s := by
  obtain ⟨-, -, -, -, -, -, -, -, -, -, -, -, -, -, -, hpanel, -⟩ := h
  exact lampsInv_of_unconfigured hpanel

/-- Settles O13. -/
theorem invariantsAtReset : Obligations.InvariantsAtReset :=
  ⟨clockInv_of_timing_reset rfl, blank_storeInv .running Straps.reset 0 [], blank_limits .running Straps.reset 0 [],
    reset_started.partyInv, reset_started.queuesInv, reset_started.arbiterInv, ⟨rfl, rfl⟩, reset_started.lampsInv⟩

end Sys2Proof.Machine
end

section
/-! PROOF. The writes of destinations (R52 to R56), stations (R58 to R60), keys (R108, R109) and cadences (R190), and the
timers of the key unit (R113, R114, R138, R188). -/

namespace Sys2Proof.Machine

/-- A row that hands keys to the lamp unit and changes no panel leaves of the panels all but the lamps to be sent. -/
theorem row_wrote_panels {tn : TableName} {isRow : Nat → List FieldValue → Bool} {tag : Byte} {index : BitVec 16}
    {mask : BitVec 32} {values : List Byte} {s u : State} {r : Result} {l : List Fld}
    (hs : WriteReady s tn tag index mask values) (hr : isRow index.toNat (writtenValues tn index mask values) = true)
    (hw : writeRecord tn index.toNat (writtenValues tn index mask values) (takeHead s) = (u, r))
    (hu : Touches (.lampDirty :: l) (takeHead s) u) (hp : .panels ∉ l) :
    ∃ t, writeRow tn isRow tag index mask values s = .next t ∧ Wrote s t tn tag index r (.panels :: l) ∧
      Touches [.replies, .draws, .panels, .lampDirty] u t ∧ PanelsButLamps s t := by
  obtain ⟨t, ht, ha, h1, h2⟩ := row_wrote hs hr hw hu
  exact ⟨t, ht, ha, h1, .trans (.of_panels (hu.panels (by simpa using hp))) h2⟩

theorem Answered.mono {s t : State} {tag : Byte} {y : List (Option Byte)} {l m : List Fld} (h : Answered s t tag y l)
    (hs : ∀ f ∈ l, f ∈ m) : Answered s t tag y m := by
  obtain ⟨h1, h2, h3⟩ := h
  refine ⟨h1, h2, h3.mono fun f hf => ?_⟩
  rw [List.mem_append] at hf ⊢
  exact hf.imp_right (hs f)

/-! ## Destinations -/

theorem table_toList {α : Type} {n : Nat} (t : Vector α n) : t.toList = (allOf n).map (tget t) := by
  refine List.ext_getElem (by simp [allOf]) fun i h1 h2 => ?_
  simp [allOf, tget]

theorem ifbCount_eq (s : State) : s.ifbCount = ((allOf 256).filter fun m => (s.dest m).kind == .ifb).length := by
  unfold State.ifbCount
  rw [table_toList, List.filter_map, List.length_map]
  rfl

theorem kindCheck_used_iff (s : State) (d : DestId) :
    (!(s.entriesOf d).isEmpty || (s.arbiter d).current.isSome || !(s.arbiter d).waiting.isEmpty ||
        ((allOf 8).any fun t => (s.tap t).enabled && (s.tap t).monitor == d) || (s.dest d).circuit.isSome) = true ↔
      s.entriesOf d ≠ [] ∨ (s.arbiter d).current ≠ none ∨ (s.arbiter d).waiting ≠ [] ∨
        (∃ x, (s.tap x).enabled = true ∧ (s.tap x).monitor = d) ∨ (s.dest d).circuit ≠ none := by
  simp only [Bool.or_eq_true, any_allOf, Bool.and_eq_true, beq_iff_eq, Bool.not_eq_true', List.isEmpty_eq_false_iff,
    Option.isSome_iff_ne_none, or_assoc]

/-- R56's refusals, in their order. -/
theorem kindCheck_eq (s : State) (d : DestId) (k : DestKind) {used wrong full : Prop}
    (hu : used ↔ (s.entriesOf d ≠ [] ∨ (s.arbiter d).current ≠ none ∨ (s.arbiter d).waiting ≠ [] ∨
      (∃ x, (s.tap x).enabled = true ∧ (s.tap x).monitor = d) ∨ (s.dest d).circuit ≠ none))
    (hw : wrong ↔ ((k = .monitor ∧ ∃ x, (s.station x).dest = some d) ∨
      ((s.dest d).kind = .ifb ∧ ∃ x, (s.station x).kind = .reporter ∧ (s.station x).dest = some d)))
    (hf : full ↔ (k = .ifb ∧ 64 ≤ ((allOf 256).filter fun m => (s.dest m).kind == .ifb).length)) :
    (used → s.kindCheck d k = .inUse) ∧ (¬used → wrong → s.kindCheck d k = .wrongKind) ∧
      (¬used → ¬wrong → full → s.kindCheck d k = .full) ∧ (¬used → ¬wrong → ¬full → s.kindCheck d k = .ok) := by
  rw [← kindCheck_used_iff] at hu
  rw [← ifbCount_eq] at hf
  have hkeep : wrong ↔ (k = .monitor ∧ ((allOf 192).any fun t => (s.station t).dest == some d) = true) ∨
      ((s.dest d).kind = .ifb ∧
        ((allOf 192).any fun t => (s.station t).kind == .reporter && (s.station t).dest == some d) = true) := by
    rw [hw]
    simp only [any_allOf, beq_iff_eq, Bool.and_eq_true]
  unfold State.kindCheck
  dsimp only
  refine ⟨fun h => if_pos (hu.1 h), fun h h1 => ?_, fun h h1 h2 => ?_, fun h h1 h2 => ?_⟩
  · rw [if_neg (hu.not.1 h)]
    rcases hkeep.1 h1 with h1 | h1
    · exact if_pos h1
    · rw [if_pos h1, ite_self]
  all_goals
    obtain ⟨h1, h1'⟩ := not_or.1 (hkeep.not.1 h1)
    rw [if_neg (hu.not.1 h), if_neg h1, if_neg h1']
  · exact if_pos (hf.1 h2)
  · exact if_neg (hf.not.1 h2)

theorem writeDest_same {d : DestId} {l : List FieldValue} {s : State} {r : Dest} (hr : (s.dest d).updated l = some r)
    (hk : r.kind = (s.dest d).kind) : writeDest d l s = (s.setDest d r, .ok) := by
  unfold writeDest; rw [hr]; exact if_pos hk

theorem writeDest_kind {d : DestId} {l : List FieldValue} {s : State} {r : Dest} (hr : (s.dest d).updated l = some r)
    (hk : r.kind ≠ (s.dest d).kind) (hc : s.kindCheck d r.kind = .ok) :
    writeDest d l s = ((s.setDest d r).setArbiter d Arbiter.empty, .ok) := by
  unfold writeDest; rw [hr]; dsimp only; rw [if_neg hk, hc]

theorem writeDest_refused {d : DestId} {l : List FieldValue} {s : State} {r : Dest} {e : Result}
    (hr : (s.dest d).updated l = some r) (hk : r.kind ≠ (s.dest d).kind) (hc : s.kindCheck d r.kind = e)
    (he : e ≠ .ok) : writeDest d l s = (s, e) := by
  unfold writeDest; rw [hr]; dsimp only; rw [if_neg hk, hc]
  cases e with
  | ok => exact absurd rfl he
  | _ => rfl

/-- Settles O38. -/
theorem destinationWritesTakeEffect : Obligations.DestinationWritesTakeEffect := by
  intro tag index mask values d s hs hi l rows c hrow refused
  obtain ⟨isRow, hr, hc⟩ : ∃ isRow, isRow index.toNat l = true ∧
      exec c s = writeRow .destination isRow tag index mask values s := by
    simp only [rows, List.mem_cons, List.not_mem_nil, or_false, Prod.mk.injEq] at hrow
    rcases hrow with ⟨rfl, h⟩ | ⟨rfl, h⟩ | ⟨rfl, h⟩ | ⟨rfl, h⟩ | ⟨rfl, h⟩
    all_goals exact ⟨_, h.symm, rfl⟩
  have hrec : writeRecord .destination index.toNat l (takeHead s) = writeDest d l (takeHead s) := atIndex_val hi _ _
  have hrefuse : ∀ r, writeDest d l (takeHead s) = (takeHead s, r) → refused r := fun r hw => by
    obtain ⟨t, ht, h⟩ := row_refused (isRow := isRow) hs hr (hrec.trans hw)
    exact ⟨t, hc.trans ht, h⟩
  refine ⟨fun hbad => hrefuse _ (writeDest_of_none ?_), ?_⟩
  · rw [show (takeHead s).dest d = s.dest d from rfl, Dest.updated_isNone]
    rcases hbad with h | h <;> simp [h]
  intro e k he hk stored used wrong full
  have hclip : numberField l 6 (s.dest d).clipCounter 65535 = some ((l.lookup 6).getD (s.dest d).clipCounter) :=
    numberField_of_fits fun v hv => Nat.le_of_lt_succ (lookup_writtenValues_lt hv)
  have hupd : ((takeHead s).dest d).updated l = some stored := by
    unfold Dest.updated
    rw [show (takeHead s).dest d = s.dest d from rfl, he, hk, hclip]
  obtain ⟨hused, hwrong, hfull, hok⟩ := kindCheck_eq (takeHead s) d k (used := used) (wrong := wrong) (full := full)
    .rfl .rfl .rfl
  refine ⟨fun hacc => ?_, fun hne => ⟨fun h => hrefuse _ (writeDest_refused hupd hne (hused h) (by decide)),
    fun h h1 => hrefuse _ (writeDest_refused hupd hne (hwrong h h1) (by decide)),
    fun h h1 h2 => hrefuse _ (writeDest_refused hupd hne (hfull h h1 h2) (by decide))⟩⟩
  by_cases hsame : k = (s.dest d).kind
  · obtain ⟨t, ht, ha, hu⟩ := row_wrote_quiet (isRow := isRow) (l := [.dests, .arbiters]) hs hr
      (hrec.trans (writeDest_same hupd hsame)) (setDest_touches _ _ _).up (by decide)
    have hdest : ∀ m, t.dest m = _ := fun m => (congrArg (tget · m) hu.dests).trans (State.dest_setDest _ d _ m)
    have harb : ∀ m, t.arbiter m = s.arbiter m := fun m => congrArg (tget · m) hu.arbiters
    refine ⟨t, hc.trans ht, ha, (hdest d).trans (if_pos rfl), fun m hm => ⟨(hdest m).trans (if_neg hm), harb m⟩, ?_⟩
    rw [if_pos hsame, harb]
  · obtain ⟨h, h1, h2⟩ := hacc.resolve_left hsame
    obtain ⟨t, ht, ha, hu⟩ := row_wrote_quiet (isRow := isRow) (l := [.dests, .arbiters]) hs hr
      (hrec.trans (writeDest_kind hupd hsame (hok h h1 h2)))
      (Touches.trans (setDest_touches _ _ _).up (setArbiter_touches _ _ _).up) (by decide)
    have hdest : ∀ m, t.dest m = _ := fun m => (congrArg (tget · m) hu.dests).trans (State.dest_setDest _ d _ m)
    have harb : ∀ m, t.arbiter m = _ := fun m => (congrArg (tget · m) hu.arbiters).trans (State.arbiter_setArbiter _ d _ m)
    refine ⟨t, hc.trans ht, ha, (hdest d).trans (if_pos rfl),
      fun m hm => ⟨(hdest m).trans (if_neg hm), (harb m).trans (if_neg hm)⟩, ?_⟩
    rw [if_neg hsame, harb, if_pos rfl]
    rfl

/-! ## Stations -/

theorem writeStation_ok {t : StationId} {l : List FieldValue} {s : State} {r : Station}
    (hr : (s.station t).updated l = some r) (hc : s.stationCheck t r = .ok) :
    writeStation t l s = (handStation t (s.setStation t r), .ok) := by
  unfold writeStation; rw [hr]; dsimp only; rw [hc]

theorem writeStation_refused {t : StationId} {l : List FieldValue} {s : State} {r : Station} {e : Result}
    (hr : (s.station t).updated l = some r) (hc : s.stationCheck t r = e) (he : e ≠ .ok) :
    writeStation t l s = (s, e) := by
  unfold writeStation; rw [hr]; dsimp only; rw [hc]
  cases e with
  | ok => exact absurd rfl he
  | _ => rfl

theorem stationCheck_unfit {s : State} {t : StationId} {r : Station}
    (h : r.kind = .unused ∧ (r.source ≠ none ∨ r.dest ≠ none) ∨ r.kind = .reporter ∧ r.dest = none) :
    s.stationCheck t r = .badValue := by
  unfold State.stationCheck
  simp only [Option.isSome_iff_ne_none]
  rcases h with h | h
  · exact if_pos h
  · rw [if_pos h, ite_self]

/-- R58 to R60: past the checks of the record's values. -/
theorem stationCheck_fit {s : State} {t : StationId} {r : Station}
    (h1 : ¬(r.kind = .unused ∧ (r.source ≠ none ∨ r.dest ≠ none))) (h2 : ¬(r.kind = .reporter ∧ r.dest = none)) :
    s.stationCheck t r =
      if s.stationInUse t then .inUse
      else
        match r.dest with
        | some d =>
          if (s.dest d).kind = .monitor then .wrongKind
          else if r.kind = .reporter ∧ (s.dest d).kind ≠ .ifb then .wrongKind
          else .ok
        | none => .ok := by
  unfold State.stationCheck
  simp only [Option.isSome_iff_ne_none]
  exact (if_neg h1).trans (if_neg h2)

/-- Settles O39. -/
theorem stationWritesTakeEffect : Obligations.StationWritesTakeEffect := by
  intro tag index mask values x r s hs hi l hrow hk ha hb refused
  have hrec : writeRecord .station index.toNat l (takeHead s) = writeStation x l (takeHead s) := atIndex_val hi _ _
  have hupd : ((takeHead s).station x).updated l = some r := by
    unfold Station.updated
    rw [show (takeHead s).station x = s.station x from rfl, hk, ha, hb]
  have hrefuse : ∀ e, s.stationCheck x r = e → e ≠ .ok → refused e := fun e hc he =>
    row_refused hs hrow (hrec.trans (writeStation_refused hupd hc he))
  refine ⟨fun h => hrefuse _ (stationCheck_unfit h) (by decide), fun h1 h2 => ?_⟩
  have hcheck := stationCheck_fit (s := s) (t := x) h1 h2
  refine ⟨fun h => hrefuse _ (hcheck.trans (if_pos h)) (by decide), fun h => ?_⟩
  rw [h, if_neg Bool.false_ne_true] at hcheck
  refine ⟨fun ⟨d, hd, hbad⟩ => hrefuse .wrongKind ?_ (by decide), fun hgood => ?_⟩
  · rw [hcheck, hd]
    rcases hbad with h | h
    · exact if_pos h
    · dsimp only
      rw [if_pos h, ite_self]
  · have hok : s.stationCheck x r = .ok := by
      rw [hcheck]
      cases hd : r.dest with
      | none => rfl
      | some d =>
        obtain ⟨h3, h4⟩ := hgood d hd
        dsimp only
        rw [if_neg h3, if_neg fun h => h.2 (h4 h.1)]
    obtain ⟨t, ht, hans, hu, hp⟩ := row_wrote_panels (isRow := isStationWrite) (l := [.stations]) hs hrow
      (hrec.trans (writeStation_ok hupd hok)) (Touches.trans (setStation_touches _ _ _).up (handStation_touches _ _).up)
      (by decide)
    have hst : ∀ y, t.station y = _ := fun y =>
      (congrArg (tget · y) hu.stations).trans (State.station_setStation (takeHead s) x r y)
    exact ⟨t, ht, Answered.mono hans (by decide), (hst x).trans (if_pos rfl), fun y hy => (hst y).trans (if_neg hy), hp⟩

/-! ## Keys -/

theorem Key.targetOk_iff (r : Key) :
    r.targetOk = true ↔
      match r.function with
      | .unassigned | .reply => True
      | .talkStation | .listenStation | .callStation => ∃ n, r.target = some n ∧ n.val < 192
      | .talkParty => ∃ n, r.target = some n ∧ n.val < 16
      | .ifb => r.target ≠ none := by
  have hin : ∀ (m : Nat), (r.target.bind fun n => indexIn m n.val).isSome = true ↔ ∃ n, r.target = some n ∧ n.val < m := by
    intro m
    cases r.target with
    | none => simp
    | some n => simp [indexIn]
  unfold Key.targetOk
  cases r.function with
  | unassigned => simp
  | reply => simp
  | talkStation => exact hin 192
  | listenStation => exact hin 192
  | callStation => exact hin 192
  | talkParty => exact hin 16
  | ifb => exact Option.isSome_iff_ne_none

/-- Settles O41. -/
theorem keyWritesTakeEffect : Obligations.KeyWritesTakeEffect := by
  intro tag index mask values k f target m q s hs hi l hrow hf ht hm hq inRange
  have hrec : writeRecord .key index.toNat l (takeHead s) = writeKey k l (takeHead s) := atIndex_val hi _ _
  let r := { s.key k with function := f, target := target, mode := m, priority := q,
                          talkLevel := levelField l 4 (s.key k).talkLevel }
  have hupd : ((takeHead s).key k).updated l = some r := by
    unfold Key.updated
    rw [show (takeHead s).key k = s.key k from rfl, hf, ht, hm, hq]
  have hrange : r.targetOk = true ↔ inRange := r.targetOk_iff
  refine ⟨fun h => row_refused hs hrow (hrec.trans ?_), fun h hst => row_refused hs hrow (hrec.trans ?_),
    fun h hst => ?_⟩
  · have hbad : r.targetOk = false := by simpa using hrange.not.2 h
    unfold writeKey; rw [hupd]; simp [hbad]
  · have hst' : ((takeHead s).key k).state ≠ .idle := hst
    unfold writeKey; rw [hupd]; simp [hrange.2 h, hst']
  · have hst' : ((takeHead s).key k).state = .idle := hst
    have hw : writeKey k l (takeHead s) =
        (if names l 0 || names l 1 then handKey k ((takeHead s).setKey k r) else (takeHead s).setKey k r, .ok) := by
      unfold writeKey; rw [hupd]; simp [hrange.2 h, hst']
    have htouch : Touches [.keys, .lampDirty] (takeHead s)
        (if names l 0 || names l 1 then handKey k ((takeHead s).setKey k r) else (takeHead s).setKey k r) := by
      split
      · exact Touches.trans (setKey_touches _ _ _).up (handKey_touches _ _).up
      · exact (setKey_touches _ _ _).up
    obtain ⟨t, ht, hans, hu, hp⟩ := row_wrote_panels (isRow := isKeyWrite) (l := [.keys]) hs hrow (hrec.trans hw)
      (htouch.mono (by decide)) (by decide)
    have hkey : ∀ j, t.key j = if j = k then r else s.key j := fun j => by
      refine ((congrArg (tget · j) hu.keys).trans ?_ : t.key j = _)
      split <;> exact State.key_setKey (takeHead s) k r j
    exact ⟨t, ht, Answered.mono hans (by decide), (hkey k).trans (if_pos rfl), fun j hj => (hkey j).trans (if_neg hj), hp⟩

/-! ## Cadences -/

/-- R190: a time that is named is cut at its top, and one that is kept must lie below it. -/
theorem cadenceTime_eq (l : List FieldValue) (f old top : Nat) :
    cadenceTime l f old top =
      if (match l.lookup f with | some v => min top (v / 10 * 10) | none => old) ≤ top then
        some (match l.lookup f with | some v => min top (v / 10 * 10) | none => old)
      else none := by
  unfold cadenceTime
  cases l.lookup f with
  | none => rfl
  | some v => exact (if_pos (Nat.min_le_left _ _)).symm

theorem numberField_of_lt {l : List FieldValue} {f old top v : Nat} (h : l.lookup f = some v) (hv : top < v) :
    numberField l f old top = none := by
  simp [numberField, h, Nat.not_le.2 hv]

theorem markCadences_panel (s : State) (p : PanelId) :
    (markCadences s).panel p =
      if (s.panel p).online = .online then { s.panel p with cadencePending := true } else s.panel p := by
  exact tget_map _ _ p

/-- Settles O45. -/
theorem cadenceWritesTakeEffect : Obligations.CadenceWritesTakeEffect := by
  intro tag index mask values c s hs hi l old time period bright dim bl dl hrow
  have hrec : writeRecord .cadence index.toNat l (takeHead s) = writeCadence c l (takeHead s) := atIndex_val hi _ _
  have hperiod : timeField l 0 old.period 10 100 2550 = period := by
    unfold timeField period
    cases l.lookup 0 <;> rfl
  have hbright : cadenceTime l 1 old.bright period = if bright ≤ period then some bright else none :=
    cadenceTime_eq l 1 old.bright period
  have hdim : cadenceTime l 2 old.dim (period - bright) = if dim ≤ period - bright then some dim else none :=
    cadenceTime_eq l 2 old.dim (period - bright)
  refine ⟨fun h1 h2 h3 h4 => ?_, fun hbad => row_refused hs hrow (hrec.trans (writeCadence_of_none ?_))⟩
  · let r : Cadence := { period := period, bright := bright, dim := dim, brightLevel := bl, dimLevel := dl }
    have hupd : ((takeHead s).cadence c).updated l = some r := by
      unfold Cadence.updated
      rw [show (takeHead s).cadence c = old from rfl]
      dsimp only
      rw [numberField_of_fits h3, numberField_of_fits h4, hperiod, hbright, if_pos h1]
      dsimp only
      rw [hdim, if_pos h2]
    have hw : writeCadence c l (takeHead s) =
        (if c.val < 6 then markCadences ((takeHead s).setCadence c r) else (takeHead s).setCadence c r, .ok) := by
      unfold writeCadence; rw [hupd]
    have htouch : Touches [.cadences, .panels] (takeHead s)
        (if c.val < 6 then markCadences ((takeHead s).setCadence c r) else (takeHead s).setCadence c r) := by
      split
      · exact Touches.trans (setCadence_touches _ _ _).up (markCadences_touches _).up
      · exact (setCadence_touches _ _ _).up
    obtain ⟨t, ht, hans, hu⟩ := row_wrote_quiet (isRow := isCadenceWrite) hs hrow (hrec.trans hw) htouch (by decide)
    have hcad : ∀ q, t.cadence q = if q = c then r else s.cadence q := fun q => by
      refine ((congrArg (tget · q) hu.cadences).trans ?_ : t.cadence q = _)
      split <;> exact State.cadence_setCadence (takeHead s) c r q
    refine ⟨t, ht, hans, (hcad c).trans (if_pos rfl), fun q hq => (hcad q).trans (if_neg hq), fun p => ?_⟩
    refine ((congrArg (tget · p) hu.panels).trans ?_ : t.panel p = _)
    split
    · rename_i hc
      refine (markCadences_panel _ p).trans ?_
      simp only [hc, true_and]
      rfl
    · rename_i hc
      simp only [hc, false_and, if_false]
      rfl
  · unfold Cadence.updated
    rw [show (takeHead s).cadence c = old from rfl]
    dsimp only
    rw [hperiod, hbright]
    rcases hbad with h | h | ⟨v, hv, h⟩ | ⟨v, hv, h⟩
    · rw [if_neg (Nat.not_le.2 h)]
      cases numberField l 3 old.brightLevel 15 <;> cases numberField l 4 old.dimLevel 15 <;> rfl
    · cases numberField l 3 old.brightLevel 15 with
      | none => rfl
      | some x =>
        cases numberField l 4 old.dimLevel 15 with
        | none => rfl
        | some y =>
          split
          · rename_i b hb
            split at hb
            · cases hb
              rw [hdim, if_neg (Nat.not_le.2 h)]
            · cases hb
          · rfl
    · rw [numberField_of_lt hv h]
    · rw [numberField_of_lt (f := 4) hv h]
      cases numberField l 3 old.brightLevel 15 <;> rfl

end Sys2Proof.Machine
end

section
/-! PROOF. Deriving lamps for the keys handed to the lamp unit (R188), and the timers of the key unit (R113, R114, R138). -/

namespace Sys2Proof.Machine

/-! ## What a lamp depends on -/

/-- A lamp reads no pending set, no last-sent lamp and no timer but the wink. -/
theorem deriveLamp_congr {s t : State} {k : KeyId} (hp : PanelsButLamps s t) (hk : t.key k = s.key k)
    (hst : t.stations = s.stations) (hpa : t.parties = s.parties) (he : t.entries = s.entries) :
    t.deriveLamp k = s.deriveLamp k := by
  have hpanel := hp (keyPanel k)
  have hown : (t.panel (keyPanel k)).ownStation = (s.panel (keyPanel k)).ownStation := by rw [hpanel]
  have hlist : (t.panel (keyPanel k)).replyList = (s.panel (keyPanel k)).replyList := by rw [hpanel]
  have hstation : ∀ x, t.station x = s.station x := fun x => congrArg (tget · x) hst
  have hparty : ∀ x, t.party x = s.party x := fun x => congrArg (tget · x) hpa
  have hentry : ∀ a b, t.findEntry a b = s.findEntry a b := fun a b => State.findEntry_congr he a b
  have hactive : t.actionActive k = s.actionActive k := by
    simp only [State.actionActive, State.ownStation, hk, hown, hparty]
  have hcalled : t.calledLamp k = s.calledLamp k := by simp only [State.calledLamp, hk, hlist]
  have htalked : t.talkedToLamp k = s.talkedToLamp k := by
    simp only [State.talkedToLamp, State.ownDest, State.ownStation, hk, hown, hstation, hentry]
  simp only [State.deriveLamp, hk, hactive, hcalled, htalked]

theorem keyPanel_keyIndex (p : PanelId) (n : Fin 32) : keyPanel (keyIndex p n) = p := by
  have := n.isLt
  refine Fin.ext ?_
  change (p.val * 32 + n.val) / 32 = p.val
  omega

theorem keyNumber_keyIndex (p : PanelId) (n : Fin 32) : keyNumber (keyIndex p n) = n := by
  have := n.isLt
  refine Fin.ext ?_
  change (p.val * 32 + n.val) % 32 = n.val
  omega

theorem keyIndex_keyPanel (k : KeyId) : keyIndex (keyPanel k) (keyNumber k) = k := by
  refine Fin.ext ?_
  change k.val / 32 * 32 + k.val % 32 = k.val
  omega

theorem mem_panelKeys {p : PanelId} {k : KeyId} : k ∈ panelKeys p ↔ keyPanel k = p := by
  simp only [panelKeys, allOf, List.mem_map, List.mem_finRange, true_and]
  exact ⟨fun ⟨n, h⟩ => h ▸ keyPanel_keyIndex p n, fun h => ⟨keyNumber k, h ▸ keyIndex_keyPanel k⟩⟩

theorem keyIndex_inj {p q : PanelId} {m n : Fin 32} : keyIndex p m = keyIndex q n ↔ p = q ∧ m = n := by
  refine ⟨fun h => ⟨?_, ?_⟩, fun ⟨h1, h2⟩ => h1 ▸ h2 ▸ rfl⟩
  · rw [← keyPanel_keyIndex p m, h, keyPanel_keyIndex]
  · rw [← keyNumber_keyIndex p m, h, keyNumber_keyIndex]

/-! ## Marking -/

theorem markLamp_panel (k : KeyId) (s : State) (p : PanelId) :
    (markLamp k s).panel p =
      if p = keyPanel k ∧ s.deriveLamp k ≠ (s.key k).lastLamp then
        { s.panel p with lampPending := withLamp (s.panel p).lampPending (keyNumber k) }
      else s.panel p := by
  unfold markLamp
  by_cases h : s.deriveLamp k = (s.key k).lastLamp
  · simp [h]
  · rw [if_neg h]
    dsimp only
    rw [State.panel_setPanel]
    by_cases hp : p = keyPanel k
    · simp [hp, h]
    · simp [hp]

theorem flushLamps_panel_one {s : State} {k : KeyId} (h : s.lampDirty = [k]) (p : PanelId) :
    (flushLamps s).panel p =
      if p = keyPanel k ∧ s.deriveLamp k ≠ (s.key k).lastLamp then
        { s.panel p with lampPending := withLamp (s.panel p).lampPending (keyNumber k) }
      else s.panel p := by
  unfold flushLamps
  rw [h]
  exact markLamp_panel k s p

/-- A panel none of whose keys was handed on keeps its record. -/
theorem flushLamps_panel_other {s : State} {p : PanelId} (h : ∀ k ∈ s.lampDirty, keyPanel k ≠ p) :
    (flushLamps s).panel p = s.panel p := by
  have hfold : ∀ (l : List KeyId) (t : State), (∀ k ∈ l, keyPanel k ≠ p) →
      (l.foldl (fun t k => markLamp k t) t).panel p = t.panel p := by
    intro l
    induction l with
    | nil => intros; rfl
    | cons k l ih =>
      intro t hl
      obtain ⟨hk, hl⟩ := List.forall_mem_cons.1 hl
      rw [List.foldl_cons, ih _ hl, markLamp_panel, if_neg fun h => hk h.1.symm]
  exact hfold _ s h

theorem flushLamps_deriveLamp (s : State) (k : KeyId) : (flushLamps s).deriveLamp k = s.deriveLamp k := by
  have hf := flushLamps_touches s
  exact deriveLamp_congr (flushLamps_panels s) (congrArg (tget · k) hf.keys) hf.stations hf.parties hf.entries

/-- One key is written and its lamp derived. -/
structure KeyWritten (s t : State) (k : KeyId) (r : Key) : Prop where
  key : t.key k = r
  others : ∀ j, j ≠ k → t.key j = s.key j
  lamps : ∀ p, t.panel p =
    if p = keyPanel k ∧ t.deriveLamp k ≠ (t.key k).lastLamp then
      { s.panel p with lampPending := withLamp (s.panel p).lampPending (keyNumber k) }
    else s.panel p
  touches : Touches [.keys, .panels] s t

theorem flushLamps_handKey_setKey {s : State} (hs : s.lampDirty = []) (k : KeyId) (r : Key) :
    KeyWritten s (flushLamps (handKey k (s.setKey k r))) k r := by
  let t := flushLamps (handKey k (s.setKey k r))
  have hkey : ∀ j, t.key j = if j = k then r else s.key j := fun j =>
    (congrArg (tget · j) (flushLamps_touches _).keys : t.key j = _).trans (State.key_setKey s k r j)
  refine ⟨(hkey k).trans (if_pos rfl), fun j hj => (hkey j).trans (if_neg hj), fun p => ?_, ?_⟩
  · have hd : (handKey k (s.setKey k r)).lampDirty = [k] := by simp [handKey, handKeys, hs]
    rw [flushLamps_deriveLamp, hkey, if_pos rfl]
    refine (flushLamps_panel_one hd p).trans ?_
    rw [show (handKey k (s.setKey k r)).key k = r from State.key_setKey_same s k r]
    rfl
  · exact Touches.flushed (l := [.keys, .panels])
      (Touches.trans (setKey_touches _ _ _).up (handKey_touches _ _).up) hs (by decide)

theorem exec_latchWindowExpiry {k : KeyId} {s : State} (ha : s.awake = true) (hc : s.latchDue k = true) :
    exec (.latchWindowExpiry k) s = .next (flushLamps (enterState k .momentaryOn s)) :=
  event_taken (f := fun s => flushLamps (enterState k .momentaryOn s)) ha hc

theorem exec_winkTimerExpiry {k : KeyId} {s : State} (ha : s.awake = true)
    (hc : s.timerDue (s.key k).winkTimer = true) :
    exec (.winkTimerExpiry k) s = .next (flushLamps (stopWink k s)) :=
  event_taken (f := fun s => flushLamps (stopWink k s)) ha hc

theorem exec_replyExpiry {q : PanelId} {x : StationId} {s : State} (ha : s.awake = true) (hc : s.replyDue q x = true) :
    exec (.replyExpiry q x) s = .next (flushLamps (removeCaller q x s)) :=
  event_taken (f := fun s => flushLamps (removeCaller q x s)) ha hc

/-- Settles O47. -/
theorem keyUnitTimersExpire : Obligations.KeyUnitTimersExpire := by
  refine ⟨?_, fun q x s ha hs hdue => ?_⟩
  · intro k s ha hs lamps
    refine ⟨fun hst hdue => ?_, fun hdue => ?_⟩
    · have hcan : s.latchDue k = true := by simp [State.latchDue, hst, hdue]
      obtain ⟨h1, h2, h3, h4⟩ :=
        flushLamps_handKey_setKey hs.1 k { s.key k with state := .momentaryOn, latchTimer := none }
      exact ⟨_, exec_latchWindowExpiry ha hcan, h1, h2, h3, h4⟩
    · obtain ⟨h1, h2, h3, h4⟩ := flushLamps_handKey_setKey hs.1 k { s.key k with winkTimer := none }
      exact ⟨_, exec_winkTimerExpiry ha hdue, h1, h2, h3, h4⟩
  · have hcan : s.replyDue q x = true := by
      obtain ⟨e, he, hx, hd⟩ := hdue
      exact List.any_eq_true.2 ⟨e, he, by simp [hx, hd]⟩
    refine ⟨_, exec_replyExpiry ha hcan, Touches.flushed (l := [.panels]) (removeCaller_touches q x s).up hs.1 (by decide), ?_⟩
    have hpanel : ∀ p, (removeCaller q x s).panel p =
        if p = q then { s.panel q with replyList := withoutCaller (s.panel q).replyList x } else s.panel p := fun p =>
      State.panel_setPanel s q _ p
    have hflush := flushLamps_panels (removeCaller q x s)
    refine ⟨?_, fun p => ⟨?_, fun hp => ?_⟩⟩
    · rw [hflush q, hpanel, if_pos rfl]
      rfl
    · rw [hflush p, hpanel]
      split
      · rename_i hp; rw [hp]
      · rfl
    · refine (flushLamps_panel_other fun k hk => ?_).trans ((hpanel p).trans (if_neg hp))
      have hk' : k ∈ panelKeys q := by
        simp only [removeCaller, handReply, handKeys, State.setPanel_lampDirty, hs.1, List.nil_append] at hk
        exact (List.mem_filter.1 hk).1
      rw [mem_panelKeys.1 hk']
      exact fun h => hp h.symm

end Sys2Proof.Machine
end

section
/-! PROOF. The field circuits: probes and their losses (R161 to R164, R167), echoes and the estimate (R166 to R169), return
silence (R171) and the circuits' links (R172, R173). -/

namespace Sys2Proof.Machine

/-! ## One step for each member of a list -/

/-- A fold whose steps each write their own record leaves in each record what its one step writes. -/
theorem foldl_each {ι β : Type} [DecidableEq ι] {get : State → ι → β} {f : State → ι → State} {h : ι → β → β}
    {R : State → Prop} (hR : ∀ t i, R t → R (f t i)) (hother : ∀ t i j, j ≠ i → get (f t i) j = get t j)
    (hself : ∀ t i, R t → get (f t i) i = h i (get t i)) {l : List ι} (hl : l.Nodup) {t : State} (ht : R t) (j : ι) :
    get (l.foldl f t) j = if j ∈ l then h j (get t j) else get t j := by
  induction l generalizing t with
  | nil => simp
  | cons i l ih =>
    obtain ⟨hi, hl⟩ := List.nodup_cons.1 hl
    rw [List.foldl_cons, ih hl (hR t i ht)]
    by_cases hj : j = i
    · subst hj
      simp [hi, hself t j ht]
    · simp [hj, hother t i j hj]

theorem mem_allOf {n : Nat} (i : Fin n) : i ∈ allOf n := List.mem_finRange i

theorem allOf_nodup (n : Nat) : (allOf n).Nodup := List.nodup_finRange n

/-! ## Raised events and the circuits -/

theorem raise_event_ne (k : EventKind) (i : Option Nat) (s : State) {j : EventKind} (h : j ≠ k) :
    (raise k i s).event j = s.event j := by
  have hset : ∀ (t : State), t.events = (s.setEvent k ((s.event k).raised i)).events → t.event j = s.event j :=
    fun t ht => by
      rw [State.event, ht]
      exact (State.event_setEvent s k _ j).trans (if_neg h)
  have hoffer : ∀ (t : State) n, (t.offerNotice n).events = t.events := fun t n => by
    unfold State.offerNotice; split <;> rfl
  refine hset _ ?_
  unfold raise
  dsimp only
  split
  · split
    · exact hoffer _ _
    · exact hoffer _ _
  · rfl

theorem raise_circuit (k : EventKind) (i : Option Nat) (s : State) (c : CircuitId) :
    (raise k i s).circuit c = s.circuit c := congrArg (tget · c) (raise_touches k i s).circuits

/-- A raise on a state that differs in no event, notice or clock is a raise on the state before. -/
theorem Raised.base {s s' t : State} {k : EventKind} {i : Option Nat} (h : Raised s' t k i) (he : s'.events = s.events)
    (hn : s'.notices = s.notices) (hp : s'.timing.period = s.timing.period) : Raised s t k i := by
  have hev : ∀ j, s'.event j = s.event j := fun j => by simp [State.event, he]
  obtain ⟨h1, h2, h3⟩ := h
  refine ⟨by rw [h1, hev], fun j hj => (h2 j hj).trans (hev j), ?_⟩
  rw [h3, hev, hn, hp]

/-! ## Lost probes -/

theorem declareLost_third {c : CircuitId} {s : State} (h : (s.circuit c).lostInARow = 2) :
    declareLost c s = raise .probeLost (some c.val)
      (s.setCircuit c { s.circuit c with lostInARow := satInc 255 (s.circuit c).lostInARow }) := if_pos h

theorem declareLost_other {c : CircuitId} {s : State} (h : (s.circuit c).lostInARow ≠ 2) :
    declareLost c s = s.setCircuit c { s.circuit c with lostInARow := satInc 255 (s.circuit c).lostInARow } := if_neg h

theorem declareLost_circuit (c : CircuitId) (s : State) (q : CircuitId) :
    (declareLost c s).circuit q =
      if q = c then { s.circuit c with lostInARow := satInc 255 (s.circuit c).lostInARow } else s.circuit q := by
  by_cases h : (s.circuit c).lostInARow = 2
  · rw [declareLost_third h, raise_circuit, State.circuit_setCircuit]
  · rw [declareLost_other h, State.circuit_setCircuit]

theorem declareLost_events {c : CircuitId} {s : State} (hb : s.timing.atBoundary = false) :
    ((s.circuit c).lostInARow = 2 → Raised s (declareLost c s) .probeLost (some c.val)) ∧
      ((s.circuit c).lostInARow ≠ 2 →
        (declareLost c s).events = s.events ∧ (declareLost c s).notices = s.notices) := by
  refine ⟨fun h => ?_, fun h => ?_⟩
  · rw [declareLost_third h]
    exact (raise_raised .probeLost (some c.val) (s.setCircuit c _) hb).base rfl rfl rfl
  · rw [declareLost_other h]
    exact ⟨rfl, rfl⟩

theorem declareLost_touches_settled {c : CircuitId} {s : State} (hb : s.timing.atBoundary = false) :
    Touches [.circuits, .events, .notices] s (declareLost c s) := by
  by_cases h : (s.circuit c).lostInARow = 2
  · rw [declareLost_third h]
    exact Touches.trans (setCircuit_touches _ _ _).up (Touches.up (raise_touches_settled _ _ (s := s.setCircuit c _) hb))
  · rw [declareLost_other h]
    exact (setCircuit_touches _ _ _).up

theorem timeoutProbe_circuit (c : CircuitId) (tag : BitVec 15) (s : State) (q : CircuitId) :
    (timeoutProbe c tag s).circuit q =
      if q = c then
        { s.circuit c with
            lostInARow := satInc 255 (s.circuit c).lostInARow
            outstanding := (s.circuit c).outstanding.filter fun p => p.tag != tag }
      else s.circuit q := by
  unfold timeoutProbe
  dsimp only
  rw [State.circuit_setCircuit, declareLost_circuit, if_pos rfl, declareLost_circuit]
  by_cases h : q = c
  · simp [h]
  · simp [h]

/-! ## INTERVAL_TIMER_EXPIRY and PROBE_TIMEOUT -/

theorem exec_intervalTimerExpiry {c : CircuitId} {s : State} (ha : s.awake = true)
    (hc : s.timerDue (s.circuit c).intervalTimer = true) :
    exec (.intervalTimerExpiry c) s = .next (requestProbe c (startInterval c s)) :=
  event_taken (f := fun s => requestProbe c (startInterval c s)) ha hc

theorem exec_probeTimeout {c : CircuitId} {tag : BitVec 15} {s : State} (ha : s.awake = true)
    (hc : s.probeDue c tag = true) : exec (.probeTimeout c tag) s = .next (timeoutProbe c tag s) :=
  event_taken (f := timeoutProbe c tag) ha hc

theorem circuitPort_congr {s t : State} {c : CircuitId} (hst : t.stations = s.stations)
    (hr : (t.circuit c).reporter = (s.circuit c).reporter) : t.circuitPort c = s.circuitPort c := by
  have hstation : ∀ x, t.station x = s.station x := fun x => congrArg (tget · x) hst
  unfold State.circuitPort
  rw [hstation, hr]

theorem requestProbe_probeQueue (c : CircuitId) (s : State) (x : PortId) :
    (requestProbe c s).probeQueue x =
      if s.circuitPort c = some x ∧ c ∉ s.probeQueue x then s.probeQueue x ++ [c] else s.probeQueue x := by
  unfold requestProbe
  cases hp : s.circuitPort c with
  | none => simp
  | some p =>
    dsimp only
    by_cases hc : c ∈ s.probeQueue p
    · rw [if_pos (List.contains_iff_mem.2 hc)]
      by_cases hx : p = x
      · subst hx; simp [hc]
      · simp [hx]
    · rw [if_neg fun h => hc (List.contains_iff_mem.1 h), State.probeQueue_setProbeQueue]
      by_cases hx : x = p
      · subst hx; simp [hc]
      · simp [hx, Ne.symm hx]

theorem departProbe_open {c : CircuitId} {sent : Count} {s : State} (h : (s.circuit c).outstanding.length < 4) :
    departProbe c sent s =
      s.setCircuit c
        { s.circuit c with
            tagGenerator := nextTag (s.circuit c).tagGenerator
            outstanding := (s.circuit c).outstanding ++
              [{ tag := nextTag (s.circuit c).tagGenerator, sent := sent,
                 expiresAt := sent + BitVec.ofNat 32 (48 * (s.circuit c).probeTimeout) }] } := by
  have hfull : decide (Config.probeCap ≤ (s.circuit c).outstanding.length) = false := by
    simpa [Config.probeCap] using h
  unfold departProbe
  rw [hfull]
  rfl

theorem departProbe_full {c : CircuitId} {sent : Count} {s : State} (h : 4 ≤ (s.circuit c).outstanding.length) :
    departProbe c sent s =
      (declareLost c s).setCircuit c
        { s.circuit c with
            tagGenerator := nextTag (s.circuit c).tagGenerator
            lostInARow := satInc 255 (s.circuit c).lostInARow
            outstanding := (s.circuit c).outstanding.drop 1 ++
              [{ tag := nextTag (s.circuit c).tagGenerator, sent := sent,
                 expiresAt := sent + BitVec.ofNat 32 (48 * (s.circuit c).probeTimeout) }] } := by
  have hfull : decide (Config.probeCap ≤ (s.circuit c).outstanding.length) = true := by
    simpa [Config.probeCap] using h
  unfold departProbe
  rw [hfull]
  dsimp only
  rw [if_pos rfl, declareLost_circuit, if_pos rfl]
  rfl

/-- Settles O49. -/
theorem circuitTimersExpire : Obligations.CircuitTimersExpire := by
  refine ⟨fun c tag s ha hs => ⟨fun hdue => ?_, fun hdue => ?_⟩, ?_⟩
  · refine ⟨_, exec_intervalTimerExpiry ha hdue, ?_, fun q hq => ?_, fun x => ?_,
      Touches.trans (setCircuit_touches _ _ _).up (requestProbe_touches _ _).up⟩
    · exact (congrArg (tget · c) (requestProbe_touches c _).circuits).trans (State.circuit_setCircuit_same _ c _)
    · exact (congrArg (tget · q) (requestProbe_touches c _).circuits).trans
        ((State.circuit_setCircuit _ c _ q).trans (if_neg hq))
    · have hport : (startInterval c s).circuitPort c = s.circuitPort c :=
        circuitPort_congr rfl (by rw [startInterval, State.circuit_setCircuit_same])
      rw [requestProbe_probeQueue, hport]
      rfl
  · obtain ⟨hthird, hother⟩ := declareLost_events (c := c) hs.2
    refine ⟨_, exec_probeTimeout ha hdue, (timeoutProbe_circuit c tag s c).trans (if_pos rfl),
      fun q hq => (timeoutProbe_circuit c tag s q).trans (if_neg hq), fun h => (hthird h).congr rfl rfl, hother,
      (declareLost_touches_settled hs.2).trans (setCircuit_touches _ _ _).up⟩
  · intro c sent s r t third probe
    rcases Nat.lt_or_ge r.outstanding.length 4 with hlen | hlen
    · have ht : t = _ := departProbe_open hlen
      refine ⟨fun q hq => ?_, fun k _ => by rw [ht]; rfl, departProbe_touches _ _ _, fun _ => ?_,
        fun h => absurd hlen (Nat.not_lt.2 h)⟩
      · rw [ht, State.circuit_setCircuit, if_neg hq]
      · rw [ht, State.circuit_setCircuit_same]
        exact ⟨rfl, rfl, rfl⟩
    · have ht : t = _ := departProbe_full hlen
      refine ⟨fun q hq => ?_, fun k hk => ?_, departProbe_touches _ _ _, fun h => absurd h (Nat.not_lt.2 hlen),
        fun _ => ⟨?_, fun h => ⟨?_, fun hb => ?_⟩, fun h => ?_⟩⟩
      · rw [ht, State.circuit_setCircuit, if_neg hq, declareLost_circuit, if_neg hq]
      · rw [ht, State.event_setCircuit]
        by_cases h : (s.circuit c).lostInARow = 2
        · rw [declareLost_third h, raise_event_ne _ _ _ hk]; rfl
        · rw [declareLost_other h]; rfl
      · rw [ht, State.circuit_setCircuit_same]
      · rw [ht, State.event_setCircuit, declareLost_third h, raise_event]; rfl
      · rw [ht]; exact ((declareLost_events hb).1 h).congr rfl rfl
      · rw [ht, declareLost_other h]; exact ⟨rfl, rfl⟩

end Sys2Proof.Machine
end

section
/-! PROOF. Echoes and the estimate (R166 to R169), return silence (R171), and the loss and return of a circuit's link
(R172, R173). -/

namespace Sys2Proof.Machine

/-! ## The older probes are lost -/

/-- R166: that losing n probes from a count in a row takes it past the third. -/
def ThirdLoss (lost n : Nat) : Prop := lost ≤ 2 ∧ 2 < lost + n

theorem loseOldest_circuit_ne {c q : CircuitId} (h : q ≠ c) (n : Nat) (s : State) :
    (loseOldest c n s).circuit q = s.circuit q := by
  induction n generalizing s with
  | zero => rfl
  | succ n ih =>
    unfold loseOldest
    dsimp only
    rw [ih, State.circuit_setCircuit, if_neg h, declareLost_circuit, if_neg h]

theorem loseOldest_circuit (c : CircuitId) (n : Nat) (s : State) :
    ∃ lost, (loseOldest c n s).circuit c =
      { s.circuit c with lostInARow := lost, outstanding := (s.circuit c).outstanding.drop n } := by
  induction n generalizing s with
  | zero => exact ⟨_, rfl⟩
  | succ n ih =>
    unfold loseOldest
    dsimp only
    obtain ⟨lost, h⟩ := ih ((declareLost c s).setCircuit c
      { (declareLost c s).circuit c with outstanding := ((declareLost c s).circuit c).outstanding.drop 1 })
    refine ⟨lost, h.trans ?_⟩
    rw [State.circuit_setCircuit_same, declareLost_circuit, if_pos rfl]
    simp

theorem loseOldest_touches_settled {c : CircuitId} {s : State} (n : Nat) (hb : s.timing.atBoundary = false) :
    Touches [.circuits, .events, .notices] s (loseOldest c n s) := by
  induction n generalizing s with
  | zero => exact .refl _ _
  | succ n ih =>
    have hlost := declareLost_touches_settled (c := c) hb
    have hb' : (declareLost c s).timing.atBoundary = false := by rw [hlost.timing]; exact hb
    exact hlost.trans (Touches.trans (setCircuit_touches _ _ _).up (ih hb'))

/-- R167: PROBE_LOST is raised once, where the losses take the count in a row to the third. -/
theorem loseOldest_events (c : CircuitId) (n : Nat) (s : State) (hb : s.timing.atBoundary = false) :
    (ThirdLoss (s.circuit c).lostInARow n → Raised s (loseOldest c n s) .probeLost (some c.val)) ∧
      (¬ThirdLoss (s.circuit c).lostInARow n →
        (loseOldest c n s).events = s.events ∧ (loseOldest c n s).notices = s.notices) := by
  induction n generalizing s with
  | zero =>
    refine ⟨fun h => absurd h.2 ?_, fun _ => ⟨rfl, rfl⟩⟩
    have := h.1
    omega
  | succ n ih =>
    let v := (declareLost c s).setCircuit c
      { (declareLost c s).circuit c with outstanding := ((declareLost c s).circuit c).outstanding.drop 1 }
    have htouch := declareLost_touches_settled (c := c) hb
    have hvb : v.timing.atBoundary = false := by
      rw [show v.timing = s.timing from htouch.timing]; exact hb
    have hv : (v.circuit c).lostInARow = satInc 255 (s.circuit c).lostInARow := by
      rw [State.circuit_setCircuit_same, declareLost_circuit, if_pos rfl]
    obtain ⟨hthird, hother⟩ := declareLost_events (c := c) hb
    obtain ⟨ih1, ih2⟩ := ih v hvb
    change (_ → Raised s (loseOldest c n v) _ _) ∧ (_ → (loseOldest c n v).events = _ ∧ (loseOldest c n v).notices = _)
    rw [hv] at ih1 ih2
    by_cases h2 : (s.circuit c).lostInARow = 2
    · have hno : ¬ThirdLoss (satInc 255 (s.circuit c).lostInARow) n := by
        rw [h2]; exact fun h => absurd h.1 (by decide)
      obtain ⟨he, hn⟩ := ih2 hno
      refine ⟨fun _ => (hthird h2).congr he hn, fun h => absurd ⟨by omega, by omega⟩ h⟩
    · obtain ⟨he, hn⟩ := hother h2
      have hsame : ThirdLoss (satInc 255 (s.circuit c).lostInARow) n ↔ ThirdLoss (s.circuit c).lostInARow (n + 1) := by
        unfold ThirdLoss satInc
        split <;> omega
      rw [← hsame]
      refine ⟨fun h => (ih1 h).base he hn (by rw [show v.timing = s.timing from htouch.timing]), fun h => ?_⟩
      obtain ⟨he', hn'⟩ := ih2 h
      exact ⟨he'.trans he, hn'.trans hn⟩

/-! ## The measurement -/

/-- R168, R169: what a round trip of m makes of the circuit's record. -/
def Circuit.measured (r : Circuit) (m : Nat) : Circuit :=
  { r with previous := r.last, last := some m, estimate := some (nextEstimate r.estimate m), lostInARow := 0
           state := (reevaluate r.state (nextEstimate r.estimate m) r.upperLimit r.lowerLimit).1
           outstanding := r.outstanding.drop 1 }

theorem nextEstimate_eq (e : Option Nat) (m : Nat) :
    nextEstimate e m =
      match e with
      | none => m
      | some e => ((e : Int) + Int.tdiv ((m : Int) - (e : Int)) 8).toNat := by
  cases e with
  | none => rfl
  | some e => rfl

theorem reevaluate_ne_probeLost (st : CircuitState) (e u l : Nat) : (reevaluate st e u l).2 ≠ some .probeLost := by
  have hite : ∀ (p : Prop) [Decidable p] (a b : CircuitState × Option EventKind), a.2 ≠ some .probeLost →
      b.2 ≠ some .probeLost → (if p then a else b).2 ≠ some .probeLost := fun p _ a b ha hb => by split <;> assumption
  cases st with
  | starting => exact hite _ _ _ (by decide) (by decide)
  | normal => exact hite _ _ _ (by decide) (by decide)
  | degraded => exact hite _ _ _ (by decide) (by decide)
  | disabled => exact nofun
  | linkLost => exact nofun

theorem measure_eq (c : CircuitId) (m : Nat) (s : State) :
    measure c m s =
      match (reevaluate (s.circuit c).state (nextEstimate (s.circuit c).estimate m) (s.circuit c).upperLimit
        (s.circuit c).lowerLimit).2 with
      | some k => raise k (some c.val) (s.setCircuit c ((s.circuit c).measured m))
      | none => s.setCircuit c ((s.circuit c).measured m) := rfl

theorem measure_circuit (c : CircuitId) (m : Nat) (s : State) (q : CircuitId) :
    (measure c m s).circuit q = if q = c then (s.circuit c).measured m else s.circuit q := by
  rw [measure_eq]
  split
  · rw [raise_circuit, State.circuit_setCircuit]
  · rw [State.circuit_setCircuit]

theorem measure_touches_settled {c : CircuitId} {s : State} (m : Nat) (hb : s.timing.atBoundary = false) :
    Touches [.circuits, .events, .notices] s (measure c m s) := by
  rw [measure_eq]
  split
  · exact Touches.trans (setCircuit_touches _ _ _).up (Touches.up (raise_touches_settled _ _ (s := s.setCircuit c _) hb))
  · exact (setCircuit_touches _ _ _).up

theorem measure_quiet {c : CircuitId} {m : Nat} {s : State}
    (h : (reevaluate (s.circuit c).state (nextEstimate (s.circuit c).estimate m) (s.circuit c).upperLimit
      (s.circuit c).lowerLimit).2 = none) :
    (measure c m s).events = s.events ∧ (measure c m s).notices = s.notices := by
  rw [measure_eq, h]
  exact ⟨rfl, rfl⟩

theorem measure_raised {c : CircuitId} {m : Nat} {s : State} {k : EventKind} (hb : s.timing.atBoundary = false)
    (h : (reevaluate (s.circuit c).state (nextEstimate (s.circuit c).estimate m) (s.circuit c).upperLimit
      (s.circuit c).lowerLimit).2 = some k) : Raised s (measure c m s) k (some c.val) := by
  rw [measure_eq, h]
  exact (raise_raised k (some c.val) (s.setCircuit c _) hb).base rfl rfl rfl

theorem acceptEcho_found {c : CircuitId} {p : Probe} {older rest : List Probe} {s : State}
    (h : (s.circuit c).outstanding = older ++ p :: rest) (hold : ∀ q ∈ older, q.tag ≠ p.tag) (arrival : Count) :
    acceptEcho c p.tag arrival s = measure c (arrival - p.sent).toNat (loseOldest c older.length s) := by
  have hnone : older.findIdx? (fun q => q.tag == p.tag) = none := by
    rw [List.findIdx?_eq_none_iff]
    intro q hq
    simpa using hold q hq
  have hfind : (s.circuit c).outstanding.findIdx? (fun q => q.tag == p.tag) = some older.length := by
    rw [h, List.findIdx?_append, hnone]
    simp [List.findIdx?_cons]
  have hget : (s.circuit c).outstanding[older.length]? = some p := by rw [h]; simp
  unfold acceptEcho
  dsimp only
  rw [hfind]
  dsimp only
  rw [hget]

theorem Raised.isSet {s t : State} {k : EventKind} {i : Option Nat} (h : Raised s t k i) :
    (t.event k).isSet = true ∧ (t.event k).inst = i := by
  obtain ⟨h1, -⟩ := h
  rw [h1]
  exact ⟨rfl, rfl⟩

/-! ## The loss and the return of a port -/

theorem CircuitState.probes_iff (st : CircuitState) :
    st.probes = true ↔ st = .starting ∨ st = .normal ∨ st = .degraded := by cases st <;> decide

theorem circuitPort_iff {s : State} {c : CircuitId} {x : PortId} :
    s.circuitPort c = some x ↔ ∃ d, (s.station (s.circuit c).reporter).dest = some d ∧ portOf d = x := by
  simp [State.circuitPort, Option.map_eq_some_iff]

theorem linkLost_circuit (c : CircuitId) (s : State) (q : CircuitId) :
    (linkLost c s).circuit q =
      if q = c then { s.circuit c with state := .linkLost, intervalTimer := none, outstanding := [] }
      else s.circuit q := State.circuit_setCircuit s c _ q

theorem withdrawProbe_probeQueue (c : CircuitId) (s : State) (y : PortId) :
    (withdrawProbe c s).probeQueue y = (s.probeQueue y).filter fun q => q != c := tget_map _ _ y

/-- R172's condition of a circuit: it probes, and its reporter's destination is of the port. -/
def State.OnPort (s : State) (st : CircuitState → Prop) (x : PortId) (r : Circuit) : Prop :=
  st r.state ∧ ∃ d, (s.station r.reporter).dest = some d ∧ portOf d = x

theorem OnPort.congr {s t : State} (h : t.stations = s.stations) {st : CircuitState → Prop} {x : PortId} {r : Circuit} :
    t.OnPort st x r ↔ s.OnPort st x r := by
  have hstation : ∀ y, t.station y = s.station y := fun y => congrArg (tget · y) h
  unfold State.OnPort
  simp only [hstation]

/-- R172: a circuit loses its link with the port x. -/
abbrev State.LosesLink (s : State) (x : PortId) (r : Circuit) : Prop :=
  s.OnPort (fun st => st = .starting ∨ st = .normal ∨ st = .degraded) x r

theorem losesLink_iff {s t : State} (h : t.stations = s.stations) (x : PortId) (c : CircuitId) :
    ((t.circuit c).state.probes && t.circuitPort c == some x) = true ↔ s.LosesLink x (t.circuit c) := by
  rw [State.LosesLink, ← OnPort.congr h, Bool.and_eq_true, beq_iff_eq, CircuitState.probes_iff, circuitPort_iff]
  rfl

theorem gainsLink_iff {s t : State} (h : t.stations = s.stations) (x : PortId) (c : CircuitId) :
    ((t.circuit c).state == .linkLost && t.circuitPort c == some x) = true ↔
      s.OnPort (fun st => st = .linkLost) x (t.circuit c) := by
  rw [← OnPort.congr h, Bool.and_eq_true, beq_iff_eq, beq_iff_eq, circuitPort_iff]
  rfl

/-- A circuit's record, and the ports whose queues hold its request. -/
@[ext] structure CircuitLink where
  circuit : Circuit
  queued : PortId → Prop

def State.link (s : State) (c : CircuitId) : CircuitLink :=
  { circuit := s.circuit c, queued := fun y => c ∈ s.probeQueue y }

/-- R172: what the loss leaves of a circuit. -/
def CircuitLink.lost (r : CircuitLink) : CircuitLink :=
  { circuit := { r.circuit with state := .linkLost, intervalTimer := none, outstanding := [] }, queued := fun _ => False }

theorem linkLost_link (c : CircuitId) (s : State) :
    (linkLost c s).link c = (s.link c).lost := by
  refine CircuitLink.ext ((linkLost_circuit c s c).trans (if_pos rfl)) (funext fun y => ?_)
  simp [State.link, CircuitLink.lost, linkLost, withdrawProbe_probeQueue]

theorem linkLost_link_ne {c q : CircuitId} (h : q ≠ c) (s : State) : (linkLost c s).link q = s.link q := by
  refine CircuitLink.ext ((linkLost_circuit c s q).trans (if_neg h)) (funext fun y => ?_)
  simp [State.link, linkLost, withdrawProbe_probeQueue, h]

open Classical in
theorem fieldPortLost_link (x : PortId) (s : State) (c : CircuitId) :
    (fieldPortLost x s).link c =
      if s.LosesLink x (s.circuit c) then (s.link c).lost else s.link c := by
  refine (foldl_each (get := State.link) (R := fun t => t.stations = s.stations)
    (h := fun _ r => if s.LosesLink x r.circuit then r.lost else r)
    (fun t i ht => ?_) (fun t i j hj => ?_) (fun t i ht => ?_) (allOf_nodup 16) rfl c).trans (if_pos (mem_allOf c))
  · split
    · exact (linkLost_touches i t).stations.trans ht
    · exact ht
  · split
    · exact linkLost_link_ne hj t
    · rfl
  · rw [show (t.link i).circuit = t.circuit i from rfl]
    by_cases hl : s.LosesLink x (t.circuit i)
    · rw [if_pos hl, if_pos ((losesLink_iff ht x i).2 hl), linkLost_link]
    · rw [if_neg hl, if_neg ((losesLink_iff ht x i).not.2 hl)]

theorem fieldPortLost_lost {x : PortId} {s : State} {c : CircuitId} (h : s.LosesLink x (s.circuit c)) :
    (fieldPortLost x s).circuit c =
        { s.circuit c with state := .linkLost, intervalTimer := none, outstanding := [] } ∧
      ∀ y, c ∉ (fieldPortLost x s).probeQueue y := by
  have hl := (fieldPortLost_link x s c).trans (if_pos h)
  simp only [State.link, CircuitLink.lost, CircuitLink.mk.injEq] at hl
  exact ⟨hl.1, fun y hy => (congrFun hl.2 y).mp hy⟩

theorem fieldPortLost_kept {x : PortId} {s : State} {c : CircuitId} (h : ¬s.LosesLink x (s.circuit c)) :
    (fieldPortLost x s).circuit c = s.circuit c ∧
      ∀ y, c ∈ (fieldPortLost x s).probeQueue y ↔ c ∈ s.probeQueue y := by
  have hl := (fieldPortLost_link x s c).trans (if_neg h)
  simp only [State.link, CircuitLink.mk.injEq] at hl
  exact ⟨hl.1, fun y => iff_of_eq (congrFun hl.2 y)⟩

open Classical in
theorem fieldPortUp_circuit (x : PortId) (s : State) (c : CircuitId) :
    (fieldPortUp x s).circuit c =
      if s.OnPort (fun st => st = .linkLost) x (s.circuit c) then s.restarted (s.circuit c) else s.circuit c := by
  refine (foldl_each (get := State.circuit) (R := fun t => t.stations = s.stations ∧ t.timing = s.timing)
    (h := fun _ r => if s.OnPort (fun st => st = .linkLost) x r then s.restarted r else r)
    (fun t i ht => ?_) (fun t i j hj => ?_) (fun t i ht => ?_) (allOf_nodup 16) ⟨rfl, rfl⟩ c).trans (if_pos (mem_allOf c))
  · split
    · exact ht
    · exact ht
  · split
    · rw [startInterval, State.circuit_setCircuit, if_neg hj, State.circuit_setCircuit, if_neg hj]
    · rfl
  · obtain ⟨hst, htm⟩ := ht
    by_cases hl : s.OnPort (fun st => st = .linkLost) x (t.circuit i)
    · rw [if_pos hl, if_pos ((gainsLink_iff hst x i).2 hl), startInterval, State.circuit_setCircuit_same,
        State.circuit_setCircuit_same]
      simp only [State.after, State.setCircuit_timing, htm]
      rfl
    · rw [if_neg hl, if_neg ((gainsLink_iff hst x i).not.2 hl)]

/-- Settles O54. -/
theorem echoMeasures : Obligations.EchoMeasures := by
  refine ⟨?_, fun c tag arrival s h => ?_, ?_, ?_⟩
  · intro c p older rest arrival s hb hout hold r m e t third
    let v := loseOldest c older.length s
    have ht : t = measure c m v := acceptEcho_found hout hold arrival
    have hvt : Touches [.circuits, .events, .notices] s v := loseOldest_touches_settled _ hb
    have hvb : v.timing.atBoundary = false := by rw [hvt.timing]; exact hb
    obtain ⟨lost, hv⟩ := loseOldest_circuit c older.length s
    have hv : v.circuit c = { r with lostInARow := lost, outstanding := p :: rest } := by
      rw [show v.circuit c = _ from hv, hout]
      simp [r]
    have hest : nextEstimate (v.circuit c).estimate m = e := by
      rw [hv]
      exact nextEstimate_eq r.estimate m
    obtain ⟨hthird, hother⟩ := loseOldest_events c older.length s hb
    have hcirc : t.circuit c = (v.circuit c).measured m := by rw [ht, measure_circuit, if_pos rfl]
    have hstate : (t.circuit c).state = (reevaluate r.state e r.upperLimit r.lowerLimit).1 := by
      rw [hcirc, Circuit.measured, hest, hv]
    have hquiet : (reevaluate r.state e r.upperLimit r.lowerLimit).2 = none →
        t.events = v.events ∧ t.notices = v.notices := fun h => by
      rw [ht]; exact measure_quiet (by rw [hest, hv]; exact h)
    have hraised : ∀ k, (reevaluate r.state e r.upperLimit r.lowerLimit).2 = some k →
        Raised v t k (some c.val) := fun k h => by
      rw [ht]; exact measure_raised hvb (by rw [hest, hv]; exact h)
    have hkeep : t.event .probeLost = v.event .probeLost := by
      cases hev : (reevaluate r.state e r.upperLimit r.lowerLimit).2 with
      | none => simp only [State.event, (hquiet hev).1]
      | some k =>
        refine (hraised k hev).2.1 _ ?_
        rintro rfl
        exact reevaluate_ne_probeLost _ _ _ _ hev
    have hperiod : v.timing.period = s.timing.period := by rw [hvt.timing]
    have hnew : ∀ k, (reevaluate r.state e r.upperLimit r.lowerLimit).2 = some k →
        (t.event k).isSet = true ∧ (t.event k).inst = some c.val ∧ (¬third → Raised s t k (some c.val)) := fun k h =>
      ⟨(hraised k h).isSet.1, (hraised k h).isSet.2, fun hno => (hraised k h).base (hother hno).1 (hother hno).2 hperiod⟩
    have hold' : (reevaluate r.state e r.upperLimit r.lowerLimit).2 = none →
        (third → Raised s t .probeLost (some c.val)) ∧ (¬third → t.events = s.events ∧ t.notices = s.notices) := fun h =>
      ⟨fun h3 => (hthird h3).congr (hquiet h).1 (hquiet h).2,
        fun h3 => ⟨(hquiet h).1.trans (hother h3).1, (hquiet h).2.trans (hother h3).2⟩⟩
    refine ⟨?_, fun q hq => ?_, ?_, fun h3 => ?_, fun h3 => ?_, fun hst => ⟨fun hlt => ?_, fun hle => ?_⟩,
      fun hst => ⟨fun hlt => ?_, fun hle => ?_⟩, fun hst => ?_⟩
    · rw [hcirc, Circuit.measured, hest, hv]
      rfl
    · rw [ht, measure_circuit, if_neg hq, loseOldest_circuit_ne hq]
    · rw [ht]; exact hvt.trans (measure_touches_settled m hvb)
    · rw [hkeep]; exact (hthird h3).isSet
    · rw [hkeep]; simp only [State.event, v, (hother h3).1]
    · have hre : reevaluate r.state e r.upperLimit r.lowerLimit = (.degraded, some .fieldDegraded) := by
        rcases hst with h | h <;> rw [h] <;> exact if_pos hlt
      exact ⟨by rw [hstate, hre], hnew _ (by rw [hre])⟩
    · have hre : reevaluate r.state e r.upperLimit r.lowerLimit = (.normal, none) := by
        rcases hst with h | h <;> rw [h] <;> exact if_neg (Nat.not_lt.2 hle)
      exact ⟨by rw [hstate, hre], hold' (by rw [hre])⟩
    · have hre : reevaluate r.state e r.upperLimit r.lowerLimit = (.normal, some .fieldNormal) := by
        rw [hst]; exact if_pos hlt
      exact ⟨by rw [hstate, hre], hnew _ (by rw [hre])⟩
    · have hre : reevaluate r.state e r.upperLimit r.lowerLimit = (.degraded, none) := by
        rw [hst]; exact if_neg (Nat.not_lt.2 hle)
      exact ⟨by rw [hstate, hre], hold' (by rw [hre])⟩
    · rw [hstate, hst]; rfl
  · have hnone : (s.circuit c).outstanding.findIdx? (fun q => q.tag == tag) = none := by
      rw [List.findIdx?_eq_none_iff]
      intro q hq
      simpa using h q hq
    unfold acceptEcho
    dsimp only
    rw [hnone]
  · intro c peak s hb r ms t
    have hflag : (!r.silent && decide (r.silenceTime ≤ ms)) = true ↔ r.silent = false ∧ r.silenceTime ≤ ms := by
      rw [Bool.and_eq_true, Bool.not_eq_true', decide_eq_true_iff]
    refine ⟨fun h => if_neg (Nat.not_lt.2 h), fun h hq => (if_pos h).trans (if_neg (hflag.not.2 ?_)),
      fun h hs hm => ?_⟩
    · rintro ⟨h1, h2⟩
      rcases hq with hq | hq
      · rw [hq] at h1; cases h1
      · exact Nat.not_le.2 hq h2
    · have ht : t = raise .returnSilent (some c.val) (s.setCircuit c { r with silentMs := ms, silent := true }) :=
        (if_pos h).trans (if_pos (hflag.2 ⟨hs, hm⟩))
      refine ⟨?_, fun q hq => ?_, ?_, ?_⟩
      · rw [ht, raise_circuit, State.circuit_setCircuit_same]
      · rw [ht, raise_circuit, State.circuit_setCircuit, if_neg hq]
      · rw [ht]; exact (raise_raised _ _ (s.setCircuit c _) hb).base rfl rfl rfl
      · rw [ht]
        exact Touches.trans (setCircuit_touches _ _ _).up
          (Touches.up (raise_touches_settled _ _ (s := s.setCircuit c _) hb))
  · intro x c s r on lost back t u
    exact ⟨fieldPortLost_touches x s, fieldPortUp_touches x s, fieldPortLost_lost, fieldPortLost_kept,
      fun h => (fieldPortUp_circuit x s c).trans (if_pos h), fun h => (fieldPortUp_circuit x s c).trans (if_neg h)⟩

end Sys2Proof.Machine
end

section
/-! PROOF. The assembly of a destination (R70, R88, R93, R94), the targets of its entries (R84 to R86), the samples of a
source (R20) and the contributions (R89). -/

namespace Sys2Proof.Machine

/-! ## What an assembly writes -/

/-- The record that an assembly leaves of its destination. -/
def State.assembled (s before : State) (d : DestId) : Dest :=
  { s.dest d with
      appliedOutput := factor (s.dest d).outputLevel
      clipCounter := satAdd 65535 (s.dest d).clipCounter
        (if (s.dest d).enabled then clippedCount (s.destZ before d) else 0)
      previousOutput := if (s.dest d).enabled then (s.destZ before d).map saturate else silence }

/-- R70, R88: all that an assembly does but raise CLIP. -/
def closeDest (before : State) (d : DestId) (s : State) : State :=
  ((s.entriesOf d).filter fun e => e.state == .releasing).foldl (fun t e => handEntry e.source d t)
    (closeTaps d ((s.setEntries d (s.closeEntries d)).setDest d (s.assembled before d)))

theorem assembleDest_eq (before : State) (d : DestId) (s : State) :
    assembleDest before d s =
      if (if (s.dest d).enabled then clippedCount (s.destZ before d) else 0) = 0 then closeDest before d s
      else raise .clip (some d.val) (closeDest before d s) := rfl

theorem closeDest_touches_lampDirty (before : State) (d : DestId) (s : State) :
    Touches [.lampDirty] (closeTaps d ((s.setEntries d (s.closeEntries d)).setDest d (s.assembled before d)))
      (closeDest before d s) :=
  Touches.foldl (fun t _ => handEntry_touches _ _ t) _ _

theorem closeDest_touches (before : State) (d : DestId) (s : State) :
    Touches [.entries, .dests, .taps, .lampDirty] s (closeDest before d s) :=
  Touches.trans (setEntries_touches _ _ _).up (Touches.trans (setDest_touches _ _ _).up
    (Touches.trans (closeTaps_touches _ _).up (closeDest_touches_lampDirty before d s).up))

theorem closeDest_dest (before : State) (d : DestId) (s : State) (m : DestId) :
    (closeDest before d s).dest m = if m = d then s.assembled before d else s.dest m :=
  (congrArg (tget · m) (closeDest_touches_lampDirty before d s).dests).trans
    (State.dest_setDest (s.setEntries d (s.closeEntries d)) d _ m)

theorem closeDest_tap (before : State) (d : DestId) (s : State) (x : TapId) :
    (closeDest before d s).tap x =
      if (s.tap x).side = .destination ∧ (s.tap x).monitor = d then
        { s.tap x with applied := if (s.tap x).enabled then factor (s.tap x).level else 0 }
      else s.tap x :=
  (congrArg (tget · x) (closeDest_touches_lampDirty before d s .taps (by decide))).trans (tget_map _ _ x)

theorem assembleDest_touches_clip (before : State) (d : DestId) (s : State) :
    Touches [.events, .notices, .draws] (closeDest before d s) (assembleDest before d s) := by
  have hclip : ∀ (n : Nat) (u : State),
      Touches [.events, .notices, .draws] u (if n = 0 then u else raise .clip (some d.val) u) := by
    intro n u
    split
    · exact .refl _ _
    · exact raise_touches _ _ _
  exact hclip _ _

theorem assembleDest_dest (before : State) (d : DestId) (s : State) (m : DestId) :
    (assembleDest before d s).dest m = if m = d then s.assembled before d else s.dest m :=
  (congrArg (tget · m) (assembleDest_touches_clip before d s).dests).trans (closeDest_dest before d s m)

theorem assembleDest_tap (before : State) (d : DestId) (s : State) (x : TapId) :
    (assembleDest before d s).tap x =
      if (s.tap x).side = .destination ∧ (s.tap x).monitor = d then
        { s.tap x with applied := if (s.tap x).enabled then factor (s.tap x).level else 0 }
      else s.tap x :=
  (congrArg (tget · x) (assembleDest_touches_clip before d s .taps (by decide))).trans (closeDest_tap before d s x)

theorem saturate_ne_iff (z : Int) : saturate z ≠ z ↔ 8388607 < z ∨ z < -8388608 := by
  unfold saturate; omega

theorem clippedCount_ne_zero (l : List Int) : clippedCount l ≠ 0 ↔ ∃ z ∈ l, 8388607 < z ∨ z < -8388608 := by
  simp only [clippedCount, bne_iff_ne, saturate_ne_iff, ne_eq, List.length_eq_zero_iff, List.filter_eq_nil_iff,
    not_forall, not_not, exists_prop]

/-! ## Targets -/

theorem degradeCode_some {s : State} {d : DestId} {c : CircuitId} (h1 : (s.dest d).circuit = some c)
    (h2 : (s.circuit c).state = .degraded) : s.degradeCode d = some (s.circuit c).degradeCode := by
  simp [State.degradeCode, h1, h2]

theorem degradeCode_none {s : State} {d : DestId}
    (h : ∀ c, ¬((s.dest d).circuit = some c ∧ (s.circuit c).state = .degraded)) : s.degradeCode d = none := by
  unfold State.degradeCode
  split
  · rename_i c hc
    exact if_neg fun hd => h c ⟨hc, hd⟩
  · rfl

/-- R84 to R86: the target of an entry that sounds. -/
theorem entryTarget_sounding {s : State} {d : DestId} {e : Entry}
    (h : ¬(e.state = .releasing ∨ (0 < (s.source e.source).isolation ∧ (s.dest d).kind ≠ .monitor))) :
    s.entryTarget d e =
      match e.cls, s.dimCode d with
      | .programme, some c => factor (combine (combine e.level (s.source e.source).trim) c)
      | .programme, none => factor (combine e.level (s.source e.source).trim)
      | .talk, _ => factor (combine e.level (s.source e.source).trim) := by
  obtain ⟨h1, h2⟩ := not_or.1 h
  exact (if_neg h1).trans (if_neg h2)

theorem entryTarget_plain {s : State} {d : DestId} {e : Entry}
    (h : ¬(e.state = .releasing ∨ (0 < (s.source e.source).isolation ∧ (s.dest d).kind ≠ .monitor)))
    (hd : e.cls = .talk ∨ s.dimCode d = none) :
    s.entryTarget d e = factor (combine e.level (s.source e.source).trim) := by
  rw [entryTarget_sounding h]
  rcases hd with hd | hd
  · rw [hd]
  · rw [hd]
    cases e.cls <;> rfl

theorem entryTarget_dimmed {s : State} {d : DestId} {e : Entry} {c : Level}
    (h : ¬(e.state = .releasing ∨ (0 < (s.source e.source).isolation ∧ (s.dest d).kind ≠ .monitor)))
    (hp : e.cls = .programme) (hc : s.dimCode d = some c) :
    s.entryTarget d e = factor (combine (combine e.level (s.source e.source).trim) c) := by
  rw [entryTarget_sounding h, hp, hc]

/-- R85, R86: the dim code that is in force. -/
theorem dimCode_eq {s : State} {d : DestId} (hk : (s.dest d).kind = .ifb) :
    s.dimCode d =
      match (s.arbiter d).current, s.degradeCode d with
      | some _, none => some (s.dest d).dimCode
      | none, some g => some g
      | some _, some g => some (min (s.dest d).dimCode g)
      | none, none => none := if_pos hk

/-- Settles O51. -/
theorem assemblyClosesEntries : Obligations.AssemblyClosesEntries := by
  refine ⟨?_, ?_, ?_, fun before s d => rfl⟩
  · intro before s d t
    refine ⟨(entriesOf_assembleDest before d s d).trans (if_pos rfl), fun m hm =>
      ⟨(entriesOf_assembleDest before d s m).trans (if_neg hm), (assembleDest_dest before d s m).trans (if_neg hm)⟩,
      assembleDest_tap before d s, fun hen hclip => ?_, fun hen => ?_⟩
    · have hne : (if (s.dest d).enabled then clippedCount (s.destZ before d) else 0) ≠ 0 := by
        rw [if_pos hen]
        exact (clippedCount_ne_zero _).2 hclip
      rw [show t = raise .clip (some d.val) (closeDest before d s) from
        (assembleDest_eq before d s).trans (if_neg hne), raise_event]
      exact ⟨rfl, rfl⟩
    · have ht : t = closeDest before d s := (assembleDest_eq before d s).trans (if_pos (by simp [hen]))
      rw [ht]
      exact (closeDest_touches before d s).events
  · intro s d e code silent dims talker degraded dim
    have hnone : (∀ c, ¬degraded c) → s.degradeCode d = none := degradeCode_none
    refine ⟨fun h => ?_, fun h hd => ?_, fun h hd ht hno => ?_, fun c h hd hdeg => ?_⟩
    · rcases h with h | h
      · exact if_pos h
      · unfold State.entryTarget
        rw [if_pos h, ite_self]
    · refine entryTarget_plain h ?_
      by_cases hk : (s.dest d).kind = .ifb
      · rcases hd with hd | ⟨ht, hno⟩
        · left
          cases hcls : e.cls with
          | talk => rfl
          | programme => exact absurd ⟨hcls, hk⟩ hd
        · right
          rw [dimCode_eq hk, not_not.1 ht, hnone hno]
      · right
        exact if_neg hk
    · refine entryTarget_dimmed h hd.1 ?_
      obtain ⟨k, hk⟩ := Option.ne_none_iff_exists'.1 ht
      rw [dimCode_eq hd.2, hk, hnone hno]
    · refine entryTarget_dimmed h hd.1 ?_
      rw [dimCode_eq hd.2, degradeCode_some hdeg.1 hdeg.2]
      cases hcur : (s.arbiter d).current with
      | none => simp
      | some k =>
        simp only [reduceCtorEq, false_or, Option.some.injEq]
        rcases lt_or_ge (s.circuit c).degradeCode dim with hlt | hge
        · rw [if_pos hlt]
          exact min_eq_right hlt.le
        · rw [if_neg (not_lt.2 hge)]
          exact min_eq_left hge
  · intro s n b heard
    refine ⟨fun ⟨h1, h2, h3⟩ => ?_, fun h => ?_⟩
    · exact (if_pos ⟨h1, h2⟩).trans (if_pos h3)
    · by_cases hs : (s.source n).enabled = true ∧ b.stamp = some s.timing.period
      · exact (if_pos hs).trans (if_neg fun h3 => h ⟨hs.1, hs.2, h3⟩)
      · exact if_neg hs

end Sys2Proof.Machine
end

section
/-! PROOF. The party orders (R129 to R131) and the party writes (R126 to R128, R132). -/

namespace Sys2Proof.Machine

/-! ## Orders answered with their code and result alone -/

theorem order_plain {tag : Byte} {o : Order} {r : Result} {body : State → State} {s : State} (hs : s.Ready tag o)
    (hbody : body (takeHead s) = plainReply tag o r (takeHead s)) :
    ∃ t, order tag o body s = .next t ∧
      Answered s t tag (stated ([o.code, r.code, 128] ++ List.replicate 25 0)) [] := by
  obtain ⟨t, ht, ha⟩ := order_replies (c := o.code) (r := r) (mark := markByte true 0)
    (rest := stated (List.replicate 25 0)) hs hbody (by simp)
  exact ⟨t, ht, ha.layout (by rw [markByte_final, stated_append])⟩

theorem order_plain_works {tag : Byte} {o : Order} {r : Result} {body : State → State} {s u : State} {l : List Fld}
    (hs : s.Ready tag o) (hbody : body (takeHead s) = plainReply tag o r u)
    (hu : Touches (.lampDirty :: l) (takeHead s) u) (hkept : UnitKept (takeHead s) u) :
    ∃ t, order tag o body s = .next t ∧
      Answered s t tag (stated ([o.code, r.code, 128] ++ List.replicate 25 0)) (.panels :: l) ∧
      Touches [.replies, .draws, .panels, .lampDirty] u t ∧ PanelsButLamps u t := by
  obtain ⟨t, ht, ha, h1, h2⟩ := order_works (c := o.code) (r := r) (mark := markByte true 0)
    (rest := stated (List.replicate 25 0)) hs hbody hu hkept (by simp)
  exact ⟨t, ht, ha.layout (by rw [markByte_final, stated_append]), h1, h2⟩

/-! ## The party orders -/

theorem indexIn_eq_none {n i : Nat} (h : n ≤ i) : indexIn n i = none := dif_neg (Nat.not_lt.2 h)

theorem indexIn_of_eq {n i : Nat} {j : Fin n} (h : i = j.val) : indexIn n i = some j := indexIn_eq_some.2 h

theorem indexPair_none {party station : Byte} (h : 16 ≤ party.toNat ∨ 192 ≤ station.toNat) :
    indexIn 16 party.toNat = none ∨ indexIn 192 station.toNat = none :=
  h.imp indexIn_eq_none indexIn_eq_none

theorem joinCheck_none {s : State} {party station listen : Byte} (h : 16 ≤ party.toNat ∨ 192 ≤ station.toNat) :
    s.joinCheck party station listen = .error .badIndex := by
  unfold State.joinCheck
  rcases indexPair_none h with h | h
  · rw [h]
  · rw [h]; cases indexIn 16 party.toNat <;> rfl

theorem partyLeaveUnit_none {tag party station : Byte} {s : State} (h : 16 ≤ party.toNat ∨ 192 ≤ station.toNat) :
    partyLeaveUnit tag party station s = plainReply tag (.partyLeave party station) .badIndex s := by
  unfold partyLeaveUnit
  rcases indexPair_none h with h | h
  · rw [h]
  · rw [h]; cases indexIn 16 party.toNat <;> rfl

theorem partyFlagsUnit_none {tag party station named values : Byte} {s : State}
    (h : 16 ≤ party.toNat ∨ 192 ≤ station.toNat) :
    partyFlagsUnit tag party station named values s =
      plainReply tag (.partyFlags party station named values) .badIndex s := by
  unfold partyFlagsUnit
  rcases indexPair_none h with h | h
  · rw [h]
  · rw [h]; cases indexIn 16 party.toNat <;> rfl

/-- R129's checks, in their order. -/
theorem joinCheck_eq {s : State} {party station listen : Byte} {p : PartyId} {x : StationId}
    (hp : party.toNat = p.val) (hx : station.toNat = x.val) :
    s.joinCheck party station listen =
      if 1 < listen.toNat then .error .badValue
      else if (s.station x).kind = .unused then .error .wrongKind
      else if ((s.party p).find x).isSome then .error .duplicate
      else if 24 ≤ (s.party p).members.length then .error .full
      else if 4 ≤ s.membershipCount x then .error .full
      else .ok (p, x) := by
  unfold State.joinCheck
  rw [indexIn_of_eq hp, indexIn_of_eq hx]

theorem partyLeaveUnit_missing {tag party station : Byte} {p : PartyId} {x : StationId} {s : State}
    (hp : party.toNat = p.val) (hx : station.toNat = x.val) (hm : (s.party p).find x = none) :
    partyLeaveUnit tag party station s = plainReply tag (.partyLeave party station) .notFound s := by
  unfold partyLeaveUnit
  rw [indexIn_of_eq hp, indexIn_of_eq hx]
  dsimp only
  rw [hm]

theorem partyLeaveUnit_member {tag party station : Byte} {p : PartyId} {x : StationId} {s : State} {m : Member}
    (hp : party.toNat = p.val) (hx : station.toNat = x.val) (hm : (s.party p).find x = some m) :
    ∃ u, partyLeaveUnit tag party station s = plainReply tag (.partyLeave party station) .ok u ∧
      Touches [.lampDirty]
        (changeParty p { s.party p with members := (s.party p).members.filter fun m => m.station != x } s) u := by
  unfold partyLeaveUnit
  rw [indexIn_of_eq hp, indexIn_of_eq hx]
  dsimp only
  rw [hm]
  refine ⟨_, rfl, ?_⟩
  split
  · exact handTalk_touches _ _ _
  · exact .refl _ _

theorem partyFlagsUnit_bad {tag party station named values : Byte} {p : PartyId} {x : StationId} {s : State}
    (hp : party.toNat = p.val) (hx : station.toNat = x.val)
    (h : named = 0 ∨ 3 < named.toNat ∨ 3 < values.toNat) :
    partyFlagsUnit tag party station named values s =
      plainReply tag (.partyFlags party station named values) .badValue s := by
  unfold partyFlagsUnit
  rw [indexIn_of_eq hp, indexIn_of_eq hx]
  exact if_pos h

theorem partyFlagsUnit_missing {tag party station named values : Byte} {p : PartyId} {x : StationId} {s : State}
    (hp : party.toNat = p.val) (hx : station.toNat = x.val)
    (h : ¬(named = 0 ∨ 3 < named.toNat ∨ 3 < values.toNat)) (hm : (s.party p).find x = none) :
    partyFlagsUnit tag party station named values s =
      plainReply tag (.partyFlags party station named values) .notFound s := by
  unfold partyFlagsUnit
  rw [indexIn_of_eq hp, indexIn_of_eq hx]
  dsimp only
  rw [if_neg h, hm]

theorem partyFlagsUnit_member {tag party station named values : Byte} {p : PartyId} {x : StationId} {s : State}
    {m : Member} (hp : party.toNat = p.val) (hx : station.toNat = x.val)
    (h : ¬(named = 0 ∨ 3 < named.toNat ∨ 3 < values.toNat)) (hm : (s.party p).find x = some m) :
    ∃ u, partyFlagsUnit tag party station named values s =
        plainReply tag (.partyFlags party station named values) .ok u ∧
      Touches [.lampDirty] (changeParty p ((s.party p).mapMember x fun m => m.flagged named values) s) u := by
  unfold partyFlagsUnit
  rw [indexIn_of_eq hp, indexIn_of_eq hx]
  dsimp only
  rw [if_neg h, hm]
  refine ⟨_, rfl, ?_⟩
  split
  · exact .refl _ _
  · exact handTalk_touches _ _ _

/-- What a party order that changes the party leaves, lamps handed to the lamp unit apart. -/
theorem order_changes_party {tag : Byte} {o : Order} {body : State → State} {s u : State} {p : PartyId} {r : Party}
    (hs : s.Ready tag o) (hbody : body (takeHead s) = plainReply tag o .ok u)
    (hu : Touches [.lampDirty] (changeParty p r (takeHead s)) u) :
    ∃ t, order tag o body s = .next t ∧
      Answered s t tag (stated ([o.code, 0, 128] ++ List.replicate 25 0)) (.panels :: partyFields) ∧
      t.party p = r ∧ (∀ q, q ≠ p → t.party q = s.party q) ∧ PanelsButLamps s t := by
  have htouch : Touches partyFields (takeHead s) u := (changeParty_touches p r (takeHead s)).trans hu.up
  obtain ⟨t, ht, ha, h1, h2⟩ := order_plain_works hs hbody (htouch.up (m := .lampDirty :: partyFields)) htouch.unitKept
  have hparty : ∀ q, t.party q = if q = p then r else s.party q := fun q =>
    (congrArg (tget · q) (h1.parties.trans hu.parties)).trans (changeParty_party p r (takeHead s) q)
  exact ⟨t, ht, ha, (hparty p).trans (if_pos rfl), fun q hq => (hparty q).trans (if_neg hq),
    .trans (.of_panels htouch.panels) h2⟩

/-- Settles O31. -/
theorem partyOrdersAnswer : Obligations.PartyOrdersAnswer := by
  intro tag party station listen named values s refused join leave flags
  refine ⟨fun h => ⟨fun hs => ?_, fun hs => ?_, fun hs => ?_⟩, ?_⟩
  · exact order_plain (body := partyJoinUnit tag party station listen) hs
      (by unfold partyJoinUnit; rw [joinCheck_none h])
  · exact order_plain (body := partyLeaveUnit tag party station) hs (partyLeaveUnit_none h)
  · exact order_plain (body := partyFlagsUnit tag party station named values) hs (partyFlagsUnit_none h)
  intro p x hp hx r answers
  have hsome : r.find x ≠ none ↔ (r.find x).isSome = true := Option.isSome_iff_ne_none.symm
  refine ⟨fun hs => ?_, fun hs => ?_, fun hs => ?_⟩
  · have hcheck : (takeHead s).joinCheck party station listen = _ := joinCheck_eq hp hx
    have hno : ∀ e, (takeHead s).joinCheck party station listen = .error e → refused join 10 e := fun e he =>
      order_plain (body := partyJoinUnit tag party station listen) hs (by unfold partyJoinUnit; rw [he])
    refine ⟨fun h => hno _ (hcheck.trans (if_pos h)), fun h => ?_⟩
    replace hcheck := hcheck.trans (if_neg (Nat.not_lt.2 h))
    refine ⟨fun h => hno _ (hcheck.trans (if_pos h)), fun h => ?_⟩
    replace hcheck := hcheck.trans (if_neg h)
    refine ⟨fun h => hno _ (hcheck.trans (if_pos (hsome.1 h))), fun h hfull => hno _ ?_, fun h h1 h2 => ?_⟩
    all_goals replace hcheck := hcheck.trans (if_neg fun hd => hsome.2 hd h)
    · refine hcheck.trans ?_
      by_cases h24 : 24 ≤ r.members.length
      · exact if_pos h24
      · exact (if_neg h24).trans (if_pos (hfull.resolve_left h24))
    · have hok : (takeHead s).joinCheck party station listen = .ok (p, x) :=
        hcheck.trans ((if_neg (Nat.not_le.2 h1)).trans (if_neg (Nat.not_le.2 h2)))
      exact order_changes_party (body := partyJoinUnit tag party station listen) hs
        (by unfold partyJoinUnit; rw [hok]; rfl) (.refl _ _)
  · refine ⟨fun h => ?_, fun h => ?_⟩
    · obtain ⟨m, hm⟩ := Option.ne_none_iff_exists'.1 h
      obtain ⟨u, hu, htouch⟩ := partyLeaveUnit_member (tag := tag) (s := takeHead s) hp hx hm
      exact order_changes_party (body := partyLeaveUnit tag party station) hs hu htouch
    · exact order_plain (body := partyLeaveUnit tag party station) hs (partyLeaveUnit_missing hp hx h)
  · refine ⟨fun h => ?_, fun h1 h2 h3 => ?_⟩
    · exact order_plain (body := partyFlagsUnit tag party station named values) hs (partyFlagsUnit_bad hp hx h)
    have hgood : ¬(named = 0 ∨ 3 < named.toNat ∨ 3 < values.toNat) := by
      rintro (h | h | h)
      · exact h1 h
      · omega
      · omega
    refine ⟨fun h => ?_, fun h => ?_⟩
    · exact order_plain (body := partyFlagsUnit tag party station named values) hs
        (partyFlagsUnit_missing hp hx hgood h)
    · obtain ⟨m, hm⟩ := Option.ne_none_iff_exists'.1 h
      obtain ⟨u, hu, htouch⟩ := partyFlagsUnit_member (tag := tag) (s := takeHead s) hp hx hgood hm
      obtain ⟨t, ht, ha, hpar, hrest⟩ :=
        order_changes_party (body := partyFlagsUnit tag party station named values) hs hu htouch
      refine ⟨t, ht, ha, hpar.trans ?_, hrest⟩
      simp only [Party.mapMember, beq_iff_eq, Member.flagged]
      rfl

/-! ## Pairs requested -/

theorem partyHolds_iff_holds {s : State} (hs : StoreInv s) {p : PartyId} {src : SourceId} {d : DestId} :
    s.PartyHolds p src d ↔ ∃ e, s.findEntry src d = some e ∧ e.holds (.party p) = true := by
  rw [hs.partyHolds_iff]
  simp only [Entry.mem_parties]

/-- R65, R127: a request leaves its pair held, or GRANT_REFUSED set. -/
theorem requestPair_settles (p : PartyId) (lv : Level) (s : State) (x : MemberPair) (hs : StoreInv s) :
    (requestPair p lv s x).PartyHolds p x.source x.dest ∨
      ((requestPair p lv s x).event .grantRefused).isSet = true := by
  have hinv := arrive_storeInv (.party p) lv .talk x.source x.dest s hs
  unfold requestPair
  cases hf : s.findEntry x.source x.dest with
  | none =>
    cases hr : s.hasRoom x.dest 1 with
    | false =>
      rw [arrive_full hf hr]
      right
      dsimp only
      rw [if_neg Bool.false_ne_true, raise_event]
      rfl
    | true =>
      rw [arrive_new hf hr] at hinv ⊢
      left
      refine (partyHolds_iff_holds hinv).2 ⟨_, (findEntry_createEntry _ _ _ _ _ s hf _ _).trans (if_pos ⟨rfl, rfl⟩), ?_⟩
      rw [newEntry_holds, decide_eq_true rfl]
  | some e =>
    left
    have hok : (arrive (.party p) lv .talk x.source x.dest s).2 = true :=
      arrive_found_ok hf (.inr fun h => absurd h Bool.false_ne_true)
    change (if (arrive (.party p) lv .talk x.source x.dest s).2 then (arrive (.party p) lv .talk x.source x.dest s).1
      else raise .grantRefused (some x.dest.val) (arrive (.party p) lv .talk x.source x.dest s).1).PartyHolds _ _ _
    rw [if_pos hok]
    refine (partyHolds_iff_holds hinv).2 ?_
    by_cases hh : e.holds (.party p) = true
    · rw [arrive_held hf hh]
      exact ⟨e, hf, hh⟩
    · refine ⟨_, (findEntry_arrive_found hf _ _).trans (if_pos ⟨rfl, rfl, eq_false_of_ne_true hh, nofun⟩), ?_⟩
      rw [Entry.holds_joined, decide_eq_true rfl, Bool.true_or]

theorem arrive_keeps_party {h : Holder} {l : Level} {c : EntryClass} {a : SourceId} {b : DestId} {s : State}
    (hs : StoreInv s) {q : PartyId} {src : SourceId} {d : DestId} (hh : s.PartyHolds q src d) :
    (arrive h l c a b s).1.PartyHolds q src d := by
  have hinv := arrive_storeInv h l c a b s hs
  obtain ⟨e, he, hq⟩ := (partyHolds_iff_holds hs).1 hh
  refine (partyHolds_iff_holds hinv).2 ?_
  cases hf : s.findEntry a b with
  | none =>
    cases hr : s.hasRoom b 1 with
    | false => rw [arrive_full hf hr]; exact ⟨e, he, hq⟩
    | true =>
      rw [arrive_new hf hr]
      refine ⟨e, (findEntry_createEntry _ _ _ _ _ s hf _ _).trans ((if_neg ?_).trans he), hq⟩
      rintro ⟨rfl, rfl⟩
      rw [hf] at he; cases he
  | some e' =>
    rw [findEntry_arrive_found hf]
    split
    · rename_i hc
      obtain ⟨rfl, rfl, -⟩ := hc
      rw [hf] at he
      cases he
      exact ⟨_, rfl, by rw [Entry.holds_joined, hq, Bool.or_true]⟩
    · exact ⟨e, he, hq⟩

theorem requestPair_keeps_holds {p : PartyId} {lv : Level} {s : State} {x : MemberPair} (hs : StoreInv s)
    {q : PartyId} {src : SourceId} {d : DestId} (h : s.PartyHolds q src d) : (requestPair p lv s x).PartyHolds q src d := by
  have ha := arrive_keeps_party (h := .party p) (l := lv) (c := .talk) (a := x.source) (b := x.dest) hs h
  unfold requestPair
  dsimp only
  split
  · exact ha
  · exact (PartyHolds.congr (raise_touches _ _ _).entries).2 ha

theorem raise_keeps_isSet {k j : EventKind} {i : Option Nat} {s : State} (h : (s.event j).isSet = true) :
    ((raise k i s).event j).isSet = true := by
  by_cases hj : j = k
  · subst hj; rw [raise_event]; rfl
  · rw [raise_event_ne _ _ _ hj]; exact h

theorem requestPair_keeps_isSet {p : PartyId} {lv : Level} {s : State} {x : MemberPair} {k : EventKind}
    (h : (s.event k).isSet = true) : ((requestPair p lv s x).event k).isSet = true := by
  have ha : ((arrive (.party p) lv .talk x.source x.dest s).1.event k).isSet = true := by
    rw [State.event, (arrive_touches _ _ _ _ _ s).events]
    exact h
  unfold requestPair
  dsimp only
  split
  · exact ha
  · exact raise_keeps_isSet ha

theorem requestPairs_settle (p : PartyId) (lv : Level) {l : List MemberPair} {s : State} (hs : StoreInv s)
    {x : MemberPair} (hx : x ∈ l) :
    (l.foldl (requestPair p lv) s).PartyHolds p x.source x.dest ∨
      ((l.foldl (requestPair p lv) s).event .grantRefused).isSet = true := by
  have hkeep : ∀ (l : List MemberPair) (t : State), StoreInv t →
      t.PartyHolds p x.source x.dest ∨ (t.event .grantRefused).isSet = true →
      (l.foldl (requestPair p lv) t).PartyHolds p x.source x.dest ∨
        ((l.foldl (requestPair p lv) t).event .grantRefused).isSet = true := by
    intro l
    induction l with
    | nil => exact fun t _ h => h
    | cons y l ih =>
      exact fun t ht h => ih _ (requestPair_storeInv p lv t y ht)
        (h.imp (requestPair_keeps_holds ht) requestPair_keeps_isSet)
  induction l generalizing s with
  | nil => cases hx
  | cons y l ih =>
    rw [List.foldl_cons]
    have hy := requestPair_storeInv p lv s y hs
    rcases List.mem_cons.1 hx with rfl | hx
    · exact hkeep l _ hy (requestPair_settles p lv s x hs)
    · exact ih hy hx

/-! ## Party writes -/

theorem satisfied_congr {s t : State} (h : t.stations = s.stations) (r : Party) : t.satisfied r = s.satisfied r := by
  have hst : ∀ x, t.station x = s.station x := fun x => congrArg (tget · x) h
  simp only [State.satisfied, hst]

theorem satisfied_of_disabled {s : State} {r : Party} (h : r.enabled = false) : s.satisfied r = [] := by
  simp [State.satisfied, h]

/-- R132: a party that becomes enabled has every pair it wants held, or GRANT_REFUSED is set. -/
theorem changeParty_enable {p : PartyId} {r : Party} {s : State} (hs : StoreInv s) (hp : (s.party p).enabled = false)
    {src : SourceId} {d : DestId} (hw : Wanted (changeParty p r s) p src d) :
    (changeParty p r s).PartyHolds p src d ∨ ((changeParty p r s).event .grantRefused).isSet = true := by
  obtain ⟨x, hx, rfl, rfl⟩ := wanted_iff.1 hw
  rw [satisfied_congr (changeParty_stations p r s), changeParty_party, if_pos rfl] at hx
  have hnow : changeParty p r s = (s.satisfied r).foldl (requestPair p r.level) (s.setParty p r) := by
    simp [changeParty, satisfied_of_disabled hp, withdrawPairs]
  rw [hnow]
  exact requestPairs_settle p r.level (s := s.setParty p r) (StoreInv.of_same (s := s) rfl rfl hs) hx

theorem changeParty_disable {p : PartyId} {r : Party} {s : State} (hs : StoreInv s) (hp : PartyInv s)
    (hr : r.enabled = false) {src : SourceId} {d : DestId} : ¬(changeParty p r s).PartyHolds p src d := by
  intro hh
  obtain ⟨hen, -⟩ := partyInv_iff.1 (changeParty_partyInv p r s hs hp) _ _ _ hh
  rw [changeParty_party, if_pos rfl, hr] at hen
  cases hen

/-- R128: a party that wants what it wanted before asks for nothing and gives nothing back. -/
theorem changeParty_same {p : PartyId} {r : Party} {s : State} (h : s.satisfied r = s.satisfied (s.party p)) :
    changeParty p r s = s.setParty p r := by
  have hgone : ((s.satisfied (s.party p)).filter fun x =>
      !(s.satisfied (s.party p)).any fun y => y.source == x.source && y.dest == x.dest) = [] := by
    rw [List.filter_eq_nil_iff]
    intro x hx
    simpa using ⟨x, hx, rfl, rfl⟩
  have hfresh : ((s.satisfied (s.party p)).filter fun x =>
      !(s.satisfied (s.party p)).any fun y => y.talker == x.talker && y.listener == x.listener) = [] := by
    rw [List.filter_eq_nil_iff]
    intro x hx
    simpa using ⟨x, hx, rfl, rfl⟩
  unfold changeParty
  dsimp only
  rw [h, hgone, hfresh]
  rfl

theorem boolField_of_isNo {l : List FieldValue} {f : Nat} {old e : Bool} (h : isNo l f = true)
    (he : boolField l f old = some e) : e = false := by
  simp only [isNo, beq_iff_eq] at h
  simp only [boolField, h] at he
  simpa using he.symm

/-- Settles O42. -/
theorem partyWritesTakeEffect : Obligations.PartyWritesTakeEffect := by
  intro tag index mask values p e s hs hi hstore hparty l he done
  let r : Party := { s.party p with enabled := e, level := levelField l 1 (s.party p).level }
  let u := changeParty p r (takeHead s)
  have hupd : ((takeHead s).party p).updated l = some r := by
    unfold Party.updated
    rw [show (takeHead s).party p = s.party p from rfl, he]
  have hw : writeRecord .party index.toNat l (takeHead s) = (u, .ok) := by
    refine (atIndex_val hi _ _).trans ?_
    unfold writeParty
    rw [hupd]
  have htouch : Touches partyFields (takeHead s) u := changeParty_touches p r (takeHead s)
  have hstore' : StoreInv (takeHead s) := StoreInv.of_same (s := s) rfl rfl hstore
  have hparty' : PartyInv (takeHead s) := partyInv_of_same (s := s) rfl rfl rfl hparty
  have hdone : ∀ (isRow : Nat → List FieldValue → Bool) (c : Instr) (effect : State → Prop),
      isRow index.toNat l = true → exec c s = writeRow .party isRow tag index mask values s →
      (∀ t, t.entries = u.entries → t.events = u.events → t.stations = u.stations → t.party p = r → effect t) →
      done c effect := by
    intro isRow c effect hrow hc heff
    obtain ⟨t, ht, ha, h1, h2⟩ := row_wrote (isRow := isRow) (l := partyFields) hs hrow hw htouch.up
    have hpar : ∀ q, t.party q = if q = p then r else s.party q := fun q =>
      (congrArg (tget · q) h1.parties).trans (changeParty_party p r (takeHead s) q)
    exact ⟨t, hc.trans ht, ha, (hpar p).trans (if_pos rfl), fun q hq => (hpar q).trans (if_neg hq),
      .trans (.of_panels htouch.panels) h2, heff t h1.entries h1.events h1.stations ((hpar p).trans (if_pos rfl))⟩
  refine ⟨fun hrow hoff => ?_, fun hrow => ?_, fun hrow hsame => ?_⟩
  · refine hdone isPartyEnable _ _ hrow rfl fun t hte htev htst htp src d hwant => ?_
    have hwu : Wanted u p src d :=
      Wanted.congr (htp.symm ▸ (changeParty_party p r (takeHead s) p).trans (if_pos rfl)) htst.symm hwant
    refine (changeParty_enable hstore' hoff hwu).imp (fun hh => (PartyHolds.congr hte).2 hh) fun hset => ?_
    rw [State.event, htev]
    exact hset
  · refine hdone isPartyDisable _ _ hrow rfl fun t hte _ _ _ d x hx hp => ?_
    exact changeParty_disable (p := p) (r := r) hstore' hparty' (boolField_of_isNo hrow he)
      ((PartyHolds.congr hte).1 ⟨x, hx, rfl, hp⟩)
  · refine hdone isPartyLevelWrite _ _ hrow rfl fun t hte _ _ _ => hte.trans ?_
    have hsat : (takeHead s).satisfied r = (takeHead s).satisfied ((takeHead s).party p) := by
      simp only [r, hsame]
      rfl
    rw [show u = (takeHead s).setParty p r from changeParty_same hsat]
    rfl

end Sys2Proof.Machine
end

section
/-! PROOF. The writes of circuits (R157 to R160). -/

namespace Sys2Proof.Machine

/-! ## Values out of their range, and values taken -/

theorem boolField_isNone_iff (l : List FieldValue) (f : Nat) (old : Bool) :
    (boolField l f old).isNone = true ↔ Exceeds l f 1 := by
  unfold boolField Exceeds
  cases l.lookup f with
  | none => simp
  | some v =>
    simp only [Option.some.injEq, exists_eq_left']
    by_cases h0 : v = 0
    · simp [h0]
    · by_cases h1 : v = 1
      · simp [h1]
      · rw [if_neg h0, if_neg h1]
        simp only [Option.isNone_none, true_iff]
        omega

theorem numberField_isNone_iff (l : List FieldValue) (f old top : Nat) :
    (numberField l f old top).isNone = true ↔ Exceeds l f top := by
  unfold numberField Exceeds
  cases l.lookup f with
  | none => simp
  | some v =>
    by_cases h : v ≤ top
    · simp [h]
    · simp [h, Nat.lt_of_not_le h]

theorem indexField_isNone_iff {n : Nat} (l : List FieldValue) (f : Nat) (old : Fin n) :
    (indexField l f old).isNone = true ↔ Exceeds l f (n - 1) := by
  unfold indexField Exceeds
  have hn := old.isLt
  cases l.lookup f with
  | none => simp
  | some v =>
    simp only [Option.some.injEq, exists_eq_left', indexIn]
    split
    · simp only [Option.isNone_some, Bool.false_eq_true, false_iff]; omega
    · simp only [Option.isNone_none, true_iff]; omega

theorem enumField_isNone_iff {α : Type} (l : List FieldValue) (f : Nat) (values : List α) (old : α)
    (hpos : values ≠ []) : (enumField l f values old).isNone = true ↔ Exceeds l f (values.length - 1) := by
  have hn : 0 < values.length := List.length_pos_iff.2 hpos
  unfold enumField Exceeds
  cases l.lookup f with
  | none => simp
  | some v =>
    simp only [Option.some.injEq, exists_eq_left', Option.isNone_iff_eq_none, List.getElem?_eq_none_iff]
    omega

theorem boolField_value {l : List FieldValue} {f : Nat} {old e : Bool} (h : boolField l f old = some e) :
    e = true ↔ numberOf l f (if old then 1 else 0) = 1 := by
  unfold boolField at h
  unfold numberOf
  cases hl : l.lookup f with
  | none =>
    rw [hl] at h
    cases h
    cases old <;> simp
  | some v =>
    rw [hl] at h
    dsimp only at h
    by_cases h0 : v = 0
    · rw [if_pos h0] at h; cases h; simp [h0]
    · rw [if_neg h0] at h
      by_cases h1 : v = 1
      · rw [if_pos h1] at h; cases h; simp [h1]
      · rw [if_neg h1] at h; cases h

theorem numberField_value {l : List FieldValue} {f old top n : Nat} (h : numberField l f old top = some n) :
    n = numberOf l f old := by
  unfold numberField at h
  unfold numberOf
  cases hl : l.lookup f with
  | none => rw [hl] at h; cases h; rfl
  | some v =>
    rw [hl] at h
    dsimp only at h
    split at h
    · cases h; rfl
    · cases h

theorem numberField_le {l : List FieldValue} {f old top n : Nat} (h : numberField l f old top = some n) (ho : old ≤ top) :
    n ≤ top := by
  unfold numberField at h
  cases hl : l.lookup f with
  | none => rw [hl] at h; cases h; exact ho
  | some v =>
    rw [hl] at h
    dsimp only at h
    split at h
    · cases h; assumption
    · cases h

theorem indexField_value {n : Nat} {l : List FieldValue} {f : Nat} {old i : Fin n} (h : indexField l f old = some i) :
    i.val = numberOf l f old.val := by
  unfold indexField at h
  unfold numberOf
  cases hl : l.lookup f with
  | none => rw [hl] at h; cases h; rfl
  | some v => rw [hl] at h; exact (indexIn_eq_some.1 h).symm

theorem levelField_value (l : List FieldValue) (f : Nat) (old : Level) : (levelField l f old).val = levelOf l f old := by
  unfold levelField levelOf
  cases l.lookup f <;> rfl

theorem timeField_value (l : List FieldValue) (f old step lo hi : Nat) :
    timeField l f old step lo hi = timeOf l f old step lo hi := by
  unfold timeField timeOf
  cases l.lookup f <;> rfl

/-! ## Circuits -/

theorem carries_of_port {s : State} {c : CircuitId} {d : DestId} (h : (s.station (s.circuit c).reporter).dest = some d) :
    s.circuitPortUp c = (s.port (portOf d)).state.carries := by
  simp [State.circuitPortUp, State.circuitPort, h]

/-- R158: what an enable makes of the circuit's record. -/
def Circuit.afresh (r : Circuit) (c : CircuitId) : Circuit :=
  { r with
      tagGenerator := BitVec.ofNat 15 (c.val + 1), estimate := none, last := none, previous := none, outstanding := []
      lostInARow := 0, strayEchoes := 0, silent := false, silentMs := 0 }

theorem enableCircuit_circuit {c : CircuitId} {d : DestId} {s : State}
    (h : (s.station (s.circuit c).reporter).dest = some d) (q : CircuitId) :
    (enableCircuit c d s).circuit q =
      if q = c then
        if (s.port (portOf d)).state.carries then
          { (s.circuit c).afresh c with
              state := .starting
              intervalTimer := some (s.timing.sample + BitVec.ofNat 32 (48 * (s.circuit c).probeInterval)) }
        else { (s.circuit c).afresh c with state := .linkLost, intervalTimer := none }
      else s.circuit q := by
  have hup : (s.setDest d { s.dest d with circuit := some c }).circuitPortUp c = (s.port (portOf d)).state.carries :=
    carries_of_port h
  unfold enableCircuit
  dsimp only
  rw [hup]
  cases (s.port (portOf d)).state.carries with
  | true =>
    rw [if_pos rfl, if_pos rfl, startInterval, State.circuit_setCircuit, State.circuit_setCircuit_same,
      State.circuit_setCircuit]
    by_cases hq : q = c
    · rw [if_pos hq, if_pos hq]; rfl
    · rw [if_neg hq, if_neg hq, if_neg hq]; rfl
  | false =>
    rw [if_neg Bool.false_ne_true, if_neg Bool.false_ne_true, State.circuit_setCircuit]
    rfl

theorem enableCircuit_dest {c : CircuitId} {d : DestId} {s : State} (m : DestId) :
    (enableCircuit c d s).dest m = if m = d then { s.dest d with circuit := some c } else s.dest m := by
  have h : (enableCircuit c d s).dests = (s.setDest d { s.dest d with circuit := some c }).dests := by
    unfold enableCircuit
    dsimp only
    split <;> rfl
  exact (congrArg (tget · m) h).trans (State.dest_setDest s d _ m)

theorem disableCircuit_circuit (c : CircuitId) (s : State) (q : CircuitId) :
    (disableCircuit c s).circuit q =
      if q = c then { (s.circuit c).afresh c with state := .disabled, intervalTimer := none } else s.circuit q := by
  unfold disableCircuit
  dsimp only
  split
  · exact State.circuit_setCircuit _ c _ q
  · exact State.circuit_setCircuit _ c _ q

theorem disableCircuit_dest (c : CircuitId) (s : State) (d : DestId) :
    (disableCircuit c s).dest d =
      if (s.station (s.circuit c).reporter).dest = some d then { s.dest d with circuit := none } else s.dest d := by
  unfold disableCircuit
  dsimp only
  cases hd : (s.station (s.circuit c).reporter).dest with
  | none => simp; rfl
  | some m =>
    refine (State.dest_setDest s m _ d).trans ?_
    by_cases h : d = m
    · subst h; simp
    · simp [h, Ne.symm h]

theorem disableCircuit_probeQueue (c : CircuitId) (s : State) (y : PortId) :
    (disableCircuit c s).probeQueue y = (s.probeQueue y).filter fun q => q != c := by
  unfold disableCircuit
  dsimp only
  split
  · exact withdrawProbe_probeQueue c _ y
  · exact withdrawProbe_probeQueue c _ y

theorem writeCircuit_ok {c : CircuitId} {l : List FieldValue} {s : State} {r : Circuit}
    (hr : (s.circuit c).updated l = some r) (hc : s.circuitCheck c r l = .ok) :
    writeCircuit c l s = (switchCircuit c (s.circuit c).enabled (s.setCircuit c r), .ok) := by
  unfold writeCircuit; rw [hr]; dsimp only; rw [hc]

theorem writeCircuit_refused {c : CircuitId} {l : List FieldValue} {s : State} {r : Circuit} {e : Result}
    (hr : (s.circuit c).updated l = some r) (hc : s.circuitCheck c r l = e) (he : e ≠ .ok) :
    writeCircuit c l s = (s, e) := by
  unfold writeCircuit; rw [hr]; dsimp only; rw [hc]
  cases e with
  | ok => exact absurd rfl he
  | _ => rfl

/-- R158, R159: past the checks of limits and of a bound circuit, only an enable is checked further. -/
theorem circuitCheck_eq {s : State} {c : CircuitId} {r : Circuit} {l : List FieldValue}
    (h1 : r.lowerLimit < r.upperLimit) (h2 : ¬((names l 2 = true ∨ names l 3 = true) ∧ (s.circuit c).state ≠ .disabled)) :
    s.circuitCheck c r l =
      if r.enabled ∧ !(s.circuit c).enabled then
        if (s.station r.reporter).kind ≠ .reporter then .wrongKind
        else
          match (s.station r.reporter).dest with
          | some d => if (s.dest d).circuit.isSome then .inUse else .ok
          | none => .wrongKind
      else .ok := by
  unfold State.circuitCheck
  refine (if_neg (Nat.not_le.2 h1)).trans (if_neg ?_)
  rwa [Bool.or_eq_true]

theorem switchCircuit_on {c : CircuitId} {s : State} {d : DestId} (h1 : (s.circuit c).enabled = true)
    (h2 : (s.station (s.circuit c).reporter).dest = some d) : switchCircuit c false s = enableCircuit c d s := by
  unfold switchCircuit; rw [h1]; dsimp only; rw [h2]

theorem switchCircuit_off {c : CircuitId} {s : State} (h1 : (s.circuit c).enabled = false) :
    switchCircuit c true s = disableCircuit c s := by
  unfold switchCircuit; rw [h1]

theorem switchCircuit_same {c : CircuitId} {s : State} : switchCircuit c (s.circuit c).enabled s = s := by
  unfold switchCircuit; cases (s.circuit c).enabled <;> rfl

/-- Settles O43. -/
theorem circuitWritesTakeEffect : Obligations.CircuitWritesTakeEffect := by
  intro tag index mask values c s hs hi l rows i hrow refused old
  obtain ⟨isRow, hr, hc⟩ : ∃ isRow, isRow index.toNat l = true ∧
      exec i s = writeRow .circuit isRow tag index mask values s := by
    simp only [rows, List.mem_cons, List.not_mem_nil, or_false, Prod.mk.injEq] at hrow
    rcases hrow with ⟨rfl, h⟩ | ⟨rfl, h⟩ | ⟨rfl, h⟩
    all_goals exact ⟨_, h.symm, rfl⟩
  have hrec : writeRecord .circuit index.toNat l (takeHead s) = writeCircuit c l (takeHead s) := atIndex_val hi _ _
  have hrefuse : ∀ r, writeCircuit c l (takeHead s) = (takeHead s, r) → refused r := fun r hw => by
    obtain ⟨t, ht, h⟩ := row_refused (isRow := isRow) hs hr (hrec.trans hw)
    exact ⟨t, hc.trans ht, h⟩
  refine ⟨?_, fun hnone => hrefuse _ (writeCircuit_of_none (Option.isNone_iff_eq_none.2 hnone)), fun r hupd => ⟨?_, ?_⟩⟩
  · rw [← Option.isNone_iff_eq_none, Circuit.updated_isNone]
    simp only [Bool.or_eq_true, boolField_isNone_iff, indexField_isNone_iff, numberField_isNone_iff, or_assoc]
  · obtain ⟨he, hrep, ⟨g, hg, hgate⟩, hu, hlo, hth, hx, hform⟩ := Circuit.updated_fields hupd
    have hg63 : g ≤ 63 := numberField_le hg (by have := old.gateway.isLt; omega)
    have hgval : r.gateway.toNat = g := by
      rw [hgate, BitVec.toNat_ofNat]
      exact Nat.mod_eq_of_lt (by omega)
    refine ⟨?_, boolField_value he, indexField_value hrep, hgval.trans (numberField_value hg), ?_, ?_,
      numberField_value hu, numberField_value hlo, ?_, numberField_value hth, ?_, numberField_value hx⟩
    all_goals rw [hform]
    · exact timeField_value ..
    · exact timeField_value ..
    · exact levelField_value ..
    · exact timeField_value ..
  intro x others afresh bound
  have hbase : ((takeHead s).circuit c).updated l = some r := hupd
  have hcheck : r.lowerLimit < r.upperLimit → ¬bound → (takeHead s).circuitCheck c r l = _ := circuitCheck_eq
  -- what the row leaves in t is what `switchCircuit` leaves in u
  let u := switchCircuit c old.enabled ((takeHead s).setCircuit c r)
  have hokay : ∀ m : List Fld, Touches m (takeHead s) u → .lampDirty ∉ m → (takeHead s).circuitCheck c r l = .ok →
      ∃ t, exec i s = .next t ∧ Wrote s t .circuit tag index .ok m ∧ Touches [.replies, .draws] u t :=
    fun m hu hm hok => by
      obtain ⟨t, ht, h⟩ := row_wrote_quiet (isRow := isRow) hs hr (hrec.trans (writeCircuit_ok hbase hok)) hu hm
      exact ⟨t, hc.trans ht, h⟩
  have hset : ∀ q, ((takeHead s).setCircuit c r).circuit q = if q = c then r else s.circuit q := fun q =>
    State.circuit_setCircuit (takeHead s) c r q
  have hsetc : ((takeHead s).setCircuit c r).circuit c = r := (hset c).trans (if_pos rfl)
  have hsett : Touches [.circuits] (takeHead s) ((takeHead s).setCircuit c r) := setCircuit_touches _ _ _
  have hturn : old.enabled = false → r.enabled = true → r.enabled = true ∧ (!(s.circuit c).enabled) = true :=
    fun hoff hon => ⟨hon, by rw [show (s.circuit c).enabled = false from hoff]; rfl⟩
  refine ⟨fun h => hrefuse _ (writeCircuit_refused hbase (if_pos h) (by decide)), fun h hb => hrefuse .inUse ?_,
    fun h hb => ⟨fun hoff hon => ⟨fun hk => ?_, fun hk d hd => ⟨fun hd' => ?_, fun hfree => ?_⟩⟩, fun hon hoff => ?_,
      fun hsame => ?_⟩⟩
  · refine writeCircuit_refused hbase ((if_neg (Nat.not_le.2 h)).trans (if_pos ?_)) (by decide)
    rwa [Bool.or_eq_true]
  · refine hrefuse _ (writeCircuit_refused hbase ((hcheck h hb).trans ?_) (by decide))
    exact (if_pos (hturn hoff hon)).trans (if_pos hk)
  · refine hrefuse .inUse (writeCircuit_refused hbase ((hcheck h hb).trans ?_) (by decide))
    refine (if_pos (hturn hoff hon)).trans
      ((if_neg (not_not_intro hk)).trans ?_)
    rw [show (s.station r.reporter).dest = some d from hd]
    exact if_pos (Option.isSome_iff_ne_none.2 hd')
  · have hok : (takeHead s).circuitCheck c r l = .ok := by
      refine (hcheck h hb).trans ((if_pos (hturn hoff hon)).trans
        ((if_neg (not_not_intro hk)).trans ?_))
      rw [show (s.station r.reporter).dest = some d from hd]
      exact if_neg fun h => Option.isSome_iff_ne_none.1 h hfree
    have hdest : (((takeHead s).setCircuit c r).station (((takeHead s).setCircuit c r).circuit c).reporter).dest =
        some d := by rw [hsetc]; exact hd
    have hu : u = enableCircuit c d ((takeHead s).setCircuit c r) := by
      simp only [u, hoff]
      exact switchCircuit_on (by rw [hsetc]; exact hon) hdest
    obtain ⟨t, ht, ha, htu⟩ := hokay [.circuits, .dests]
      (hu ▸ hsett.up.trans (enableCircuit_touches _ _ _)) (by decide) hok
    have hcirc : ∀ q, t.circuit q = _ := fun q =>
      (congrArg (tget · q) (htu.circuits.trans (congrArg State.circuits hu))).trans (enableCircuit_circuit hdest q)
    have hdests : ∀ m, t.dest m = _ := fun m =>
      (congrArg (tget · m) (htu.dests.trans (congrArg State.dests hu))).trans (enableCircuit_dest m)
    have hport : ((takeHead s).setCircuit c r).port (portOf d) = s.port (portOf d) := rfl
    refine ⟨t, ht, ha, fun q hq => ((hcirc q).trans (if_neg hq)).trans ((hset q).trans (if_neg hq)),
      (hdests d).trans (if_pos rfl), fun m hm => (hdests m).trans (if_neg hm), fun hup => ?_, fun hup => ?_⟩
    · rw [hcirc c, if_pos rfl, hport, if_pos hup, hsetc]
      rfl
    · rw [hcirc c, if_pos rfl, hport, if_neg (ne_true_of_eq_false hup), hsetc]
      rfl
  · have hok : (takeHead s).circuitCheck c r l = .ok := by
      refine (hcheck h hb).trans (if_neg fun h => ?_)
      rw [hoff] at h
      exact Bool.false_ne_true h.1
    have hu : u = disableCircuit c ((takeHead s).setCircuit c r) := by
      simp only [u, hon]
      exact switchCircuit_off (by rw [hsetc]; exact hoff)
    obtain ⟨t, ht, ha, htu⟩ := hokay [.circuits, .dests, .probeQueues]
      (hu ▸ hsett.up.trans (disableCircuit_touches _ _)) (by decide) hok
    have hcirc : ∀ q, t.circuit q = _ := fun q =>
      (congrArg (tget · q) (htu.circuits.trans (congrArg State.circuits hu))).trans (disableCircuit_circuit c _ q)
    refine ⟨t, ht, ha, fun q hq => ((hcirc q).trans (if_neg hq)).trans ((hset q).trans (if_neg hq)), ?_, fun d => ?_,
      fun y => ?_⟩
    · rw [hcirc c, if_pos rfl, hsetc]
      rfl
    · refine ((congrArg (tget · d) (htu.dests.trans (congrArg State.dests hu))).trans
        (disableCircuit_dest c _ d) : t.dest d = _).trans ?_
      rw [hsetc]
      rfl
    · exact (congrArg (tget · y) (htu.probeQueues.trans (congrArg State.probeQueues hu))).trans
        (disableCircuit_probeQueue c _ y)
  · have hok : (takeHead s).circuitCheck c r l = .ok := by
      refine (hcheck h hb).trans (if_neg fun h => ?_)
      rw [show (s.circuit c).enabled = r.enabled from hsame.symm, h.1] at h
      exact Bool.false_ne_true h.2
    have hu : u = (takeHead s).setCircuit c r := by
      simp only [u, ← hsame]
      have := switchCircuit_same (c := c) (s := (takeHead s).setCircuit c r)
      rwa [hsetc] at this
    obtain ⟨t, ht, ha, htu⟩ := hokay [.circuits] (hu ▸ hsett) (by decide) hok
    have hcirc : ∀ q, t.circuit q = _ := fun q =>
      (congrArg (tget · q) (htu.circuits.trans (congrArg State.circuits hu))).trans (hset q)
    exact ⟨t, ht, ha, fun q hq => (hcirc q).trans (if_neg hq), (hcirc c).trans (if_pos rfl)⟩

end Sys2Proof.Machine
end

section
/-! PROOF. CLEAR_DYNAMIC (R36, R38, R78, R123, R140, R154, R174). -/

namespace Sys2Proof.Machine

/-! ## The field circuits cleared -/

/-- R174: circuit record r as CLEAR_DYNAMIC leaves it, its port up or not. -/
def State.restored (s : State) (r : Circuit) (up : Bool) : Circuit :=
  if r.state = .disabled then r
  else
    { r with
        outstanding := [], estimate := none, last := none, previous := none, lostInARow := 0
        state := if up then .starting else .linkLost
        intervalTimer := if up then some (s.timing.sample + BitVec.ofNat 32 (48 * r.probeInterval)) else none }

theorem clearCircuit_circuit_ne {c q : CircuitId} (h : q ≠ c) (s : State) :
    (clearCircuit c s).circuit q = s.circuit q := by
  unfold clearCircuit
  dsimp only
  split
  · rfl
  · split
    · rw [startInterval, State.circuit_setCircuit, if_neg h, State.circuit_setCircuit, if_neg h]
    · rw [State.circuit_setCircuit, if_neg h]

theorem clearCircuit_circuit (c : CircuitId) (s : State) :
    (clearCircuit c s).circuit c = s.restored (s.circuit c) (s.circuitPortUp c) := by
  unfold clearCircuit State.restored
  dsimp only
  by_cases hd : (s.circuit c).state = .disabled
  · rw [if_pos hd, if_pos hd]
  · rw [if_neg hd, if_neg hd]
    cases s.circuitPortUp c with
    | true =>
      rw [if_pos rfl, startInterval, State.circuit_setCircuit_same, State.circuit_setCircuit_same]
      rfl
    | false =>
      rw [if_neg Bool.false_ne_true, State.circuit_setCircuit_same]
      rfl

/-- Whether the port of a circuit with reporter station x is UP or HOLDOVER. -/
def State.reporterUp (s : State) (x : StationId) : Bool :=
  (s.station x).dest.any fun d => (s.port (portOf d)).state.carries

theorem circuitPortUp_eq (s : State) (c : CircuitId) : s.circuitPortUp c = s.reporterUp (s.circuit c).reporter := by
  unfold State.circuitPortUp State.circuitPort State.reporterUp
  cases (s.station (s.circuit c).reporter).dest <;> rfl

theorem PortState.carries_iff (st : PortState) : st.carries = true ↔ st = .up ∨ st = .holdover := by
  cases st <;> simp [PortState.carries]

theorem reporterUp_iff (s : State) (x : StationId) :
    s.reporterUp x = true ↔
      ∃ d, (s.station x).dest = some d ∧
        ((s.port (portOf d)).state = .up ∨ (s.port (portOf d)).state = .holdover) := by
  unfold State.reporterUp
  rw [Option.any_eq_true]
  exact exists_congr fun d => and_congr .rfl (PortState.carries_iff _)

theorem restored_congr {s t : State} (h : t.timing = s.timing) (r : Circuit) (up : Bool) :
    t.restored r up = s.restored r up := by
  rw [State.restored, State.restored, h]

theorem reporterUp_congr {s t : State} (hst : t.stations = s.stations) (hp : t.ports = s.ports) (x : StationId) :
    t.reporterUp x = s.reporterUp x := by
  simp only [State.reporterUp, State.station, State.port, hst, hp]

theorem clearField_circuit (s : State) (c : CircuitId) :
    (clearField s).circuit c = s.restored (s.circuit c) (s.reporterUp (s.circuit c).reporter) := by
  let s0 : State := { s with probeQueues := Vector.replicate 4 [] }
  let R : State → Prop := fun t => t.stations = s.stations ∧ t.timing = s.timing ∧ t.ports = s.ports
  have hkeep : ∀ t i, R t → R (clearCircuit i t) := fun t i ⟨h1, h2, h3⟩ =>
    have h := clearCircuit_touches i t
    ⟨h.stations.trans h1, h.timing.trans h2, h.ports.trans h3⟩
  have hself : ∀ t i, R t →
      (clearCircuit i t).circuit i = s.restored (t.circuit i) (s.reporterUp (t.circuit i).reporter) :=
    fun t i ⟨h1, h2, h3⟩ => by
      rw [clearCircuit_circuit, circuitPortUp_eq, restored_congr h2, reporterUp_congr h1 h3]
  exact (foldl_each (get := State.circuit) (R := R) (f := fun t i => clearCircuit i t)
    (h := fun _ r => s.restored r (s.reporterUp r.reporter)) hkeep
    (fun t i j hj => clearCircuit_circuit_ne hj t) hself (allOf_nodup 16) (t := s0) ⟨rfl, rfl, rfl⟩ c).trans
      (if_pos (mem_allOf c))

theorem clearField_probeQueue (s : State) (x : PortId) : (clearField s).probeQueue x = [] := by
  have h : (clearField s).probeQueues = Vector.replicate 4 [] :=
    (Touches.foldl (l := [.circuits]) (fun t c => clearCircuit_touches c t) (allOf 16)
      { s with probeQueues := Vector.replicate 4 [] }).probeQueues
  rw [State.probeQueue, h, tget_replicate]

/-! ## The dynamic state at rest -/

/-- The dynamic talkback state of s, as t keeps it at rest. -/
structure AtRest (s t : State) : Prop where
  keys : ∀ k, t.key k =
    { s.key k with state := .idle, standing := .outside, resolved := none, winkTimer := none, latchTimer := none }
  entries : ∀ d, t.entriesOf d = (s.entriesOf d).map Entry.cleared
  arbiters : ∀ d, t.arbiter d = { current := none, waiting := [] }
  probeQueues : ∀ x, t.probeQueue x = []
  panels : ∀ p, t.panel p = { s.panel p with replyList := [] }
  parties : ∀ p, t.party p =
    { s.party p with members := (s.party p).members.map fun m => { m with talk := false } }
  circuits : ∀ c, t.circuit c = s.restored (s.circuit c) (s.reporterUp (s.circuit c).reporter)

theorem cleared_touches (s : State) :
    Touches [.keys, .entries, .parties, .arbiters, .panels] s
      (clearReplyLists (clearArbiters (clearTalk (clearStore (clearKeys s))))) :=
  ((clearKeys_touches s).up (by decide)).trans
    (((clearStore_touches _).up (by decide)).trans
      (((clearTalk_touches _).up (by decide)).trans
        (((clearArbiters_touches _).up (by decide)).trans ((clearReplyLists_touches _).up (by decide)))))

theorem clearAll_atRest (s : State) : AtRest s (clearAll s) := by
  let s1 := clearStore (clearKeys s)
  let s2 := clearReplyLists (clearArbiters (clearTalk s1))
  have h2 : Touches [.circuits, .probeQueues] s2 (clearField s2) := clearField_touches s2
  have h3 : Touches [.lampDirty] (clearField s2) (clearAll s) := handAll_touches (clearField s2)
  refine ⟨fun k => ?_, fun d => ?_, fun d => ?_, fun x => ?_, fun p => ?_, fun p => ?_, fun c => ?_⟩
  · exact (congrArg (tget · k) (h3.keys.trans h2.keys)).trans (tget_map s.keys _ k)
  · exact (State.entriesOf_congr (h3.entries.trans h2.entries) d).trans (entriesOf_clearStore (clearKeys s) d)
  · exact (congrArg (tget · d) (h3.arbiters.trans h2.arbiters)).trans (tget_map s.arbiters _ d)
  · exact (congrArg (tget · x) h3.probeQueues).trans (clearField_probeQueue s2 x)
  · exact (congrArg (tget · p) (h3.panels.trans h2.panels)).trans (tget_map s.panels _ p)
  · exact (congrArg (tget · p) (h3.parties.trans h2.parties)).trans (tget_map s.parties _ p)
  · have hc : (clearAll s).circuit c = (clearField s2).circuit c := congrArg (tget · c) h3.circuits
    have hs : Touches [.keys, .entries, .parties, .arbiters, .panels] s s2 := cleared_touches s
    have hr : s2.circuit c = s.circuit c := congrArg (tget · c) hs.circuits
    rw [hc, clearField_circuit, restored_congr hs.timing, reporterUp_congr hs.stations hs.ports, hr]

/-- What the clearing itself touches. -/
abbrev dynamicFields : List Fld :=
  [.keys, .entries, .parties, .arbiters, .panels, .circuits, .probeQueues, .lampDirty]

theorem clearAll_touches_dynamic (s : State) : Touches dynamicFields s (clearAll s) :=
  ((cleared_touches s).up (by decide)).trans
    (((clearField_touches _).up (by decide)).trans ((handAll_touches _).up (by decide)))

theorem Entry.cleared_state (e : Entry) :
    e.cleared =
      { e with grants := [], parties := [], state := if e.static = true ∨ e.taps ≠ [] then e.state else .releasing } := by
  rw [Entry.cleared_eq]

/-! ## The order -/

/-- The block's last reply, or none: the state in which CLEAR_DYNAMIC clears. -/
def State.unblocked (s : State) : State :=
  match s.block with
  | some b => abortReply b { s with block := none }
  | none => s

theorem unblocked_block (s : State) : s.unblocked.block = none := by
  unfold State.unblocked
  cases hb : s.block with
  | none => exact hb
  | some b => exact (abortReply_touches b { s with block := none }).block

theorem unblocked_touches (s : State) : Touches [.replies, .draws, .block] s s.unblocked := by
  unfold State.unblocked
  cases s.block with
  | none => exact Touches.refl _ _
  | some b =>
    exact (show Touches [.replies, .draws, .block] s { s with block := none } from
      (withBlock_touches s none).up (by decide)).trans ((abortReply_touches b _).up (by decide))

theorem abortReply_replied (b : Block) (s : State) :
    Replied s (abortReply b s) b.tag
      (match b.work with
        | .blockRead tn _ _ =>
          stated [3, 10, 128, tn.code] ++ unstated 2 ++ stated (bytesOfNat 2 b.handled) ++ unstated 20
        | .fill tn _ down _ =>
          stated [4, 10, 128, tn.code] ++
            (if b.handled = 0 then unstated 2
              else stated (bytesOfNat 2 (if down = true then b.next + 1 else b.next - 1))) ++
            stated (bytesOfNat 2 b.handled) ++ unstated 20
        | .meterRead => stated [13, 10, BitVec.ofNat 8 (128 + b.handled)] ++ unstated 1 ++ stated (List.replicate 24 0)
        | .routeList _ _ => stated ([8, 10, 128, BitVec.ofNat 8 (min 255 b.handled)] ++ List.replicate 24 0)) := by
  unfold abortReply
  cases b.work with
  | blockRead tn mask down => exact (reply_replied _ _ _ _ _ s (by simp)).congr rfl rfl (by simp [stated, noValues, markByte_final, Result.code])
  | fill tn mask down values =>
    have hidx : abortedIndex b down =
        if b.handled = 0 then unstated 2
        else stated (bytesOfNat 2 (if down = true then b.next + 1 else b.next - 1)) := by
      unfold abortedIndex moveIndex
      cases down <;> rfl
    have hlen : (abortedIndex b down).length = 2 := by
      rw [hidx]
      split <;> simp
    refine (reply_replied _ _ _ _ _ s (by simp [hlen])).congr rfl rfl ?_
    rw [hidx]
    simp [stated, markByte_final, Result.code]
  | meterRead => exact (reply_replied _ _ _ _ _ s (by simp)).congr rfl rfl (by rw [List.flatMap_nil, slice_nil]; rfl)
  | routeList d place =>
    exact (reply_replied _ _ _ _ _ s (by simp)).congr rfl rfl (by rw [List.flatMap_nil, slice_nil]; rfl)

theorem exec_clearDynamic {tag : Byte} {s : State} (h : s.orderReady tag .clearDynamic = true) :
    exec (.clearDynamic tag) s =
      .next (flushLamps (plainReply tag .clearDynamic .ok (clearAll (takeHead s).unblocked))) :=
  order_taken h

/-- Settles O33. -/
theorem clearDynamicClears : Obligations.ClearDynamicClears := by
  intro tag s hs
  obtain ⟨hready, hdirty, hmark⟩ := hs
  let s1 := (takeHead s).unblocked
  let s2 := clearAll s1
  let s3 := plainReply tag .clearDynamic .ok s2
  let t := flushLamps s3
  have h1 : Touches [.replies, .draws, .block] (takeHead s) s1 := unblocked_touches _
  have h2 : Touches dynamicFields s1 s2 := clearAll_touches_dynamic s1
  have h3 : Touches [.replies, .draws] s2 s3 := reply_touches _ _ _ _ _ _
  have h4 : Touches [.panels, .lampDirty] s3 t := flushLamps_touches _
  have hrest : AtRest s1 s2 := clearAll_atRest s1
  have hexec : exec (.clearDynamic tag) s = .next t := exec_clearDynamic hready
  have hreplied : Replied s1 t tag (stated ([16, 0, 128] ++ List.replicate 25 0)) :=
    (reply_replied tag 16 .ok (markByte true 0) (stated (List.replicate 25 0)) s2 (by simp)).congr
      h2.replies (flushLamps_replies _) rfl
  have hcircuit : ∀ c, t.circuit c = s.restored (s.circuit c) (s.reporterUp (s.circuit c).reporter) := fun c => by
    have hc : s1.circuit c = s.circuit c := congrArg (tget · c) h1.circuits
    have ht : t.circuit c = s2.circuit c := congrArg (tget · c) (h4.circuits.trans h3.circuits)
    rw [ht, hrest.circuits, hc, restored_congr (s := s) h1.timing, reporterUp_congr (s := s) h1.stations h1.ports]
  refine ⟨t, hexec, ⟨?_, ?_, ?_⟩, ?_, fun hb => ?_, fun b hb => ?_, fun k => ?_, fun d => ?_, fun d => ?_, fun x => ?_,
    fun p => ?_, fun p => ?_, fun c hc => ?_, fun c hc => ?_, exec_touches hexec⟩
  · exact h4.orders.trans (h3.orders.trans (h2.orders.trans h1.orders))
  · exact h4.lastUnit.trans (h3.lastUnit.trans (h2.lastUnit.trans h1.lastUnit))
  · exact h4.unitTaken.trans (h3.unitTaken.trans (h2.unitTaken.trans h1.unitTaken))
  · exact h4.block.trans (h3.block.trans (h2.block.trans (unblocked_block _)))
  · have hsame : s1 = takeHead s := by
      show (takeHead s).unblocked = takeHead s
      unfold State.unblocked
      rw [show (takeHead s).block = none from hb]
    exact hreplied.congr ((congrArg State.replies hsame).trans rfl) rfl rfl
  · have hsame : s1 = abortReply b { takeHead s with block := none } := by
      show (takeHead s).unblocked = _
      unfold State.unblocked
      rw [show (takeHead s).block = some b from hb]
    exact ⟨s1, (abortReply_replied b { takeHead s with block := none }).congr rfl (congrArg State.replies hsame) rfl,
      hreplied⟩
  · have hk : s1.key k = s.key k := congrArg (tget · k) h1.keys
    exact (congrArg (tget · k) (h4.keys.trans h3.keys)).trans ((hrest.keys k).trans (by rw [hk]))
  · refine (State.entriesOf_congr (h4.entries.trans h3.entries) d).trans ((hrest.entries d).trans ?_)
    rw [State.entriesOf_congr (s := s) h1.entries]
    exact List.map_congr_left fun e _ => e.cleared_state
  · exact (congrArg (tget · d) (h4.arbiters.trans h3.arbiters)).trans (hrest.arbiters d)
  · exact (congrArg (tget · x) (h4.probeQueues.trans h3.probeQueues)).trans (hrest.probeQueues x)
  · have hp : s3.panel p = { s.panel p with replyList := [] } :=
      (congrArg (tget · p) h3.panels).trans ((hrest.panels p).trans (by
        rw [show s1.panel p = s.panel p from congrArg (tget · p) h1.panels]))
    exact (flushLamps_panels s3 p).trans (by rw [hp])
  · have hp : s1.party p = s.party p := congrArg (tget · p) h1.parties
    exact (congrArg (tget · p) (h4.parties.trans h3.parties)).trans ((hrest.parties p).trans (by rw [hp]))
  · rw [hcircuit, State.restored, if_pos hc]
  · constructor
    · intro hup
      rw [hcircuit, (reporterUp_iff s _).2 hup, State.restored, if_neg hc]
      rfl
    · intro hdown
      rw [hcircuit, Bool.eq_false_iff.2 (mt (reporterUp_iff s _).1 hdown), State.restored, if_neg hc]
      rfl

end Sys2Proof.Machine
end

section
/-! PROOF. SWAP (R76, R77): the static routes of two destinations exchanged. -/

namespace Sys2Proof.Machine

/-! ## The static holder of a pair -/

/-- Level and class of the static holder of a pair, if the pair has one. -/
def State.staticOf (s : State) (n : SourceId) (d : DestId) : Option (Level × EntryClass) :=
  (s.findEntry n d).bind fun e => if e.static then some (e.level, e.cls) else none

theorem staticOf_congr {s t : State} (h : t.entries = s.entries) (n : SourceId) (d : DestId) :
    t.staticOf n d = s.staticOf n d := by
  rw [State.staticOf, State.staticOf, State.findEntry_congr h]

theorem staticOf_some {s : State} {n : SourceId} {d : DestId} {x : Level × EntryClass} :
    s.staticOf n d = some x ↔ ∃ e, s.findEntry n d = some e ∧ e.static = true ∧ (e.level, e.cls) = x := by
  rw [State.staticOf, Option.bind_eq_some_iff]
  refine exists_congr fun e => and_congr .rfl ?_
  cases e.static <;> simp

theorem staticOf_none {s : State} {n : SourceId} {d : DestId} :
    s.staticOf n d = none ↔ ∀ e, s.findEntry n d = some e → e.static = false := by
  rw [State.staticOf, Option.bind_eq_none_iff]
  refine forall_congr' fun e => imp_congr .rfl ?_
  cases e.static <;> simp

theorem mem_statics {s : State} {d : DestId} {e : Entry} :
    e ∈ s.statics d ↔ e ∈ s.entriesOf d ∧ e.static = true := List.mem_filter

theorem staticOf_of_mem {s : State} (hs : StoreInv s) {d : DestId} {e : Entry} (he : e ∈ s.statics d) :
    s.staticOf e.source d = some (e.level, e.cls) :=
  have ⟨hmem, hstatic⟩ := mem_statics.1 he
  staticOf_some.2 ⟨e, hs.findEntry_iff.2 ⟨hmem, rfl⟩, hstatic, rfl⟩

theorem mem_statics_of_staticOf {s : State} {n : SourceId} {d : DestId} {x : Level × EntryClass}
    (h : s.staticOf n d = some x) : ∃ e ∈ s.statics d, e.source = n ∧ (e.level, e.cls) = x := by
  obtain ⟨e, hf, hstatic, hx⟩ := staticOf_some.1 h
  obtain ⟨hmem, hsrc⟩ := State.mem_of_findEntry hf
  exact ⟨e, mem_statics.2 ⟨hmem, hstatic⟩, hsrc, hx⟩

theorem statics_sources_nodup {s : State} (hs : StoreInv s) (d : DestId) : ((s.statics d).map Entry.source).Nodup :=
  (hs.nodup d).sublist (List.filter_sublist.map _)

/-! ## Clearing static holders -/

theorem staticOf_depart (src : SourceId) (d : DestId) (s : State) (n : SourceId) (j : DestId) :
    (depart .static src d s).staticOf n j = if j = d ∧ n = src then none else s.staticOf n j := by
  rw [State.staticOf, findEntry_depart]
  by_cases h : j = d ∧ n = src
  · rw [if_pos h, if_pos h]
    cases s.findEntry src d with
    | none => rfl
    | some e =>
      have hout : (if e.holds .static then e.left .static else e).static = false := by
        cases hh : e.holds .static with
        | false => exact hh
        | true => exact (e.holds_left .static .static).trans rfl
      show (if (if e.holds .static then e.left .static else e).static then _ else none) = none
      rw [hout]
      rfl
  · rw [if_neg h, if_neg h]
    rfl

theorem findEntry_depart_isNone (h : Holder) (src : SourceId) (d : DestId) (s : State) (n : SourceId) (j : DestId) :
    ((depart h src d s).findEntry n j).isNone = (s.findEntry n j).isNone := by
  rw [findEntry_depart]
  split
  · next hjn => rw [hjn.1, hjn.2, Option.isNone_map]
  · rfl

theorem staticOf_clearStatics (l : List Entry) (d : DestId) (s : State) (n : SourceId) (j : DestId) :
    (clearStatics l d s).staticOf n j = if j = d ∧ ∃ e ∈ l, e.source = n then none else s.staticOf n j := by
  induction l generalizing s with
  | nil => simp [clearStatics]
  | cons e l ih =>
    rw [clearStatics, List.foldl_cons]
    refine (ih _).trans ?_
    rw [staticOf_depart]
    by_cases hj : j = d
    · by_cases hn : n = e.source
      · simp [hj, hn]
      · simp [hj, hn, Ne.symm hn]
    · simp [hj]

theorem findEntry_clearStatics_isNone (l : List Entry) (d : DestId) (s : State) (n : SourceId) (j : DestId) :
    ((clearStatics l d s).findEntry n j).isNone = (s.findEntry n j).isNone := by
  induction l generalizing s with
  | nil => rfl
  | cons e l ih => exact (ih _).trans (findEntry_depart_isNone _ _ _ _ _ _)

theorem entriesOf_clearStatics_ne {l : List Entry} {d j : DestId} (h : j ≠ d) (s : State) :
    (clearStatics l d s).entriesOf j = s.entriesOf j := by
  induction l generalizing s with
  | nil => rfl
  | cons e l ih => exact (ih _).trans (entriesOf_depart_ne h)

theorem depart_noFuller (h : Holder) (src : SourceId) (d : DestId) (s : State) : NoFuller s (depart h src d s) :=
  .of_taps_eq ((depart_touches h src d s).taps) fun j => by
    rcases depart_cases h src d s with ⟨-, heq⟩ | ⟨e, -, -, heq⟩
    · rw [heq]
    · rw [State.entriesOf_congr heq, entriesOf_mapEntry_length]

theorem NoFuller.trans {s t u : State} (h : NoFuller s t) (k : NoFuller t u) : NoFuller s u :=
  ⟨fun d => (k.1 d).trans (h.1 d), fun x d => (k.2 x d).trans (h.2 x d)⟩

theorem clearStatics_noFuller (l : List Entry) (d : DestId) (s : State) : NoFuller s (clearStatics l d s) := by
  induction l generalizing s with
  | nil => exact ⟨fun _ => le_rfl, fun _ _ => le_rfl⟩
  | cons e l ih => exact (depart_noFuller _ _ _ _).trans (ih _)

theorem NoFuller.counts {s t : State} (h : NoFuller s t) :
    (∀ d, t.contributionCount d ≤ s.contributionCount d) ∧ t.storeCount ≤ s.storeCount := by
  obtain ⟨hlen, hfeed⟩ := h
  refine ⟨fun d => ?_, ?_⟩
  · rw [State.contributionCount_eq_sum, State.contributionCount_eq_sum]
    exact Nat.add_le_add (hlen d) (Finset.sum_le_sum fun x _ => hfeed x d)
  · rw [State.storeCount_eq_sum, State.storeCount_eq_sum]
    exact Finset.sum_le_sum fun d _ => hlen d

/-! ## Placing static holders -/

/-- The entries that holders of the sources of l would create on destination d. -/
def State.creates (s : State) (l : List SourceId) (d : DestId) : Nat :=
  (l.filter fun n => (s.findEntry n d).isNone).length

/-- There is room on destination d for the entries that the sources of l would create. -/
def State.roomFor (s : State) (l : List SourceId) (d : DestId) : Prop :=
  s.contributionCount d + s.creates l d ≤ 32 ∧ s.storeCount + s.creates l d ≤ 2048

theorem entriesOf_arrive_length (h : Holder) (lv : Level) (c : EntryClass) (src : SourceId) (d : DestId) (s : State)
    (j : DestId) :
    ((arrive h lv c src d s).1.entriesOf j).length ≤
      (s.entriesOf j).length + if j = d ∧ s.findEntry src d = none then 1 else 0 := by
  rcases arrive_cases h lv c src d s with ⟨hf, -, heq⟩ | ⟨-, -, heq⟩ | ⟨e, hf, ⟨-, heq⟩ | ⟨-, -, -, heq⟩ | ⟨-, -, -, heq⟩⟩
  · rw [heq]
    exact le_of_eq ((entriesOf_createEntry_length h lv c src d s j).trans (by simp [hf]))
  · rw [heq]; exact Nat.le_add_right _ _
  · rw [heq]; exact Nat.le_add_right _ _
  · rw [heq]; exact Nat.le_add_right _ _
  · rw [State.entriesOf_congr heq, entriesOf_mapEntry_length]; exact Nat.le_add_right _ _

theorem arrive_counts (h : Holder) (lv : Level) (c : EntryClass) (src : SourceId) (d : DestId) (s : State) :
    (∀ j, (arrive h lv c src d s).1.contributionCount j ≤
        s.contributionCount j + if j = d ∧ s.findEntry src d = none then 1 else 0) ∧
      (arrive h lv c src d s).1.storeCount ≤ s.storeCount + if s.findEntry src d = none then 1 else 0 := by
  have htap : ∀ x, (arrive h lv c src d s).1.tap x = s.tap x :=
    fun x => congrArg (tget · x) (arrive_touches h lv c src d s).taps
  refine ⟨fun j => ?_, ?_⟩
  · have hlen := entriesOf_arrive_length h lv c src d s j
    rw [State.contributionCount_eq_sum, State.contributionCount_eq_sum]
    simp only [htap]
    omega
  · rw [State.storeCount_eq_sum, State.storeCount_eq_sum]
    refine (Finset.sum_le_sum fun j _ => entriesOf_arrive_length h lv c src d s j).trans ?_
    rw [Finset.sum_add_distrib]
    by_cases hf : s.findEntry src d = none <;> simp [hf]

theorem staticOf_arrive {src : SourceId} {d : DestId} {s : State} {lv : Level} {c : EntryClass}
    (hroom : s.findEntry src d = none → s.hasRoom d 1 = true) (hfree : s.staticOf src d = none) (n : SourceId)
    (j : DestId) :
    (arrive .static lv c src d s).1.staticOf n j =
      if j = d ∧ n = src then some (storeLevel lv, c) else s.staticOf n j := by
  cases hf : s.findEntry src d with
  | none =>
    rw [arrive_new hf (hroom hf)]
    rw [State.staticOf, findEntry_createEntry .static lv c src d s hf]
    split
    · rfl
    · rfl
  | some e =>
    have hh : e.holds .static = false := staticOf_none.1 hfree e hf
    rw [State.staticOf, findEntry_arrive_found hf]
    by_cases hjn : j = d ∧ n = src
    · rw [if_pos ⟨hjn.1, hjn.2, hh, nofun⟩, if_pos hjn]
      rfl
    · rw [if_neg fun h => hjn ⟨h.1, h.2.1⟩, if_neg hjn]
      rfl

theorem findEntry_arrive_ne_pair {h : Holder} {lv : Level} {c : EntryClass} {src n : SourceId} {d j : DestId}
    {s : State} (hne : ¬(j = d ∧ n = src)) : (arrive h lv c src d s).1.findEntry n j = s.findEntry n j := by
  by_cases hj : j = d
  · subst hj
    exact findEntry_arrive_ne fun hn => hne ⟨rfl, hn⟩
  · rw [State.findEntry, State.findEntry, entriesOf_arrive_ne hj]

theorem creates_cons (n : SourceId) (l : List SourceId) (d : DestId) (s : State) :
    s.creates (n :: l) d = s.creates l d + if s.findEntry n d = none then 1 else 0 := by
  unfold State.creates
  cases hf : s.findEntry n d <;> simp [hf]

theorem creates_arrive_ne {h : Holder} {lv : Level} {c : EntryClass} {src : SourceId} {d : DestId} {s : State}
    {l : List SourceId} {j : DestId} (hl : ∀ n ∈ l, ¬(j = d ∧ n = src)) :
    (arrive h lv c src d s).1.creates l j = s.creates l j :=
  congrArg List.length (List.filter_congr fun n hn => by rw [findEntry_arrive_ne_pair (hl n hn)])

theorem hasRoom_of_roomFor {n : SourceId} {l : List SourceId} {d : DestId} {s : State} (h : s.roomFor (n :: l) d)
    (hf : s.findEntry n d = none) : s.hasRoom d 1 = true := by
  obtain ⟨h1, h2⟩ := h
  rw [creates_cons, if_pos hf] at h1 h2
  unfold State.hasRoom
  simp only [Bool.and_eq_true, decide_eq_true_eq]
  exact ⟨show _ ≤ 32 by omega, show _ ≤ 2048 by omega⟩

/-- Room for a list of sources is, once the first has arrived, room for the rest. -/
theorem roomFor_arrive {h : Holder} {lv : Level} {c : EntryClass} {n : SourceId} {l : List SourceId} {d : DestId}
    {s : State} (hn : n ∉ l) (hroom : s.roomFor (n :: l) d) : (arrive h lv c n d s).1.roomFor l d := by
  obtain ⟨h1, h2⟩ := hroom
  obtain ⟨hc1, hc2⟩ := arrive_counts h lv c n d s
  have hc1 := hc1 d
  have hcreates : (arrive h lv c n d s).1.creates l d = s.creates l d :=
    creates_arrive_ne fun m hm h => hn (h.2 ▸ hm)
  rw [creates_cons] at h1 h2
  simp only [true_and] at hc1
  exact ⟨by rw [hcreates]; omega, by rw [hcreates]; omega⟩

theorem placeStatics_cons (e : Entry) (l : List Entry) (d : DestId) (s : State) :
    placeStatics (e :: l) d s = placeStatics l d (arrive .static e.level e.cls e.source d s).1 := rfl

/-- Static holders placed where none stands, with room for them. -/
theorem staticOf_placeStatics {l : List Entry} {d : DestId} {s : State} (hn : (l.map Entry.source).Nodup)
    (hroom : s.roomFor (l.map Entry.source) d) (hfree : ∀ e ∈ l, s.staticOf e.source d = none) (hlv : ∀ e ∈ l, 1 ≤ e.level.val)
    (n : SourceId) (j : DestId) :
    (∀ e ∈ l, j = d → e.source = n → (placeStatics l d s).staticOf n j = some (e.level, e.cls)) ∧
      (¬(j = d ∧ ∃ e ∈ l, e.source = n) → (placeStatics l d s).staticOf n j = s.staticOf n j) := by
  induction l generalizing s with
  | nil => exact ⟨nofun, fun _ => rfl⟩
  | cons e l ih =>
    obtain ⟨hnew, hn⟩ := List.nodup_cons.1 hn
    have hother : ∀ x ∈ l, x.source ≠ e.source := fun x hx hsrc => hnew (List.mem_map.2 ⟨x, hx, hsrc⟩)
    have hset := staticOf_arrive (lv := e.level) (c := e.cls) (hasRoom_of_roomFor hroom) (hfree e List.mem_cons_self)
    have hstore : storeLevel e.level = e.level :=
      if_neg (Nat.ne_of_gt (hlv e List.mem_cons_self))
    have hroom' := roomFor_arrive (h := .static) (lv := e.level) (c := e.cls) hnew hroom
    have hfree' : ∀ x ∈ l, (arrive .static e.level e.cls e.source d s).1.staticOf x.source d = none := fun x hx => by
      rw [hset, if_neg fun h => hother x hx h.2]
      exact hfree x (List.mem_cons_of_mem _ hx)
    obtain ⟨ih1, ih2⟩ := ih hn hroom' hfree' fun x hx => hlv x (List.mem_cons_of_mem _ hx)
    rw [placeStatics_cons]
    refine ⟨fun x hx hj hsrc => ?_, fun hno => ?_⟩
    · rcases List.mem_cons.1 hx with rfl | hx
      · rw [ih2 fun ⟨_, y, hy, hys⟩ => hother y hy (hys.trans hsrc.symm), hset, if_pos ⟨hj, hsrc.symm⟩, hstore]
      · exact ih1 x hx hj hsrc
    · rw [ih2 fun ⟨hj, y, hy, hys⟩ => hno ⟨hj, y, List.mem_cons_of_mem _ hy, hys⟩, hset,
        if_neg fun ⟨hj, hsrc⟩ => hno ⟨hj, e, List.mem_cons_self, hsrc.symm⟩]

/-! ## The exchange -/

theorem entriesOf_placeStatics_ne {l : List Entry} {d j : DestId} (h : j ≠ d) (s : State) :
    (placeStatics l d s).entriesOf j = s.entriesOf j := by
  induction l generalizing s with
  | nil => rfl
  | cons e l ih => exact (ih _).trans (entriesOf_arrive_ne h)

theorem placeStatics_counts {l : List Entry} {d : DestId} (hn : (l.map Entry.source).Nodup) (s : State) :
    (∀ j, j ≠ d → (placeStatics l d s).contributionCount j ≤ s.contributionCount j) ∧
      (placeStatics l d s).storeCount ≤ s.storeCount + s.creates (l.map Entry.source) d := by
  induction l generalizing s with
  | nil => exact ⟨fun _ _ => le_rfl, le_rfl⟩
  | cons e l ih =>
    obtain ⟨hnew, hn⟩ := List.nodup_cons.1 hn
    obtain ⟨ih1, ih2⟩ := ih hn (arrive .static e.level e.cls e.source d s).1
    obtain ⟨hc1, hc2⟩ := arrive_counts .static e.level e.cls e.source d s
    have hcreates := creates_arrive_ne (h := .static) (lv := e.level) (c := e.cls) (src := e.source) (d := d) (s := s)
      (l := l.map Entry.source) (j := d) fun n hm h => hnew (h.2 ▸ hm)
    rw [placeStatics_cons]
    refine ⟨fun j hj => ?_, ?_⟩
    · have hcj := hc1 j
      rw [if_neg fun h => hj h.1] at hcj
      exact (ih1 j hj).trans hcj
    · rw [List.map_cons, creates_cons]
      rw [hcreates] at ih2
      omega

/-- The sources of the static holders of a destination. -/
abbrev State.staticSources (s : State) (d : DestId) : List SourceId := (s.statics d).map Entry.source

theorem swapCreates_eq (s : State) (a b : DestId) : s.swapCreates a b = s.creates (s.staticSources a) b := by
  rw [State.creates, State.staticSources, List.filter_map, List.length_map]
  rfl

theorem swapCheck_ok_iff {s : State} {a b : DestId} :
    s.swapCheck a b = .ok ↔
      a ≠ b ∧ ¬((s.dest a).kind ≠ (s.dest b).kind ∨ (s.dest a).kind = .monitor ∨ (s.dest b).kind = .monitor) ∧
        s.contributionCount a + s.creates (s.staticSources b) a ≤ 32 ∧ s.contributionCount b + s.creates (s.staticSources a) b ≤ 32 ∧
        s.storeCount + s.creates (s.staticSources b) a + s.creates (s.staticSources a) b ≤ 2048 := by
  unfold State.swapCheck
  simp only [swapCreates_eq]
  by_cases h1 : a = b
  · simp [h1]
  rw [if_neg h1]
  by_cases h2 : (s.dest a).kind ≠ (s.dest b).kind ∨ (s.dest a).kind = .monitor ∨ (s.dest b).kind = .monitor
  · rw [if_pos h2]
    exact ⟨nofun, fun h => absurd h2 h.2.1⟩
  rw [if_neg h2]
  split
  · next h3 =>
    refine ⟨nofun, fun ⟨_, _, ha, hb, hst⟩ => ?_⟩
    rcases h3 with h3 | h3 | h3
    · exact absurd ha (Nat.not_le.2 h3)
    · exact absurd hb (Nat.not_le.2 h3)
    · exact absurd hst (Nat.not_le.2 h3)
  · next h3 =>
    simp only [not_or, Nat.not_lt] at h3
    exact ⟨fun _ => ⟨h1, h2, h3⟩, fun _ => rfl⟩

theorem staticOf_clearStatics_own {s u : State} {d : DestId} {n : SourceId}
    (hu : u.staticOf n d = s.staticOf n d) : (clearStatics (s.statics d) d u).staticOf n d = none := by
  rw [staticOf_clearStatics, hu]
  split
  · rfl
  · next hno =>
    rw [Option.eq_none_iff_forall_ne_some]
    intro x hx
    obtain ⟨e, he, hsrc, -⟩ := mem_statics_of_staticOf hx
    exact hno ⟨rfl, e, he, hsrc⟩

theorem staticOf_placeStatics_own {s u : State} {d j : DestId} (hs : StoreInv s)
    (hroom : u.roomFor (s.staticSources d) j) (hfree : ∀ n, u.staticOf n j = none) (n : SourceId) :
    (placeStatics (s.statics d) j u).staticOf n j = s.staticOf n d := by
  obtain ⟨hplaced, hother⟩ := staticOf_placeStatics (statics_sources_nodup hs d) hroom (fun e _ => hfree e.source)
    (fun e he => (hs.entryInv (mem_statics.1 he).1).2.1) n j
  cases hx : s.staticOf n d with
  | some x =>
    obtain ⟨e, he, hsrc, rfl⟩ := mem_statics_of_staticOf hx
    exact hplaced e he rfl hsrc
  | none =>
    refine (hother fun ⟨_, e, he, hsrc⟩ => ?_).trans (hfree n)
    rw [← hsrc, staticOf_of_mem hs he] at hx
    exact absurd hx nofun

theorem creates_congr {s t : State} {l : List SourceId} {d : DestId}
    (h : ∀ n, (t.findEntry n d).isNone = (s.findEntry n d).isNone) : t.creates l d = s.creates l d :=
  congrArg List.length (List.filter_congr fun n _ => h n)

theorem staticOf_entries_congr {s t : State} {d : DestId} (h : t.entriesOf d = s.entriesOf d) (n : SourceId) :
    t.staticOf n d = s.staticOf n d := by
  rw [State.staticOf, State.staticOf, State.findEntry, State.findEntry, h]

theorem swapStatics_exchanges {s : State} {a b : DestId} (hs : StoreInv s) (hc : s.swapCheck a b = .ok) :
    (∀ n, (swapStatics a b s).staticOf n b = s.staticOf n a ∧ (swapStatics a b s).staticOf n a = s.staticOf n b) ∧
      ∀ d, d ≠ a → d ≠ b → (swapStatics a b s).entriesOf d = s.entriesOf d := by
  obtain ⟨hab, -, hra, hrb, hrs⟩ := swapCheck_ok_iff.1 hc
  let s1 := clearStatics (s.statics a) a s
  let s2 := clearStatics (s.statics b) b s1
  let s3 := placeStatics (s.statics a) b s2
  have hs1b : ∀ n, s1.staticOf n b = s.staticOf n b :=
    staticOf_entries_congr (entriesOf_clearStatics_ne hab.symm s)
  have hs2a : ∀ n, s2.staticOf n a = none := fun n =>
    (staticOf_entries_congr (entriesOf_clearStatics_ne hab s1) n).trans (staticOf_clearStatics_own rfl)
  have hs2b : ∀ n, s2.staticOf n b = none := fun n => staticOf_clearStatics_own (hs1b n)
  have hisNone : ∀ n j, (s2.findEntry n j).isNone = (s.findEntry n j).isNone := fun n j =>
    (findEntry_clearStatics_isNone _ _ _ n j).trans (findEntry_clearStatics_isNone _ _ _ n j)
  have hcounts : (∀ d, s2.contributionCount d ≤ s.contributionCount d) ∧ s2.storeCount ≤ s.storeCount :=
    ((clearStatics_noFuller (s.statics a) a s).trans (clearStatics_noFuller _ b s1)).counts
  obtain ⟨hcount, hstore⟩ := hcounts
  have hcreates2 : ∀ l j, s2.creates l j = s.creates l j := fun l j => creates_congr fun n => hisNone n j
  have hroomB : s2.roomFor (s.staticSources a) b := by
    have hcount := hcount b
    exact ⟨by rw [hcreates2]; omega, by rw [hcreates2]; omega⟩
  have hs3a : s3.entriesOf a = s2.entriesOf a := entriesOf_placeStatics_ne hab s2
  have hcounts3 : (∀ j, j ≠ b → s3.contributionCount j ≤ s2.contributionCount j) ∧
      s3.storeCount ≤ s2.storeCount + s2.creates (s.staticSources a) b := placeStatics_counts (statics_sources_nodup hs a) s2
  obtain ⟨hcount3, hstore3⟩ := hcounts3
  have hcreates3 : s3.creates (s.staticSources b) a = s.creates (s.staticSources b) a :=
    (creates_congr fun n => by rw [State.findEntry, State.findEntry, hs3a]).trans (hcreates2 _ _)
  have hroomA : s3.roomFor (s.staticSources b) a := by
    have hcount := hcount a
    have hcount3 := hcount3 a hab
    rw [hcreates2] at hstore3
    exact ⟨by rw [hcreates3]; omega, by rw [hcreates3]; omega⟩
  refine ⟨fun n => ⟨?_, ?_⟩, fun d hda hdb => ?_⟩
  · exact (staticOf_entries_congr (entriesOf_placeStatics_ne hab.symm s3) n).trans
      (staticOf_placeStatics_own hs hroomB hs2b n)
  · exact staticOf_placeStatics_own hs hroomA (fun n => (staticOf_entries_congr hs3a n).trans (hs2a n)) n
  · exact (entriesOf_placeStatics_ne hda s3).trans ((entriesOf_placeStatics_ne hdb s2).trans
      ((entriesOf_clearStatics_ne hdb s1).trans (entriesOf_clearStatics_ne hda s)))

theorem swapUnit_refused {tag a b : Byte} {s : State} {r : Result} (hr : r ≠ .ok)
    (h : s.swapCheck a.toFin b.toFin = r) : swapUnit tag a b s = plainReply tag (.swap a b) r s := by
  unfold swapUnit
  rw [h]
  cases r with
  | ok => exact absurd rfl hr
  | _ => rfl

/-- Settles O30. -/
theorem swapExchanges : Obligations.SwapExchanges := by
  intro tag a b s hs hinv da db refused
  have hrefuse : ∀ r, r ≠ .ok → s.swapCheck da db = r → refused r := fun r hr hc =>
    order_plain (body := swapUnit tag a b) hs (swapUnit_refused hr hc)
  refine ⟨fun h => hrefuse _ nofun (if_pos h), fun hne =>
    ⟨fun h => hrefuse _ nofun ((if_neg hne).trans (if_pos h)), fun _ _ h => hrefuse _ nofun h, fun hc => ?_⟩⟩
  have hok : (takeHead s).swapCheck da db = .ok := hc
  have htouch := swapStatics_touches da db (takeHead s)
  obtain ⟨t, ht, ha, hut, hp⟩ := order_plain_works (body := swapUnit tag a b) (o := .swap a b) (r := .ok)
    (u := swapStatics da db (takeHead s)) (l := arriveFields) hs (by unfold swapUnit; rw [hok]) (htouch.up (by decide))
    htouch.unitKept
  obtain ⟨hswap, hkept⟩ := swapStatics_exchanges (s := takeHead s)
    (hinv.of_same (takeHead_touches s).entries (takeHead_touches s).nextSerial) hok
  have hb : ∀ n, t.staticOf n db = s.staticOf n da := fun n => (staticOf_congr hut.entries n db).trans (hswap n).1
  have hB : ∀ n, t.staticOf n da = s.staticOf n db := fun n => (staticOf_congr hut.entries n da).trans (hswap n).2
  have hmove : ∀ {n d d'}, t.staticOf n d' = s.staticOf n d → ∀ e, s.findEntry n d = some e → e.static = true →
      ∃ e', t.findEntry n d' = some e' ∧ e'.static = true ∧ e'.level = e.level ∧ e'.cls = e.cls :=
    fun heq e hf hst => by
      obtain ⟨e', hf', hst', hx⟩ := staticOf_some.1 (heq.trans (staticOf_some.2 ⟨e, hf, hst, rfl⟩))
      exact ⟨e', hf', hst', congrArg Prod.fst hx, congrArg Prod.snd hx⟩
  have hclear : ∀ {n d d'}, t.staticOf n d' = s.staticOf n d →
      (∀ e, s.findEntry n d = some e → e.static = false) → ∀ e', t.findEntry n d' = some e' → e'.static = false :=
    fun heq h => staticOf_none.1 (heq.trans (staticOf_none.2 h))
  have hpanels : PanelsButLamps s (swapStatics da db (takeHead s)) := .of_panels htouch.panels
  exact ⟨t, ht, ha, hpanels.trans hp,
    fun n => ⟨hmove (hb n), hmove (hB n), hclear (hb n), hclear (hB n)⟩,
    fun d hda hdb => (State.entriesOf_congr hut.entries d).trans (hkept d hda hdb)⟩

end Sys2Proof.Machine
end

section
/-! PROOF. The writes of listen taps (R177 to R183). -/

namespace Sys2Proof.Machine

/-! ## The record a write leaves -/

theorem enumField_value {α : Type} [DecidableEq α] {l : List FieldValue} {f : Nat} {values : List α} {old x : α}
    (hn : values.Nodup) (h : enumField l f values old = some x) :
    values.idxOf x = numberOf l f (values.idxOf old) := by
  unfold enumField at h
  unfold numberOf
  cases hl : l.lookup f with
  | none => rw [hl] at h; cases h; rfl
  | some v =>
    rw [hl] at h
    obtain ⟨hv, rfl⟩ := List.getElem?_eq_some_iff.1 h
    exact hn.idxOf_getElem v hv

theorem Tap.updated_fields {r r' : Tap} {l : List FieldValue} (h : r.updated l = some r') :
    boolField l 0 r.enabled = some r'.enabled ∧ enumField l 1 tapSides r.side = some r'.side ∧
      (∃ b, numberField l 2 r.base.toNat 255 = some b ∧ r'.base = BitVec.ofNat 8 b) ∧
      (∃ m, numberField l 3 r.mask.toNat 255 = some m ∧ r'.mask = BitVec.ofNat 8 m) ∧
      indexField l 4 r.monitor = some r'.monitor ∧ boolField l 6 r.forward = some r'.forward ∧
      r'.level = levelField l 5 r.level ∧
      r'.applied = if names l 1 || names l 2 || names l 3 || names l 4 then 0 else r.applied := by
  unfold Tap.updated at h
  split at h
  · next he hsd hb hm hd hf =>
    cases h
    exact ⟨he, hsd, ⟨_, hb, rfl⟩, ⟨_, hm, rfl⟩, hd, hf, rfl, rfl⟩
  · cases h

/-- A byte field of a tap: the number named, or the one kept. -/
theorem byteField_value {l : List FieldValue} {f v : Nat} {old new : BitVec 8}
    (h : numberField l f old.toNat 255 = some v) (hnew : new = BitVec.ofNat 8 v) :
    new.toNat = numberOf l f old.toNat := by
  have hv : v ≤ 255 := numberField_le h (by have := old.isLt; omega)
  rw [hnew, BitVec.toNat_ofNat, ← numberField_value h]
  exact Nat.mod_eq_of_lt (by omega)

theorem namesTapSettings_iff (l : List FieldValue) :
    namesTapSettings l = true ↔ ∃ f ∈ [1, 2, 3, 4, 6], names l f = true := by
  simp [namesTapSettings, or_assoc]

/-! ## Enabling -/

theorem arrive_holds {h : Holder} {lv : Level} {c : EntryClass} {n : SourceId} {d : DestId} {s : State}
    (hg : h.isGrant = false) (hroom : s.findEntry n d = none → s.hasRoom d 1 = true) :
    ∃ e, (arrive h lv c n d s).1.findEntry n d = some e ∧ e.holds h = true := by
  cases hf : s.findEntry n d with
  | none =>
    refine ⟨newEntry h lv c n d s.nextSerial, ?_, by rw [newEntry_holds]; exact decide_eq_true rfl⟩
    rw [arrive_new hf (hroom hf), findEntry_createEntry h lv c n d s hf, if_pos ⟨rfl, rfl⟩]
  | some e =>
    rw [findEntry_arrive_found hf]
    cases hh : e.holds h with
    | true => exact ⟨e, (if_neg fun hc => Bool.noConfusion hc.2.2.1).trans hf, hh⟩
    | false =>
      refine ⟨e.joined h lv c, if_pos ⟨rfl, rfl, rfl, fun ht => ?_⟩, by rw [Entry.holds_joined]; simp⟩
      rw [hg] at ht
      cases ht

/-- A holder that is no grant arrives on the pair of each source of a list, with room for those that have no entry. -/
theorem arriveAll_holds {h : Holder} {lv : Level} {c : EntryClass} {l : List SourceId} {d : DestId} {s : State}
    (hg : h.isGrant = false) (hn : l.Nodup) (hroom : s.creates l d = 0 ∨ s.roomFor l d) {n : SourceId} (hl : n ∈ l) :
    ∃ e, (l.foldl (fun t n => (arrive h lv c n d t).1) s).findEntry n d = some e ∧ e.holds h = true := by
  have hkeep : ∀ (l : List SourceId) (t : State) m, m ∉ l →
      (l.foldl (fun t n => (arrive h lv c n d t).1) t).findEntry m d = t.findEntry m d := fun l => by
    induction l with
    | nil => exact fun _ _ _ => rfl
    | cons a l ih =>
      intro t m hm
      rw [List.foldl_cons, ih _ m fun hx => hm (List.mem_cons_of_mem _ hx)]
      exact findEntry_arrive_ne fun hx => hm (hx ▸ List.mem_cons_self)
  induction l generalizing s with
  | nil => cases hl
  | cons a l ih =>
    obtain ⟨ha, hn⟩ := List.nodup_cons.1 hn
    rw [List.foldl_cons]
    rcases List.mem_cons.1 hl with rfl | hl
    · rw [hkeep l _ n ha]
      refine arrive_holds hg fun hf => ?_
      rcases hroom with h0 | hroom
      · rw [creates_cons, if_pos hf] at h0
        omega
      · exact hasRoom_of_roomFor hroom hf
    · refine ih hn ?_ hl
      rcases hroom with h0 | hroom
      · left
        rw [creates_arrive_ne (src := a) (d := d) (j := d) fun m hm h => ha (h.2 ▸ hm)]
        rw [creates_cons] at h0
        omega
      · exact .inr (roomFor_arrive ha hroom)

theorem Tap.matched_nodup (r : Tap) : r.matched.Nodup := (allOf_nodup 256).filter _

/-- R183: the isolation counts that a tap's enabling raises or its disable lowers. -/
def Tap.isolates (r : Tap) (n : SourceId) : Prop := r.forward = false ∧ r.side = .source ∧ n ∈ r.matched

/-- Source record q, its isolation count moved up or down by one. -/
def Source.moved (up : Bool) (q : Source) : Source :=
  { q with isolation := if up then q.isolation + 1 else q.isolation - 1 }

theorem source_isolateAll (up : Bool) (r : Tap) (s : State) (n : SourceId) :
    (r.matched.foldl (isolate up) s).source n = if n ∈ r.matched then (s.source n).moved up else s.source n :=
  source_foldl_setSource r.matched_nodup (fun _ => Source.moved up) s n

open Classical in
theorem enableTap_source (t : TapId) (r : Tap) (s : State) (n : SourceId) :
    (enableTap t r s).source n = if r.isolates n then (s.source n).moved true else s.source n := by
  unfold enableTap Tap.isolates
  cases hside : r.side with
  | destination => exact (if_neg fun h => by cases h.2.1).symm
  | source =>
    let s1 := r.matched.foldl (fun s n => (arrive (.tap t) r.level .talk n r.monitor s).1) s
    have h1 : s1.sources = s.sources :=
      (Touches.foldl (fun u m => arrive_touches (.tap t) r.level .talk m r.monitor u) r.matched s).sources
    have hs1 : s1.source n = s.source n := congrArg (tget · n) h1
    cases hf : r.forward with
    | true => exact hs1.trans (if_neg fun h => by cases h.1).symm
    | false =>
      refine (source_isolateAll true r s1 n).trans ?_
      rw [hs1]
      by_cases hm : n ∈ r.matched
      · exact (if_pos hm).trans (if_pos ⟨rfl, rfl, hm⟩).symm
      · exact (if_neg hm).trans (if_neg fun h => hm h.2.2).symm

open Classical in
theorem disableTap_source (t : TapId) (r : Tap) (s : State) (n : SourceId) :
    (disableTap t r s).source n = if r.isolates n then (s.source n).moved false else s.source n := by
  unfold disableTap Tap.isolates
  cases hside : r.side with
  | destination => exact (if_neg fun h => by cases h.2.1).symm
  | source =>
    let s1 := r.matched.foldl (fun s n => depart (.tap t) n r.monitor s) s
    have h1 : s1.sources = s.sources :=
      (Touches.foldl (fun u m => depart_touches (.tap t) m r.monitor u) r.matched s).sources
    have hs1 : s1.source n = s.source n := congrArg (tget · n) h1
    cases hf : r.forward with
    | true => exact hs1.trans (if_neg fun h => by cases h.1).symm
    | false =>
      refine (source_isolateAll false r s1 n).trans ?_
      rw [hs1]
      by_cases hm : n ∈ r.matched
      · exact (if_pos hm).trans (if_pos ⟨rfl, rfl, hm⟩).symm
      · exact (if_neg hm).trans (if_neg fun h => hm h.2.2).symm

theorem enableTap_entries {t : TapId} {r : Tap} {s : State} (hside : r.side = .source) :
    (enableTap t r s).entries =
      (r.matched.foldl (fun s n => (arrive (.tap t) r.level .talk n r.monitor s).1) s).entries := by
  unfold enableTap
  rw [hside]
  dsimp only
  split
  · rfl
  · exact (Touches.foldl (fun u m => isolate_touches true u m) r.matched _).entries

theorem disableTap_entries {t : TapId} {r : Tap} {s : State} (hside : r.side = .source) :
    (disableTap t r s).entries = (r.matched.foldl (fun s n => depart (.tap t) n r.monitor s) s).entries := by
  unfold disableTap
  rw [hside]
  dsimp only
  split
  · rfl
  · exact (Touches.foldl (fun u m => isolate_touches false u m) r.matched _).entries

theorem enableTap_destination {t : TapId} {r : Tap} {s : State} (hside : r.side = .destination) :
    enableTap t r s = s := by
  unfold enableTap
  rw [hside]

theorem disableTap_destination {t : TapId} {r : Tap} {s : State} (hside : r.side = .destination) :
    disableTap t r s = s := by
  unfold disableTap
  rw [hside]

/-! ## Disabling and levels -/

theorem departAll_storeInv {h : Holder} {l : List SourceId} {d : DestId} {s : State} (hs : StoreInv s) :
    StoreInv (l.foldl (fun t n => depart h n d t) s) :=
  foldl_keeps (fun t n => depart_storeInv h n d t) l s hs

theorem departAll_released {h : Holder} {l : List SourceId} {d : DestId} {s : State} {n : SourceId}
    (hl : n ∈ l ∨ ∀ e, s.findEntry n d = some e → e.holds h = false) {e : Entry}
    (he : (l.foldl (fun t n => depart h n d t) s).findEntry n d = some e) : e.holds h = false := by
  induction l generalizing s with
  | nil => exact (hl.resolve_left List.not_mem_nil) e he
  | cons a l ih =>
    rw [List.foldl_cons] at he
    refine ih ?_ he
    by_cases hn : n = a
    · subst hn
      refine .inr fun e' hf => ?_
      rw [findEntry_depart, if_pos ⟨rfl, rfl⟩] at hf
      obtain ⟨e0, -, rfl⟩ := Option.map_eq_some_iff.1 hf
      split
      · rw [Entry.holds_left]; simp
      · next hh => exact Bool.eq_false_iff.2 hh
    · refine hl.imp (fun h => (List.mem_cons.1 h).resolve_left hn) fun h e' hf => h e' ?_
      rwa [findEntry_depart, if_neg fun hc => hn hc.2] at hf

theorem entriesOf_writeEntryLevels (lv : Level) (l : List SourceId) (d : DestId) (s : State) (j : DestId) :
    (l.foldl (fun t n => writeEntryLevel lv n d t) s).entriesOf j =
      (s.entriesOf j).map fun e => if j = d ∧ e.source ∈ l then { e with level := storeLevel lv } else e := by
  induction l generalizing s with
  | nil => simp
  | cons a l ih =>
    rw [List.foldl_cons, ih, writeEntryLevel, State.entriesOf_mapEntry]
    by_cases hj : j = d
    · subst hj
      rw [if_pos rfl, List.map_map]
      refine List.map_congr_left fun e _ => ?_
      by_cases ha : e.source = a
      · simp [ha]
      · simp [ha]
    · rw [if_neg hj]
      exact List.map_congr_left fun e _ => by simp [hj]

/-! ## The checks of an enable -/

theorem tapCheck_eq (s : State) (r : Tap) :
    s.tapCheck r =
      if (r.side = .source ∧ 5 < bitCount r.mask) ∨
          (r.side = .destination ∧ (2 < bitCount r.mask ∨ r.monitor ∈ r.matched)) then .badValue
      else if (s.dest r.monitor).kind ≠ .monitor then .wrongKind
      else if (r.side = .source ∧ s.absentPairs r ≠ 0 ∧
            (32 < s.contributionCount r.monitor + s.absentPairs r ∨ 2048 < s.storeCount + s.absentPairs r)) ∨
          (r.side = .destination ∧ 32 < s.contributionCount r.monitor + r.matched.length) then .full
      else .ok := by
  unfold State.tapCheck
  cases hside : r.side with
  | source =>
    simp only [reduceCtorEq, true_and, false_and, or_false]
    have hfit : (s.absentPairs r = 0 ∨ s.hasRoom r.monitor (s.absentPairs r) = true) ↔
        ¬(s.absentPairs r ≠ 0 ∧
          (32 < s.contributionCount r.monitor + s.absentPairs r ∨ 2048 < s.storeCount + s.absentPairs r)) := by
      unfold State.hasRoom
      simp only [Bool.and_eq_true, decide_eq_true_eq]
      show (_ ∨ (_ ≤ 32 ∧ _ ≤ 2048)) ↔ _
      omega
    simp only [hfit, ite_not]
  | destination =>
    simp only [reduceCtorEq, true_and, false_and, false_or, Tap.mem_matched]
    have hfit : s.contributionCount r.monitor + r.matched.length ≤ Config.contributionCap ↔
        ¬32 < s.contributionCount r.monitor + r.matched.length := Nat.not_lt.symm
    simp only [hfit, ite_not]
    by_cases h2 : 2 < bitCount r.mask
    · simp [h2]
    · simp [h2]

theorem writeTap_inUse {x : TapId} {l : List FieldValue} {s : State} {r : Tap} (hr : (s.tap x).updated l = some r)
    (hon : (s.tap x).enabled = true) (hn : namesTapSettings l = true) : writeTap x l s = (s, .inUse) := by
  unfold writeTap
  simp [hr, hon, hn]

theorem writeTap_enable {x : TapId} {l : List FieldValue} {s : State} {r : Tap} (hr : (s.tap x).updated l = some r)
    (hoff : (s.tap x).enabled = false) (hon : r.enabled = true) (hc : s.tapCheck r = .ok) :
    writeTap x l s = (enableTap x r (s.setTap x r), .ok) := by
  unfold writeTap
  simp [hr, hoff, hon, hc]

theorem writeTap_refused {x : TapId} {l : List FieldValue} {s : State} {r : Tap} {e : Result}
    (hr : (s.tap x).updated l = some r) (hoff : (s.tap x).enabled = false) (hon : r.enabled = true)
    (hc : s.tapCheck r = e) (he : e ≠ .ok) : writeTap x l s = (s, e) := by
  unfold writeTap
  simp only [hr, hoff, hon, Bool.false_and, Bool.false_eq_true, if_false, Bool.not_false, Bool.and_self, if_true]
  rw [hc]
  cases e with
  | ok => exact absurd rfl he
  | _ => rfl

theorem writeTap_settle {x : TapId} {l : List FieldValue} {s : State} {r : Tap} (hr : (s.tap x).updated l = some r)
    (hn : ¬((s.tap x).enabled = true ∧ namesTapSettings l = true))
    (hon : ¬(r.enabled = true ∧ (s.tap x).enabled = false)) :
    writeTap x l s = (settleTap x (s.tap x).enabled r l (s.setTap x r), .ok) := by
  unfold writeTap
  simp only [hr]
  rw [if_neg (by simpa using hn), if_neg (by simpa using hon)]

/-- The entries of a disabled tap's monitor, and those of a tap whose level is written. -/
theorem settleTap_entries (x : TapId) (was : Bool) (r : Tap) (l : List FieldValue) (s : State)
    (h : was = false ∨ r.enabled = true) (d : DestId) :
    (settleTap x was r l s).entriesOf d = (s.entriesOf d).map fun e =>
      if was = true ∧ names l 5 = true ∧ r.side = .source ∧ d = r.monitor ∧ e.source ∈ r.matched then
        { e with level := storeLevel r.level }
      else e := by
  unfold settleTap
  dsimp only
  rw [if_neg (show ¬(was && !r.enabled) = true by rcases h with h | h <;> simp [h])]
  by_cases hw : (was && names l 5) = true
  · have hw' := hw
    rw [Bool.and_eq_true] at hw'
    obtain ⟨hwas, hn⟩ := hw'
    rw [if_pos hw]
    unfold tapLevel
    cases hside : r.side with
    | source =>
      refine (entriesOf_writeEntryLevels r.level r.matched r.monitor s d).trans ?_
      exact List.map_congr_left fun e _ => by simp [hwas, hn]
    | destination => simp
  · rw [if_neg hw]
    have hno : ∀ e : Entry,
        ¬(was = true ∧ names l 5 = true ∧ r.side = .source ∧ d = r.monitor ∧ e.source ∈ r.matched) :=
      fun e ⟨h1, h2, _⟩ => hw (by rw [h1, h2]; rfl)
    simp only [hno, if_false, List.map_id']

theorem settleTap_off (x : TapId) (r : Tap) (l : List FieldValue) (s : State) :
    settleTap x false r l s = s := by
  unfold settleTap
  simp

theorem tapLevel_storeInv (r : Tap) (s : State) (hs : StoreInv s) : StoreInv (tapLevel r s) := by
  unfold tapLevel
  split
  · exact foldl_keeps (fun t n => writeEntryLevel_storeInv r.level n r.monitor t) r.matched s hs
  · exact hs

theorem settleTap_touches_enabled (x : TapId) (r : Tap) (l : List FieldValue) (s : State) (h : r.enabled = true) :
    Touches [.entries] s (settleTap x true r l s) := by
  unfold settleTap
  dsimp only
  rw [if_neg (by simp [h])]
  split
  · exact tapLevel_touches r s
  · exact .refl _ _

/-! ## The write -/

/-- Settles O44. -/
theorem tapWritesTakeEffect : Obligations.TapWritesTakeEffect := by
  intro tag index mask values x s hs hi hstore l rows c hrow refused old settings sides
  obtain ⟨isRow, hr, hc⟩ : ∃ isRow, isRow index.toNat l = true ∧
      exec c s = writeRow .tap isRow tag index mask values s := by
    simp only [rows, List.mem_cons, List.not_mem_nil, or_false, Prod.mk.injEq] at hrow
    rcases hrow with ⟨rfl, h⟩ | ⟨rfl, h⟩ | ⟨rfl, h⟩ | ⟨rfl, h⟩
    all_goals exact ⟨_, h.symm, rfl⟩
  have hrec : writeRecord .tap index.toNat l (takeHead s) = writeTap x l (takeHead s) := atIndex_val hi _ _
  have hrefuse : ∀ r, writeTap x l (takeHead s) = (takeHead s, r) → refused r := fun r hw => by
    obtain ⟨t, ht, h⟩ := row_refused (isRow := isRow) hs hr (hrec.trans hw)
    exact ⟨t, hc.trans ht, h⟩
  refine ⟨?_, fun hnone => hrefuse _ (writeTap_of_none (Option.isNone_iff_eq_none.2 hnone)), fun r hupd => ⟨?_, ?_⟩⟩
  · rw [← Option.isNone_iff_eq_none, Tap.updated_isNone]
    simp only [Bool.or_eq_true, boolField_isNone_iff, indexField_isNone_iff, numberField_isNone_iff, or_assoc,
      enumField_isNone_iff (values := tapSides) _ _ _ (List.cons_ne_nil _ _)]
    rfl
  · obtain ⟨he, hsd, ⟨b, hb, hbase⟩, ⟨m, hm, hmask⟩, hd, hf, hlv, happ⟩ := Tap.updated_fields hupd
    refine ⟨boolField_value he, enumField_value (values := tapSides) (by decide) hsd, byteField_value hb hbase,
      byteField_value hm hmask, indexField_value hd, ?_, boolField_value hf, ?_⟩
    · rw [hlv]
      exact levelField_value ..
    · rw [happ]
      simp [namesAny, or_assoc]
  intro frame isolated bits feeds count missing bad full
  have hbase : ((takeHead s).tap x).updated l = some r := hupd
  let v := (takeHead s).setTap x r
  have hv : ∀ y, v.tap y = if y = x then r else s.tap y := State.tap_setTap (takeHead s) x r
  have hvt : Touches [.taps] (takeHead s) v := setTap_touches _ _ _
  have hvs : StoreInv v := hstore.of_same rfl rfl
  have hframe : ∀ u t : State, u.taps = v.taps → Touches [.replies, .draws, .panels, .lampDirty] u t →
      PanelsButLamps s t → frame t := fun u t hu htu hp => by
    have htap : ∀ y, t.tap y = if y = x then r else s.tap y := fun y =>
      (congrArg (tget · y) (htu.taps.trans hu)).trans (hv y)
    exact ⟨(htap x).trans (if_pos rfl), fun y hy => (htap y).trans (if_neg hy), hp⟩
  have hisolated : ∀ (up : Bool) (u t : State),
      (∀ n, u.source n = open Classical in if r.isolates n then (v.source n).moved up else v.source n) →
      t.sources = u.sources → isolated t up := fun up u t hu ht n => by
    refine (congrArg (tget · n) ht).trans ((hu n).trans ?_)
    by_cases hn : r.isolates n
    · exact (if_pos hn).trans (if_pos hn).symm
    · exact (if_neg hn).trans (if_neg hn).symm
  have hcheck : (takeHead s).tapCheck r = if bad then .badValue else if (s.dest r.monitor).kind ≠ .monitor then .wrongKind
      else if full then .full else .ok := tapCheck_eq (takeHead s) r
  refine ⟨fun hon hset => hrefuse _ (writeTap_inUse hbase hon ((namesTapSettings_iff l).2 hset)), fun hoff hon =>
    ⟨fun hb => ?_, fun hb hk => ?_, fun hb hk hfull => ?_, fun hb hk hfull => ?_⟩, fun hon hset hoff => ?_,
    fun hon hset hon' => ?_, fun hoff hoff' => ?_⟩
  · exact hrefuse _ (writeTap_refused hbase hoff hon (hcheck.trans (if_pos hb)) nofun)
  · exact hrefuse _ (writeTap_refused hbase hoff hon (hcheck.trans ((if_neg hb).trans (if_pos hk))) nofun)
  · exact hrefuse _ (writeTap_refused hbase hoff hon
      (hcheck.trans ((if_neg hb).trans ((if_neg (not_not_intro hk)).trans (if_pos hfull)))) nofun)
  · have hok : (takeHead s).tapCheck r = .ok :=
      hcheck.trans ((if_neg hb).trans ((if_neg (not_not_intro hk)).trans (if_neg hfull)))
    let u := enableTap x r v
    have hu : Touches tapFields (takeHead s) u := hvt.up.trans (enableTap_touches x r v)
    obtain ⟨t, ht, ha, htu, hp⟩ := row_wrote_panels (isRow := isRow) (l := tapFields) hs hr
      (hrec.trans (writeTap_enable hbase hoff hon hok)) (hu.up (by decide)) (by decide)
    refine ⟨t, hc.trans ht, ha, hframe u t (enableTap_taps x r v) htu hp,
      hisolated true u t (fun n => enableTap_source x r v n) htu.sources, fun hside n hn => ?_, fun hside => ?_⟩
    · have hcount : v.contributionCount r.monitor = count := by
        rw [show v.contributionCount r.monitor = (takeHead s).contributionCount r.monitor + r.feeds r.monitor from
          contributionCount_setTap hoff r r.monitor, Tap.feeds_of_source hside]
        rfl
      have hroom : v.creates r.matched r.monitor = 0 ∨ v.roomFor r.matched r.monitor := by
        have hcreates : v.creates r.matched r.monitor = missing := rfl
        have hstored : v.storeCount = (s.entries.toList.map List.length).sum := rfl
        have hfit : ¬(missing ≠ 0 ∧ (32 < count + missing ∨ 2048 < (s.entries.toList.map List.length).sum + missing)) :=
          fun h => hfull (.inl ⟨hside, h⟩)
        unfold State.roomFor
        rw [hcreates, hcount, hstored]
        omega
      obtain ⟨e, hf, hh⟩ := arriveAll_holds (h := .tap x) (lv := r.level) (c := .talk) rfl r.matched_nodup hroom hn
      have hmem := State.mem_of_findEntry hf
      rw [State.entriesOf_congr (htu.entries.trans (enableTap_entries hside))]
      exact ⟨e, hmem.1, hmem.2, List.contains_iff_mem.1 hh⟩
    · exact (htu.entries.trans (congrArg State.entries (enableTap_destination hside))).trans rfl
  · let u := settleTap x true r l v
    have hu : Touches tapFields (takeHead s) u := hvt.up.trans (settleTap_touches x true r l v)
    have hw : writeTap x l (takeHead s) = (u, .ok) := by
      have := writeTap_settle hbase (fun h => hset ((namesTapSettings_iff l).1 h.2)) (by rw [hoff]; exact nofun)
      rw [show ((takeHead s).tap x).enabled = true from hon] at this
      exact this
    obtain ⟨t, ht, ha, htu, hp⟩ := row_wrote_panels (isRow := isRow) (l := tapFields) hs hr
      (hrec.trans hw) (hu.up (by decide)) (by decide)
    let v1 := if (true && names l 5) = true then tapLevel r v else v
    have hv1 : Touches [.entries] v v1 := by
      show Touches _ _ (if _ then _ else _)
      split
      · exact tapLevel_touches r v
      · exact .refl _ _
    have hu1 : u = disableTap x r v1 := by
      show settleTap x true r l v = _
      unfold settleTap
      simp only [hoff]
      rfl
    refine ⟨t, hc.trans ht, ha, hframe u t (settleTap_taps x true r l v) htu hp,
      hisolated false u t (fun n => ?_) htu.sources, fun hside n hn e he hsrc => ?_, fun hside => ?_⟩
    · rw [hu1, disableTap_source, show v1.source n = v.source n from congrArg (tget · n) hv1.sources]
    · have hv1s : StoreInv v1 := by
        show StoreInv (if _ then _ else _)
        split
        · exact tapLevel_storeInv r v hvs
        · exact hvs
      let w := r.matched.foldl (fun s n => depart (.tap x) n r.monitor s) v1
      have hwt : t.entries = w.entries := (htu.entries.trans (congrArg State.entries hu1)).trans (disableTap_entries hside)
      rw [State.entriesOf_congr hwt] at he
      have hf : w.findEntry n r.monitor = some e := (departAll_storeInv hv1s).findEntry_iff.2 ⟨he, hsrc⟩
      intro hx
      exact Bool.false_ne_true ((departAll_released (.inl hn) hf).symm.trans (List.contains_iff_mem.2 hx))
    · have hv1v : v1.entries = v.entries := by
        show State.entries (if _ then _ else _) = _
        split
        · unfold tapLevel
          rw [hside]
        · rfl
      exact (htu.entries.trans (congrArg State.entries (hu1.trans (disableTap_destination hside)))).trans hv1v
  · let u := settleTap x true r l v
    have hu : Touches [.entries] v u := settleTap_touches_enabled x r l v hon'
    have hw : writeTap x l (takeHead s) = (u, .ok) := by
      have := writeTap_settle hbase (fun h => hset ((namesTapSettings_iff l).1 h.2))
        (fun h => Bool.false_ne_true (h.2.symm.trans hon))
      rw [show ((takeHead s).tap x).enabled = true from hon] at this
      exact this
    obtain ⟨t, ht, ha, htu⟩ := row_wrote_quiet (isRow := isRow) (l := [.taps, .entries]) hs hr (hrec.trans hw)
      (hvt.up.trans hu.up) (by decide)
    refine ⟨t, hc.trans ht, ha, hframe u t (settleTap_taps x true r l v) htu.up
      (.of_panels (htu.panels.trans hu.panels)), fun d => ?_⟩
    rw [State.entriesOf_congr htu.entries, settleTap_entries x true r l v (.inr hon') d, storeLevel_eq]
    exact List.map_congr_left fun e _ => if_congr (by simp) rfl rfl
  · have hw : writeTap x l (takeHead s) = (v, .ok) := by
      have := writeTap_settle hbase (fun h => Bool.false_ne_true (hoff.symm.trans h.1))
        (fun h => Bool.false_ne_true (hoff'.symm.trans h.1))
      rw [show ((takeHead s).tap x).enabled = false from hoff] at this
      exact this.trans (congrArg (·, Result.ok) (settleTap_off x r l v))
    obtain ⟨t, ht, ha, htu⟩ := row_wrote_quiet (isRow := isRow) (l := [.taps]) hs hr (hrec.trans hw) hvt (by decide)
    refine ⟨t, hc.trans ht, ha, hframe v t rfl htu.up (.of_panels htu.panels), fun hn => ?_⟩
    obtain ⟨-, -, -, -, -, -, -, happ⟩ := Tap.updated_fields hupd
    rw [happ, if_pos]
    simpa [namesAny, or_assoc] using hn

end Sys2Proof.Machine
end

section
/-! PROOF. Layouts: an order in its 28 bytes (R42), and a frame as it is built and read (R1, R21, R40). -/

namespace Sys2Proof.Machine

/-! ## Bytes of a list -/

@[simp] theorem byteAt_cons_zero (x : Byte) (l : List Byte) : byteAt (x :: l) 0 = x := rfl

@[simp] theorem byteAt_cons_succ (x : Byte) (l : List Byte) (i : Nat) : byteAt (x :: l) (i + 1) = byteAt l i := rfl

theorem byteAt_of_lt {l : List Byte} {i : Nat} (h : i < l.length) : byteAt l i = l[i] := by
  rw [byteAt, List.getD_eq_getElem l 0 h]

theorem byteAt_append_left {a b : List Byte} {i : Nat} (h : i < a.length) : byteAt (a ++ b) i = byteAt a i := by
  rw [byteAt_of_lt (by rw [List.length_append]; omega), byteAt_of_lt h, List.getElem_append_left h]

theorem byteAt_append_right (a b : List Byte) (i : Nat) : byteAt (a ++ b) (a.length + i) = byteAt b i := by
  rw [byteAt, byteAt, List.getD_append_right _ _ _ _ (Nat.le_add_right _ _), Nat.add_sub_cancel_left]

theorem byteAt_slice {l : List Byte} {i n j : Nat} (h : j < n) : byteAt (slice l i n) j = byteAt l (i + j) := by
  rw [byteAt_of_lt (by simpa using h)]
  simp [slice]

theorem u16At_slice {l : List Byte} {n j : Nat} (h : j + 1 < n) : u16At (slice l 0 n) j = u16At l j := by
  rw [u16At, u16At, byteAt_slice (by omega), byteAt_slice h, Nat.zero_add, Nat.zero_add]

theorem u32At_slice {l : List Byte} {n j : Nat} (h : j + 3 < n) : u32At (slice l 0 n) j = u32At l j := by
  rw [u32At, u32At, u16At_slice (by omega), u16At_slice (by omega)]

theorem slice_slice {l : List Byte} {n i k : Nat} (h : i + k ≤ n) : slice (slice l 0 n) i k = slice l i k :=
  List.map_congr_left fun j hj => by
    rw [byteAt_slice (by have := List.mem_range.1 hj; omega), Nat.zero_add]

/-- The bytes of a list of parts of equal length. -/
theorem byteAt_flatMap {α : Type} {f : α → List Byte} {w : Nat} {l : List α} (hf : ∀ x ∈ l, (f x).length = w) {i j : Nat}
    (hi : i < l.length) (hj : j < w) : byteAt (l.flatMap f) (w * i + j) = byteAt (f l[i]) j := by
  induction l generalizing i with
  | nil => exact absurd hi (Nat.not_lt_zero i)
  | cons x l ih =>
    have hx : (f x).length = w := hf x List.mem_cons_self
    rw [List.flatMap_cons]
    cases i with
    | zero =>
      rw [Nat.mul_zero, Nat.zero_add]
      exact byteAt_append_left (by rw [hx]; exact hj)
    | succ i =>
      rw [Nat.mul_succ, show w * i + w + j = (f x).length + (w * i + j) by omega, byteAt_append_right]
      exact ih (fun y hy => hf y (List.mem_cons_of_mem _ hy)) (Nat.lt_of_succ_lt_succ hi)

/-! ## Numbers as bytes -/

theorem bytesOfNat_succ (w v : Nat) : bytesOfNat (w + 1) v = BitVec.ofNat 8 (v / 256 ^ w) :: bytesOfNat w v := by
  unfold bytesOfNat
  rw [List.range_succ_eq_map, List.map_cons, List.map_map]
  refine congrArg₂ List.cons (by simp) (List.map_congr_left fun i hi => ?_)
  have := List.mem_range.1 hi
  simp only [Function.comp_apply]
  rw [show w + 1 - 1 - i.succ = w - 1 - i by omega]

theorem bytesOfNat_zero (v : Nat) : bytesOfNat 0 v = [] := rfl

theorem natOfBytes_cons (x : Byte) (l : List Byte) : natOfBytes (x :: l) = x.toNat * 256 ^ l.length + natOfBytes l := by
  have hacc : ∀ (l : List Byte) (n : Nat),
      l.foldl (fun n b => n * 256 + b.toNat) n = n * 256 ^ l.length + natOfBytes l := fun l => by
    induction l with
    | nil => intro n; simp [natOfBytes]
    | cons y l ih =>
      intro n
      rw [natOfBytes, List.foldl_cons, List.foldl_cons, ih, ih, List.length_cons, Nat.pow_succ]
      ring
  rw [natOfBytes, List.foldl_cons, hacc]
  simp

theorem natOfBytes_bytesOfNat (w v : Nat) : natOfBytes (bytesOfNat w v) = v % 256 ^ w := by
  induction w with
  | zero => rw [bytesOfNat_zero, Nat.pow_zero, Nat.mod_one]; rfl
  | succ w ih =>
    have hmod : v % 256 ^ (w + 1) = v % 256 ^ w + 256 ^ w * (v / 256 ^ w % 256) := Nat.mod_pow_succ
    rw [bytesOfNat_succ, natOfBytes_cons, ih, bytesOfNat_length, BitVec.toNat_ofNat, hmod, Nat.add_comm, Nat.mul_comm]

theorem u16At_append_right (a b : List Byte) (i : Nat) : u16At (a ++ b) (a.length + i) = u16At b i := by
  rw [u16At, u16At, byteAt_append_right, Nat.add_assoc, byteAt_append_right]

theorem u32At_append_right (a b : List Byte) (i : Nat) : u32At (a ++ b) (a.length + i) = u32At b i := by
  rw [u32At, u32At, u16At_append_right, Nat.add_assoc, u16At_append_right]

theorem slice_append_right (a b : List Byte) (i n : Nat) : slice (a ++ b) (a.length + i) n = slice b i n :=
  List.map_congr_left fun j _ => by rw [Nat.add_assoc, byteAt_append_right]

theorem u16At_toNat (v : Nat) (l : List Byte) : (u16At (bytesOfNat 2 v ++ l) 0).toNat = v % 65536 := by
  rw [bytesOfNat_succ, bytesOfNat_succ, bytesOfNat_zero]
  simp only [u16At, List.cons_append, byteAt_cons_zero, byteAt_cons_succ, BitVec.toNat_append, BitVec.toNat_ofNat]
  rw [← Nat.shiftLeft_add_eq_or_of_lt (by omega), Nat.shiftLeft_eq]
  omega

theorem u16At_bytesOfNat (i : BitVec 16) (l : List Byte) : u16At (bytesOfNat 2 i.toNat ++ l) 0 = i :=
  BitVec.eq_of_toNat_eq ((u16At_toNat _ _).trans (Nat.mod_eq_of_lt i.isLt))

theorem bytesOfNat_four (v : Nat) : bytesOfNat 4 v = bytesOfNat 2 (v / 65536) ++ bytesOfNat 2 v := by
  simp only [bytesOfNat_succ, bytesOfNat_zero, List.cons_append, List.nil_append, Nat.div_div_eq_div_mul]
  norm_num

theorem u32At_bytesOfNat (i : BitVec 32) (l : List Byte) : u32At (bytesOfNat 4 i.toNat ++ l) 0 = i := by
  have hlow : u16At (bytesOfNat 2 (i.toNat / 65536) ++ (bytesOfNat 2 i.toNat ++ l)) 2 = u16At (bytesOfNat 2 i.toNat ++ l) 0 :=
    u16At_append_right (bytesOfNat 2 (i.toNat / 65536)) _ 0
  apply BitVec.eq_of_toNat_eq
  rw [u32At, bytesOfNat_four, List.append_assoc, hlow, BitVec.toNat_append, u16At_toNat, u16At_toNat,
    ← Nat.shiftLeft_add_eq_or_of_lt (by omega), Nat.shiftLeft_eq]
  have := i.isLt
  omega

/-! ## The orders -/

theorem readRoutes_bytes (a b : Byte) (l : List RouteArg) :
    readRoutes (a :: b :: l.flatMap RouteArg.bytes) l.length = l := by
  refine List.ext_getElem (by simp [readRoutes]) fun i _ hi => ?_
  have hbyte : ∀ j < 4, byteAt (l.flatMap RouteArg.bytes) (4 * i + j) = byteAt (RouteArg.bytes l[i]) j := fun j hj =>
    byteAt_flatMap (f := RouteArg.bytes) (w := 4) (fun _ _ => rfl) hi hj
  have h0 : byteAt (l.flatMap RouteArg.bytes) (4 * i) = byteAt (RouteArg.bytes l[i]) 0 := hbyte 0 (by decide)
  have h1 := hbyte 1 (by decide)
  have h2 := hbyte 2 (by decide)
  have h3 := hbyte 3 (by decide)
  simp only [readRoutes, List.getElem_map, List.getElem_range]
  rw [show 2 + 4 * i = 4 * i + 1 + 1 by omega, show 3 + 4 * i = 4 * i + 1 + 1 + 1 by omega,
    show 4 + 4 * i = 4 * i + 2 + 1 + 1 by omega, show 5 + 4 * i = 4 * i + 3 + 1 + 1 by omega]
  simp only [byteAt_cons_succ, h0, h1, h2, h3]
  rfl

theorem readPairs_bytes (a : List Byte) (l : List PairArg) :
    readPairs (a ++ l.flatMap PairArg.bytes) a.length l.length = l := by
  refine List.ext_getElem (by simp [readPairs]) fun i _ hi => ?_
  have hbyte : ∀ j < 2, byteAt (l.flatMap PairArg.bytes) (2 * i + j) = byteAt (PairArg.bytes l[i]) j := fun j hj =>
    byteAt_flatMap (f := PairArg.bytes) (w := 2) (fun _ _ => rfl) hi hj
  have h0 := hbyte 0 (by decide)
  have h1 := hbyte 1 (by decide)
  simp only [readPairs, List.getElem_map, List.getElem_range]
  rw [Nat.add_assoc, byteAt_append_right, show 2 * i = 2 * i + 0 by omega, byteAt_append_right]
  simp only [h0, h1]
  rfl

theorem readRoutes_slice {l : List Byte} {n : Nat} (h : n ≤ 6) : readRoutes (slice l 0 28) n = readRoutes l n :=
  List.map_congr_left fun i hi => by
    have := List.mem_range.1 hi
    rw [byteAt_slice (by omega), byteAt_slice (by omega), byteAt_slice (by omega), byteAt_slice (by omega)]
    simp only [Nat.zero_add]

theorem readPairs_slice {l : List Byte} {start n : Nat} (h : start + 2 * n ≤ 28) :
    readPairs (slice l 0 28) start n = readPairs l start n :=
  List.map_congr_left fun i hi => by
    have := List.mem_range.1 hi
    rw [byteAt_slice (by omega), byteAt_slice (by omega)]
    simp only [Nat.zero_add]

/-- The 28 bytes of an order's body read as the order laid out. -/
theorem readOrder_slice (l : List Byte) : readOrder (slice l 0 28) = readOrder l := by
  have hbyte : ∀ j < 28, byteAt (slice l 0 28) j = byteAt l j := fun j hj => by
    rw [byteAt_slice hj, Nat.zero_add]
  have h6 := routeCount_le (byteAt l 1)
  unfold readOrder
  simp only [hbyte 0 (by decide), hbyte 1 (by decide), hbyte 2 (by decide), hbyte 3 (by decide), hbyte 4 (by decide),
    hbyte 10 (by decide), u16At_slice (n := 28) (j := 1) (by decide), u16At_slice (n := 28) (j := 2) (by decide),
    u16At_slice (n := 28) (j := 8) (by decide), u32At_slice (n := 28) (j := 4) (by decide),
    slice_slice (n := 28) (i := 8) (k := 20) (by decide), slice_slice (n := 28) (i := 12) (k := 16) (by decide),
    readRoutes_slice h6, readPairs_slice (start := 2) (show 2 + 2 * routeCount (byteAt l 1) ≤ 28 by omega),
    readPairs_slice (start := 4) (show 4 + 2 * routeCount (byteAt l 1) ≤ 28 by omega)]

/-- The operands behind an order's first two bytes: an index and a mask. -/
theorem operands_read (i : BitVec 16) (m : BitVec 32) (l : List Byte) :
    u16At (bytesOfNat 2 i.toNat ++ (bytesOfNat 4 m.toNat ++ l)) 0 = i ∧
      u32At (bytesOfNat 2 i.toNat ++ (bytesOfNat 4 m.toNat ++ l)) 2 = m :=
  ⟨u16At_bytesOfNat i _,
    (u32At_append_right (bytesOfNat 2 i.toNat) (bytesOfNat 4 m.toNat ++ l) 0).trans (u32At_bytesOfNat m l)⟩

/-- What follows the index and the mask. -/
theorem operands_u16 (i : BitVec 16) (m : BitVec 32) (n : BitVec 16) (l : List Byte) :
    u16At (bytesOfNat 2 i.toNat ++ (bytesOfNat 4 m.toNat ++ (bytesOfNat 2 n.toNat ++ l))) 6 = n :=
  (u16At_append_right (bytesOfNat 2 i.toNat) (bytesOfNat 4 m.toNat ++ (bytesOfNat 2 n.toNat ++ l)) 4).trans
    ((u16At_append_right (bytesOfNat 4 m.toNat) (bytesOfNat 2 n.toNat ++ l) 0).trans (u16At_bytesOfNat n l))

theorem operands_byteAt (i : BitVec 16) (m : BitVec 32) (n : BitVec 16) (l : List Byte) :
    byteAt (bytesOfNat 2 i.toNat ++ (bytesOfNat 4 m.toNat ++ (bytesOfNat 2 n.toNat ++ l))) 8 = byteAt l 0 :=
  (byteAt_append_right (bytesOfNat 2 i.toNat) (bytesOfNat 4 m.toNat ++ (bytesOfNat 2 n.toNat ++ l)) 6).trans
    ((byteAt_append_right (bytesOfNat 4 m.toNat) (bytesOfNat 2 n.toNat ++ l) 2).trans
      (byteAt_append_right (bytesOfNat 2 n.toNat) l 0))

theorem readOrder_unlisted {c : Byte} (h : c = 0 ∨ 17 < c.toNat) (l : List Byte) : readOrder (c :: l) = .unlisted c := by
  rcases h with rfl | h
  · rfl
  · unfold readOrder
    rw [byteAt_cons_zero]
    split
    all_goals first | omega | rfl

theorem readOrder_listed {o : Order} (h : o.wellFormed = true) : readOrder o.listed = o := by
  cases o with
  | recordRead t i m =>
    obtain ⟨hi, hm⟩ := operands_read i m []
    rw [List.append_nil] at hi hm
    exact congrArg₂ (Order.recordRead t) hi hm
  | recordWrite t i m v =>
    obtain ⟨hi, hm⟩ := operands_read i m v
    have hv : slice (([2, t] ++ bytesOfNat 2 i.toNat ++ bytesOfNat 4 m.toNat) ++ v) 8 20 = v :=
      (slice_append_right _ v 0 20).trans (slice_eq_self (beq_iff_eq.1 h))
    calc Order.recordWrite t _ _ _ = .recordWrite t i m _ := congrArg₂ (Order.recordWrite t · · _) hi hm
      _ = .recordWrite t i m v := congrArg (Order.recordWrite t i m) hv
  | blockRead t i m n d =>
    obtain ⟨hi, hm⟩ := operands_read i m (bytesOfNat 2 n.toNat ++ [d])
    calc Order.blockRead t _ _ _ _ = .blockRead t i m _ _ := congrArg₂ (Order.blockRead t · · _ _) hi hm
      _ = .blockRead t i m n d := congrArg₂ (Order.blockRead t i m) (operands_u16 i m n [d]) (operands_byteAt i m n [d])
  | fill t i m n d v =>
    obtain ⟨hi, hm⟩ := operands_read i m (bytesOfNat 2 n.toNat ++ (d :: 0 :: v))
    have hv : slice (([4, t] ++ bytesOfNat 2 i.toNat ++ bytesOfNat 4 m.toNat ++ bytesOfNat 2 n.toNat ++ [d, 0]) ++ v)
        12 16 = v := (slice_append_right _ v 0 16).trans (slice_eq_self (beq_iff_eq.1 h))
    calc Order.fill t _ _ _ _ _ = .fill t i m _ _ _ := congrArg₂ (Order.fill t · · _ _ _) hi hm
      _ = .fill t i m n d _ :=
        congrArg₂ (Order.fill t i m · · _) (operands_u16 i m n (d :: 0 :: v)) (operands_byteAt i m n (d :: 0 :: v))
      _ = .fill t i m n d v := congrArg (Order.fill t i m n d) hv
  | routeAdd n l =>
    have hl : l.length = routeCount n := beq_iff_eq.1 h
    have hread : readRoutes (5 :: n :: l.flatMap RouteArg.bytes) (routeCount n) = l := hl ▸ readRoutes_bytes 5 n l
    exact congrArg (Order.routeAdd n) hread
  | routeRemove n l =>
    have hl : l.length = routeCount n := beq_iff_eq.1 h
    have hread : readPairs ([6, n] ++ l.flatMap PairArg.bytes) 2 (routeCount n) = l := hl ▸ readPairs_bytes [6, n] l
    exact congrArg (Order.routeRemove n) hread
  | routeNudge n d c l =>
    have hl : l.length = routeCount n := beq_iff_eq.1 h
    have hread : readPairs ([7, n, d, c] ++ l.flatMap PairArg.bytes) 4 (routeCount n) = l :=
      hl ▸ readPairs_bytes [7, n, d, c] l
    exact congrArg (Order.routeNudge n d c) hread
  | unlisted c => exact readOrder_unlisted (by simpa [Order.wellFormed] using h) []
  | statusRead k => exact congrArg Order.statusRead ((congrArg (u16At · 0) (List.append_nil _)).symm.trans (u16At_bytesOfNat k []))
  | statusClear k => exact congrArg Order.statusClear ((congrArg (u16At · 0) (List.append_nil _)).symm.trans (u16At_bytesOfNat k []))
  | _ => rfl

/-- Settles O5. -/
theorem orderBodyRoundTrip : Obligations.OrderBodyRoundTrip := fun o h =>
  ⟨slice_length _ _ _, (readOrder_slice o.listed).trans (readOrder_listed h)⟩

end Sys2Proof.Machine
end

section
/-! PROOF. A frame as the part builds it, read back (R1, R6, R21, R40). -/

namespace Sys2Proof.Machine

/-! ## Samples as bytes -/

/-- The samples that w bytes hold in two's complement. -/
def FitsBytes (w : Nat) (y : Int) : Prop := -(256 ^ w : Nat) ≤ 2 * y ∧ 2 * y < (256 ^ w : Nat)

theorem bytesOfInt_length (w : Nat) (y : Int) : (bytesOfInt w y).length = w := bytesOfNat_length _ _

theorem signedOf_bytesOfInt {w : Nat} {y : Int} (h : FitsBytes w y) : signedOf (bytesOfInt w y) = y := by
  obtain ⟨hlo, hhi⟩ := h
  have hpos : (0 : Int) < (256 ^ w : Nat) := by exact_mod_cast Nat.pow_pos (by decide)
  have hmod := Int.emod_nonneg y (ne_of_gt hpos)
  have hlt := Int.emod_lt_of_pos y hpos
  have hval : natOfBytes (bytesOfInt w y) = (y % (256 ^ w : Nat)).toNat := by
    rw [bytesOfInt, natOfBytes_bytesOfNat]
    exact Nat.mod_eq_of_lt (by omega)
  unfold signedOf
  dsimp only
  rw [hval, bytesOfInt_length]
  by_cases hy : 0 ≤ y
  · have he : y % (256 ^ w : Nat) = y := Int.emod_eq_of_lt hy (by omega)
    rw [he, if_pos (by omega)]
    omega
  · have he : y % (256 ^ w : Nat) = y + (256 ^ w : Nat) := by
      rw [← Int.add_emod_right]
      exact Int.emod_eq_of_lt (by omega) (by omega)
    rw [he, if_neg (by omega)]
    omega

theorem narrow_fits {w : Width} {x : Int} (h : -8388608 ≤ x ∧ x ≤ 8388607) : FitsBytes w.bytes (w.narrow x) := by
  obtain ⟨h1, h2⟩ := h
  unfold FitsBytes
  cases w with
  | w24 => exact ⟨show -16777216 ≤ 2 * x by omega, show 2 * x < 16777216 by omega⟩
  | w16 => exact ⟨show -65536 ≤ 2 * (x / 256) by omega, show 2 * (x / 256) < 65536 by omega⟩

/-! ## Parts of equal length -/

theorem pieces_flatMap_append {α β : Type} {f : α → List β} {n : Nat} {l : List α} (hf : ∀ x ∈ l, (f x).length = n)
    (rest : List β) : pieces n l.length (l.flatMap f ++ rest) = l.map f := by
  induction l with
  | nil => rfl
  | cons x l ih =>
    have hx : (f x).length = n := hf x List.mem_cons_self
    unfold pieces at ih ⊢
    rw [List.length_cons, List.range_succ_eq_map, List.map_cons, List.map_cons, List.map_map, List.flatMap_cons,
      ← ih fun y hy => hf y (List.mem_cons_of_mem _ hy)]
    refine congrArg₂ List.cons ?_ (List.map_congr_left fun i _ => ?_)
    · rw [Nat.zero_mul, List.drop_zero, List.append_assoc, ← hx, List.take_left']
      rfl
    · simp only [Function.comp_apply]
      rw [show i.succ * n = (f x).length + i * n by rw [hx, Nat.succ_mul, Nat.add_comm], List.append_assoc,
        ← List.drop_drop, List.drop_left' rfl]

theorem pieces_flatMap {α β : Type} {f : α → List β} {n : Nat} {l : List α} (hf : ∀ x ∈ l, (f x).length = n) :
    pieces n l.length (l.flatMap f) = l.map f := by
  have h := pieces_flatMap_append hf []
  rwa [List.append_nil] at h

theorem flatMap_length {α β : Type} {f : α → List β} {n : Nat} {l : List α} (hf : ∀ x ∈ l, (f x).length = n) :
    (l.flatMap f).length = l.length * n := by
  induction l with
  | nil => simp
  | cons x l ih =>
    rw [List.flatMap_cons, List.length_append, hf x List.mem_cons_self, ih fun y hy => hf y (List.mem_cons_of_mem _ hy),
      List.length_cons, Nat.succ_mul, Nat.add_comm]

/-! ## The frame -/

/-- The bytes of one slot of a frame. -/
def slotBytes (w : Width) (l : List Int) : List Byte := l.flatMap fun x => bytesOfInt w.bytes (w.narrow x)

theorem slotBytes_length {w : Width} {l : List Int} (h : l.length = 48) : (slotBytes w l).length = 48 * w.bytes := by
  rw [slotBytes, flatMap_length fun x _ => bytesOfInt_length _ _, h]

theorem slotBytes_read {w : Width} {l : List Int} (hl : l.length = 48) (h : ∀ x ∈ l, -8388608 ≤ x ∧ x ≤ 8388607) :
    ((pieces w.bytes 48 (slotBytes w l)).map fun x => w.place (signedOf x)) = l.map fun x => w.place (w.narrow x) := by
  rw [slotBytes, ← hl, pieces_flatMap fun x _ => bytesOfInt_length _ _, List.map_map]
  exact List.map_congr_left fun x hx => congrArg w.place (signedOf_bytesOfInt (narrow_fits (h x hx)))

/-- The eight bytes that begin a frame. -/
def frameHead (seq : BitVec 16) (node : BitVec 6) (w : Width) (slots cells : Nat) : List Byte :=
  bytesOfNat 2 seq.toNat ++
    [node.setWidth 8, BitVec.ofNat 8 slots, BitVec.ofNat 8 w.number, BitVec.ofNat 8 cells, 0, 0]

/-- A frame up to its CRC. -/
def frameBody (seq : BitVec 16) (node : BitVec 6) (w : Width) (slots : List (List Int)) (cells : List (List Byte)) :
    List Byte :=
  frameHead seq node w slots.length cells.length ++ slots.flatMap (slotBytes w) ++ cells.flatten

theorem frameBytes_eq (seq : BitVec 16) (node : BitVec 6) (w : Width) (slots : List (List Int))
    (cells : List (List Byte)) :
    frameBytes seq node w slots cells =
      frameBody seq node w slots cells ++ bytesOfNat 2 (crc16 (frameBody seq node w slots cells)).toNat := rfl

theorem widthOf_number (w : Width) : widthOf (BitVec.ofNat 8 w.number) = some w := by
  cases w <;> rfl

/-- Settles O6. -/
theorem frameRoundTrip : Obligations.FrameRoundTrip := by
  intro seq node w slots cells hslots hcells hsamples hcell
  let head := frameHead seq node w slots.length cells.length
  let body := frameBody seq node w slots cells
  let tail := bytesOfNat 2 (crc16 body).toNat
  have hbytes : frameBytes seq node w slots cells = body ++ tail := frameBytes_eq _ _ _ _ _
  have hassoc : body ++ tail = head ++ (slots.flatMap (slotBytes w) ++ (cells.flatten ++ tail)) := by
    simp only [body, frameBody, List.append_assoc]
    rfl
  have hhead : head.length = 8 := rfl
  have hslot : ∀ l ∈ slots, (slotBytes w l).length = 48 * w.bytes := fun l hl => slotBytes_length (hsamples l hl).1
  have hslotsLen : (slots.flatMap (slotBytes w)).length = slots.length * (48 * w.bytes) := flatMap_length hslot
  have hcellsLen : cells.flatten.length = cells.length * 32 := by
    rw [← List.flatMap_id]
    exact flatMap_length hcell
  have hbodyLen : body.length + 2 = frameLength slots.length w cells.length := by
    simp only [body, frameBody, List.length_append, hslotsLen, hcellsLen, frameLength]
    rw [show (frameHead seq node w slots.length cells.length).length = 8 from rfl, Nat.mul_assoc]
  have hbyte : ∀ i < 8, byteAt (body ++ tail) i = byteAt head i := fun i hi => by
    rw [hassoc]
    exact byteAt_append_left (by rw [hhead]; exact hi)
  have h3 : (byteAt head 3).toNat = slots.length := (BitVec.toNat_ofNat _ _).trans (Nat.mod_eq_of_lt (by omega))
  have h4 : widthOf (byteAt head 4) = some w := widthOf_number w
  have h5 : (byteAt head 5).toNat = cells.length := (BitVec.toNat_ofNat _ _).trans (Nat.mod_eq_of_lt (by omega))
  have hseq : u16At (body ++ tail) 0 = seq := by
    rw [u16At, hbyte 0 (by decide), hbyte (0 + 1) (by decide)]
    exact u16At_bytesOfNat seq [node.setWidth 8, BitVec.ofNat 8 slots.length, BitVec.ofNat 8 w.number, BitVec.ofNat 8 cells.length, 0, 0]
  have hlen : (body ++ tail).length = body.length + 2 := List.length_append
  have htake : (body ++ tail).take ((body ++ tail).length - 2) = body := by
    rw [hlen, Nat.add_sub_cancel, List.take_left']
    rfl
  have hcrc : u16At (body ++ tail) ((body ++ tail).length - 2) = crc16 body := by
    rw [hlen, Nat.add_sub_cancel]
    have h := u16At_bytesOfNat (crc16 body) []
    rw [List.append_nil] at h
    exact (u16At_append_right body tail 0).trans h
  have haudio : (body ++ tail).drop 8 = slots.flatMap (slotBytes w) ++ (cells.flatten ++ tail) := by
    rw [hassoc, ← hhead, List.drop_left']
    rfl
  have hrest : ((body ++ tail).drop 8).drop (slots.length * 48 * w.bytes) = cells.flatten ++ tail := by
    rw [haudio, Nat.mul_assoc, ← hslotsLen, List.drop_left']
    rfl
  have hcellsRead : pieces 32 cells.length (cells.flatten ++ tail) = cells := by
    have h := pieces_flatMap_append (f := id) hcell tail
    rwa [List.flatMap_id, List.map_id] at h
  rw [hbytes]
  unfold readFrame
  rw [hbyte 4 (by decide), h4]
  dsimp only
  rw [hbyte 3 (by decide), h3, hbyte 5 (by decide), h5, if_neg, htake, hcrc, if_neg (not_not_intro rfl), hseq, hrest, haudio,
    pieces_flatMap_append hslot, hcellsRead, List.map_map]
  · refine congrArg some (congrArg (Frame.mk seq w slots.length · cells) (List.map_congr_left fun l hl => ?_))
    exact slotBytes_read (hsamples l hl).1 (hsamples l hl).2
  · rw [hlen]
    omega

end Sys2Proof.Machine
end

section
/-! PROOF. The cell lane: lamp cells, and the order in which a lane is filled (R26, R163, R191, R192, R44). -/

namespace Sys2Proof.Machine

/-! ## The panel a lamp cell serves -/

theorem find_allOf_least {n : Nat} {p : Fin n → Bool} {i : Fin n} (hi : p i = true) (hmin : ∀ j, p j = true → i ≤ j) :
    (allOf n).find? p = some i := by
  refine List.find?_eq_some_iff_getElem.2 ⟨hi, i.val, by simp [allOf], by simp [allOf], fun k hk => ?_⟩
  have hlt : ((allOf n)[k]'(by simp [allOf]; omega)) < i := by simpa [allOf, Fin.lt_def] using hk
  rw [Bool.not_eq_true']
  exact Bool.eq_false_iff.2 fun h => absurd (hmin _ h) (not_le.2 hlt)

/-- Panel p has a lamp or a cadence to be sent on port x. -/
def State.LampDue (s : State) (x : PortId) (p : PanelId) : Prop :=
  (s.panel p).configured = true ∧ (s.panel p).port = x ∧ (s.panel p).online = .online ∧
    ((s.panel p).lampPending ≠ 0 ∨ (s.panel p).cadencePending = true)

theorem mem_lampCandidates {s : State} {x : PortId} {p : PanelId} : p ∈ s.lampCandidates x ↔ s.LampDue x p := by
  unfold State.lampCandidates State.LampDue
  simp [mem_allOf, and_assoc]

/-- Panel p stands above the service position of port x. -/
def State.AbovePosition (s : State) (x : PortId) (p : PanelId) : Prop := ∀ q, s.lampPosition x = some q → q < p

/-- A service position lies below panel p, or there is none. -/
def belowPanel (o : Option PanelId) (p : PanelId) : Bool := o.all fun q => decide (q < p)

theorem above_iff (s : State) (x : PortId) (p : PanelId) :
    belowPanel (s.lampPosition x) p = true ↔ s.AbovePosition x p := by
  unfold State.AbovePosition belowPanel
  cases s.lampPosition x with
  | none => simp
  | some q => simp

theorem nextLampPanel_eq (s : State) (x : PortId) :
    s.nextLampPanel x =
      (((s.lampCandidates x).filter (belowPanel (s.lampPosition x))).head?).or (s.lampCandidates x).head? := by
  have hfilter : ((s.lampCandidates x).filter fun p =>
        match s.lampPosition x with
        | some q => decide (q.val < p.val)
        | none => true) = (s.lampCandidates x).filter (belowPanel (s.lampPosition x)) := by
    cases s.lampPosition x <;> rfl
  rw [← hfilter]
  unfold State.nextLampPanel
  dsimp only
  split
  · next h => exact (congrArg (fun l => (List.head? l).or _) h).symm
  · next h => exact (congrArg (fun l => (List.head? l).or _) h).symm

theorem nextLampPanel_none {s : State} {x : PortId} : s.nextLampPanel x = none ↔ s.lampCandidates x = [] := by
  rw [nextLampPanel_eq]
  cases s.lampCandidates x with
  | nil => simp
  | cons p l => simp

theorem nextLampPanel_of_least {s : State} {x : PortId} {p : PanelId} (hp : s.LampDue x p)
    (h : (s.AbovePosition x p ∧ ∀ q, s.LampDue x q → s.AbovePosition x q → p ≤ q) ∨
      ((∀ q, s.LampDue x q → ¬s.AbovePosition x q) ∧ ∀ q, s.LampDue x q → p ≤ q)) :
    s.nextLampPanel x = some p := by
  have hdue : ∀ q, _ = true ↔ s.LampDue x q := fun q =>
    (show _ ↔ _ from ⟨fun hq => mem_lampCandidates.1 (List.mem_filter.2 ⟨mem_allOf q, hq⟩),
      fun hq => (List.mem_filter.1 (mem_lampCandidates.2 hq)).2⟩)
  rw [nextLampPanel_eq]
  rcases h with ⟨hab, hmin⟩ | ⟨hno, hmin⟩
  · have hhead : ((s.lampCandidates x).filter (belowPanel (s.lampPosition x))).head? = some p := by
      unfold State.lampCandidates
      rw [List.filter_filter, List.head?_filter]
      refine find_allOf_least ?_ fun q hq => ?_
      · rw [Bool.and_eq_true]
        exact ⟨(above_iff s x p).2 hab, (hdue p).2 hp⟩
      · rw [Bool.and_eq_true] at hq
        exact hmin q ((hdue q).1 hq.2) ((above_iff s x q).1 hq.1)
    rw [hhead]
    rfl
  · have hnone : (s.lampCandidates x).filter (belowPanel (s.lampPosition x)) = [] :=
      List.filter_eq_nil_iff.2 fun q hq => fun hab => hno q (mem_lampCandidates.1 hq) ((above_iff s x q).1 hab)
    rw [hnone]
    unfold State.lampCandidates
    rw [List.head?_filter]
    exact find_allOf_least ((hdue p).2 hp) fun q hq => hmin q ((hdue q).1 hq)

theorem lampCell_none {s : State} {x : PortId} : lampCell x s = none ↔ s.lampCandidates x = [] := by
  rw [← nextLampPanel_none]
  unfold lampCell
  cases s.nextLampPanel x with
  | none => simp
  | some p =>
    dsimp only
    split
    · simp
    · simp

/-! ## The keys a lamp cell carries -/

theorem getLsbD_withoutLamp (b : BitVec 32) (n i : Fin 32) :
    (withoutLamp b n).getLsbD i.val = (b.getLsbD i.val && !(n == i)) := by
  unfold withoutLamp
  have hi := i.isLt
  simp only [BitVec.getLsbD_and, BitVec.getLsbD_not, BitVec.getLsbD_shiftLeft, BitVec.getLsbD_one]
  by_cases h : n = i
  · subst h
    simp
  · have hne : n.val ≠ i.val := fun hv => h (Fin.ext hv)
    have hb : (n == i) = false := beq_false_of_ne h
    rw [hb]
    by_cases hlt : i.val < n.val
    · simp [hi, hlt]
    · simp [hi, hlt]
      omega

/-- What carrying the keys ns of panel p, each with its lamp, leaves. -/
theorem carryLamps {p : PanelId} (g : Fin 32 → LampState) (ns : List (Fin 32)) (s : State) :
    let t := (ns.map fun n => (n, g n)).foldl (carryLamp p) s
    t.panel p = { s.panel p with lampPending := (t.panel p).lampPending } ∧
      (∀ n : Fin 32, (t.panel p).lampPending.getLsbD n.val = ((s.panel p).lampPending.getLsbD n.val && !ns.contains n)) ∧
      (∀ q, q ≠ p → t.panel q = s.panel q) ∧
      (∀ n : Fin 32, t.key (keyIndex p n) =
        if ns.contains n then { s.key (keyIndex p n) with lastLamp := g n } else s.key (keyIndex p n)) ∧
      ∀ k, keyPanel k ≠ p → t.key k = s.key k := by
  induction ns generalizing s with
  | nil => simp
  | cons a ns ih =>
    dsimp only at ih ⊢
    rw [List.map_cons, List.foldl_cons]
    let u := carryLamp p s (a, g a)
    have hup : u.panel p = { s.panel p with lampPending := withoutLamp (s.panel p).lampPending a } :=
      State.panel_setPanel_same s p _
    have huq : ∀ q, q ≠ p → u.panel q = s.panel q := fun q hq => (State.panel_setPanel s p _ q).trans (if_neg hq)
    have huk : ∀ k, u.key k = if k = keyIndex p a then { s.key (keyIndex p a) with lastLamp := g a } else s.key k :=
      fun k => State.key_setKey _ _ _ k
    obtain ⟨h1, h2, h3, h4, h5⟩ := ih u
    refine ⟨?_, fun n => ?_, fun q hq => (h3 q hq).trans (huq q hq), fun n => ?_, fun k hk => ?_⟩
    · exact h1.trans (by rw [hup])
    · refine (h2 n).trans ?_
      rw [hup, getLsbD_withoutLamp, List.contains_cons, Bool.not_or, Bool.and_assoc, Bool.beq_comm (a := n)]
    · refine (h4 n).trans ?_
      rw [huk, List.contains_cons]
      by_cases hn : n = a
      · subst hn
        simp
      · have hk : keyIndex p n ≠ keyIndex p a := fun h => hn (keyIndex_inj.1 h).2
        simp [hn, hk]
    · refine (h5 k hk).trans ((huk k).trans (if_neg fun h => hk ?_))
      rw [h, keyPanel_keyIndex]

theorem LampState.number_eq (x : LampState) :
    x.number = ([.off, .on, .dim, .flashCall, .flashBusy, .wink] : List LampState).idxOf x := by
  cases x <;> rfl

/-! ## The kinds of cell placed -/

theorem lampCell_kind {x : PortId} {s t : State} {cell : List Byte} (h : lampCell x s = some (cell, t)) :
    byteAt cell 0 = 0x18 ∨ byteAt cell 0 = 0x19 := by
  unfold lampCell at h
  split at h
  · cases h
  · dsimp only at h
    split at h
    · cases h
      exact .inr rfl
    · cases h
      exact .inl rfl

theorem placeLamps_succ {x : PortId} {s t : State} {cell : List Byte} (h : lampCell x s = some (cell, t)) (room : Nat) :
    placeLamps x (room + 1) s = (cell :: (placeLamps x room t).1, (placeLamps x room t).2) := by
  rw [placeLamps, h]

theorem placeLamps_stops {x : PortId} {room : Nat} {s : State} (h : room = 0 ∨ lampCell x s = none) :
    placeLamps x room s = ([], s) := by
  cases room with
  | zero => rfl
  | succ room => rw [placeLamps, h.resolve_left (Nat.succ_ne_zero room)]

theorem placeLamps_kind {x : PortId} {room : Nat} {s : State} {c : List Byte} (h : c ∈ (placeLamps x room s).1) :
    byteAt c 0 = 0x18 ∨ byteAt c 0 = 0x19 := by
  induction room generalizing s with
  | zero => cases h
  | succ room ih =>
    cases hc : lampCell x s with
    | none =>
      rw [placeLamps_stops (.inr hc)] at h
      cases h
    | some p =>
      rw [placeLamps_succ hc] at h
      rcases List.mem_cons.1 h with rfl | h
      · exact lampCell_kind hc
      · exact ih h

/-- A place stays free only where no panel has anything to be sent. -/
theorem placeLamps_length (x : PortId) (room : Nat) (s : State) :
    (placeLamps x room s).1.length ≤ room ∧
      ((placeLamps x room s).1.length < room → (placeLamps x room s).2.lampCandidates x = []) := by
  induction room generalizing s with
  | zero => exact ⟨le_rfl, fun h => absurd h (Nat.not_lt_zero _)⟩
  | succ room ih =>
    cases hc : lampCell x s with
    | none =>
      rw [placeLamps_stops (.inr hc)]
      exact ⟨Nat.zero_le _, fun _ => lampCell_none.1 hc⟩
    | some p =>
      rw [placeLamps_succ hc]
      obtain ⟨h1, h2⟩ := ih p.2
      exact ⟨Nat.succ_le_succ h1, fun h => h2 (Nat.lt_of_succ_lt_succ h)⟩

theorem placeProbes_stops {x : PortId} {sent : Count} {room : Nat} {s : State} (h : room = 0 ∨ s.probeQueue x = []) :
    placeProbes x sent room s = ([], s) := by
  cases room with
  | zero => rfl
  | succ room => rw [placeProbes, h.resolve_left (Nat.succ_ne_zero room)]

theorem departProbe_circuit_header (c : CircuitId) (sent : Count) (s : State) :
    ((departProbe c sent s).circuit c).tagGenerator = nextTag (s.circuit c).tagGenerator ∧
      ((departProbe c sent s).circuit c).gateway = (s.circuit c).gateway := by
  rcases Nat.lt_or_ge (s.circuit c).outstanding.length 4 with h | h
  · rw [departProbe_open h, State.circuit_setCircuit_same]
    exact ⟨rfl, rfl⟩
  · rw [departProbe_full h, State.circuit_setCircuit_same]
    exact ⟨rfl, rfl⟩

/-- R163: the cell of a departing probe. -/
theorem placeProbes_succ {x : PortId} {c : CircuitId} {rest : List CircuitId} {s : State}
    (h : s.probeQueue x = c :: rest) (sent : Count) (room : Nat) :
    let u := departProbe c sent (s.setProbeQueue x rest)
    let more := placeProbes x sent room u.drawn
    placeProbes x sent (room + 1) s =
      (([0x20, (s.circuit c).gateway.setWidth 8, 0, 28] ++
          probeBody u.draws (nextTag (s.circuit c).tagGenerator) c) :: more.1, more.2) := by
  intro u more
  obtain ⟨htag, hgate⟩ := departProbe_circuit_header c sent (s.setProbeQueue x rest)
  rw [placeProbes, h]
  dsimp only
  rw [htag, hgate]
  rfl

/-- The probes placed are the head of the port's queue, as many as there is room for. -/
theorem placeProbes_queue (x : PortId) (sent : Count) (room : Nat) (s : State) :
    (placeProbes x sent room s).1.length = min room (s.probeQueue x).length ∧
      (placeProbes x sent room s).2.probeQueue x = (s.probeQueue x).drop room ∧
      (∀ y, y ≠ x → (placeProbes x sent room s).2.probeQueue y = s.probeQueue y) ∧
      ∀ c ∈ (placeProbes x sent room s).1, byteAt c 0 = 0x20 := by
  induction room generalizing s with
  | zero => exact ⟨(Nat.zero_min _).symm, rfl, fun _ _ => rfl, nofun⟩
  | succ room ih =>
    cases hq : s.probeQueue x with
    | nil =>
      rw [placeProbes_stops (.inr hq)]
      exact ⟨by simp, by rw [hq]; rfl, fun _ _ => rfl, nofun⟩
    | cons c rest =>
      rw [placeProbes_succ hq]
      let u := departProbe c sent (s.setProbeQueue x rest)
      have hu : ∀ y, u.drawn.probeQueue y = if y = x then rest else s.probeQueue y := fun y =>
        (congrArg (tget · y) (departProbe_touches c sent (s.setProbeQueue x rest)).probeQueues).trans
          (State.probeQueue_setProbeQueue s x rest y)
      obtain ⟨h1, h2, h3, h4⟩ := ih u.drawn
      rw [hu, if_pos rfl] at h1 h2
      refine ⟨?_, h2, fun y hy => ?_, fun c hc => ?_⟩
      · rw [List.length_cons, List.length_cons, h1]
        omega
      · exact (h3 y hy).trans ((hu y).trans (if_neg hy))
      · rcases List.mem_cons.1 hc with rfl | hc
        · rfl
        · exact h4 c hc

theorem placeNotices_stops {room : Nat} {s : State} (h : room = 0 ∨ s.notices = []) :
    placeNotices room s = ([], s) := by
  cases room with
  | zero => rfl
  | succ room => rw [placeNotices, h.resolve_left (Nat.succ_ne_zero room)]

theorem placeNotices_succ {n : Notice} {rest : List Notice} {s : State} (h : s.notices = n :: rest) (room : Nat) :
    let more := placeNotices room { s with notices := rest, draws := s.draws + 1 }
    placeNotices (room + 1) s =
      (([0x03, s.straps.node.setWidth 8, 0, 28] ++ s.noticeBody n) :: more.1, more.2) := by
  intro more
  rw [placeNotices, h]
  rfl

/-- The notices placed are the oldest, as many as there is room for. -/
theorem placeNotices_queue (room : Nat) (s : State) :
    (placeNotices room s).1.length = min room s.notices.length ∧
      (placeNotices room s).2.notices = s.notices.drop room ∧
      ∀ c ∈ (placeNotices room s).1, byteAt c 0 = 0x03 ∧ byteAt c 1 = s.straps.node.setWidth 8 := by
  induction room generalizing s with
  | zero => exact ⟨(Nat.zero_min _).symm, rfl, nofun⟩
  | succ room ih =>
    cases hn : s.notices with
    | nil =>
      rw [placeNotices_stops (.inr hn)]
      exact ⟨by simp, by rw [hn]; rfl, nofun⟩
    | cons n rest =>
      rw [placeNotices_succ hn]
      obtain ⟨h1, h2, h3⟩ := ih { s with notices := rest, draws := s.draws + 1 }
      refine ⟨?_, h2, fun c hc => ?_⟩
      · rw [List.length_cons, List.length_cons, h1]
        exact (Nat.succ_min_succ _ _).symm
      · rcases List.mem_cons.1 hc with rfl | hc
        · exact ⟨rfl, rfl⟩
        · exact h3 c hc

/-! ## One lamp cell -/

theorem lampCell_cadence {x : PortId} {s : State} {p : PanelId} (hp : s.nextLampPanel x = some p)
    (hc : (s.panel p).cadencePending = true) :
    lampCell x s = some (cellBytes .cadence ((s.panel p).node.setWidth 8) 0 s.cadenceBody,
      ((s.setLampPosition x (some p)).setPanel p { s.panel p with cadencePending := false }).drawn) := by
  unfold lampCell
  rw [hp]
  exact if_pos hc

/-- The keys that a lamp cell of panel p carries, each with the number of its lamp. -/
def State.lampsCarried (s : State) (p : PanelId) : List (Fin 32 × LampState) :=
  (lampKeys (s.panel p).lampPending).map fun n => (n, s.deriveLamp (keyIndex p n))

theorem lampCell_lamps {x : PortId} {s : State} {p : PanelId} (hp : s.nextLampPanel x = some p)
    (hc : (s.panel p).cadencePending = false) :
    lampCell x s = some (cellBytes .lamp ((s.panel p).node.setWidth 8) 0 (lampBody s.draws (s.lampsCarried p)),
      ((s.lampsCarried p).foldl (carryLamp p) (s.setLampPosition x (some p))).drawn) := by
  unfold lampCell
  rw [hp]
  exact if_neg (ne_true_of_eq_false hc)

theorem lampKeys_length (b : BitVec 32) : (lampKeys b).length ≤ 8 := List.length_take_le 8 _

/-! ## The lane -/

/-- What the management port's replies and notices leave of a lane, given the cells placed before them. -/
theorem fillLane_eq (x : PortId) (sent : Count) (s : State) :
    let host := s.straps.mgmt == x && ((s.port x).state == .up || (s.port x).state == .holdover)
    let probes := placeProbes x sent 8 s
    let lamps := placeLamps x (min 2 (8 - probes.1.length)) probes.2
    let room := if host then 8 - (probes.1 ++ lamps.1).length else 0
    let replies := (s.replies.take room).map fun r => [0x02, s.straps.node.setWidth 8, r.tag, 28] ++ r.body
    let notices := placeNotices (room - replies.length) { lamps.2 with replies := s.replies.drop room }
    let more := placeLamps x (8 - (probes.1 ++ lamps.1 ++ replies ++ notices.1).length) notices.2
    fillLane x sent s = (probes.1 ++ lamps.1 ++ replies ++ notices.1 ++ more.1, more.2) := by
  intro host probes lamps room replies notices more
  have hp : Touches (.probeQueues :: circuitFields) s probes.2 := placeProbes_touches x sent 8 s
  have hl : Touches lampFields probes.2 lamps.2 := placeLamps_touches x _ _
  have hreplies : lamps.2.replies = s.replies := hl.replies.trans hp.replies
  have hnode : lamps.2.straps = s.straps := hl.straps.trans hp.straps
  have hhost : (s.straps.mgmt == x && (s.port x).state.carries) = host := by
    show (_ && _) = (_ && _)
    cases (s.port x).state <;> rfl
  have hcell : lamps.2.replyCell = fun r => [0x02, s.straps.node.setWidth 8, r.tag, 28] ++ r.body := by
    funext r
    unfold State.replyCell State.ownNode
    rw [hnode]
    rfl
  let r3 := if host then placeReplies (8 - (probes.1.length + lamps.1.length)) lamps.2 else ([], lamps.2)
  let r4 := if host then placeNotices (8 - (probes.1.length + lamps.1.length + r3.1.length)) r3.2 else ([], r3.2)
  let r5 := placeLamps x (8 - (probes.1.length + lamps.1.length + r3.1.length + r4.1.length)) r4.2
  have hlane : fillLane x sent s = (probes.1 ++ lamps.1 ++ r3.1 ++ r4.1 ++ r5.1, r5.2) := by
    unfold fillLane
    dsimp only
    rw [hhost]
  have hlen2 : probes.1.length + lamps.1.length = (probes.1 ++ lamps.1).length := List.length_append.symm
  have h3 : r3 = (replies, { lamps.2 with replies := s.replies.drop room }) := by
    show (if host = true then _ else _) = _
    by_cases hh : host = true
    · have hroom : room = 8 - (probes.1 ++ lamps.1).length := if_pos hh
      rw [if_pos hh, placeReplies, hreplies, hcell, hlen2, ← hroom]
    · have hroom : room = 0 := if_neg hh
      have hnone : replies = [] := by
        show (s.replies.take room).map _ = []
        rw [hroom]
        rfl
      rw [if_neg hh, hnone, hroom, List.drop_zero, ← hreplies]
  have h4 : r4 = notices := by
    show (if host = true then _ else _) = placeNotices (room - replies.length) _
    by_cases hh : host = true
    · have hroom : room = 8 - (probes.1 ++ lamps.1).length := if_pos hh
      rw [if_pos hh, h3, hlen2, ← Nat.sub_sub, ← hroom]
    · have hroom : room = 0 := if_neg hh
      rw [if_neg hh, h3, hroom, Nat.zero_sub]
      rfl
  have h5 : r5 = more := by
    show placeLamps x _ r4.2 = placeLamps x _ notices.2
    rw [h4, h3]
    simp only [List.length_append]
  rw [hlane, h5, h4, h3]

theorem lampBody_spells (draw : Nat) (ns : List (Fin 32)) (g : Fin 32 → LampState) (h : ns.length ≤ 8) :
    Spells (lampBody draw (ns.map fun n => (n, g n)))
      (stated (BitVec.ofNat 8 ns.length :: ns.flatMap fun n =>
        [BitVec.ofNat 8 n.val,
          BitVec.ofNat 8 (([.off, .on, .dim, .flashCall, .flashBusy, .wink] : List LampState).idxOf (g n))]) ++
        unstated (27 - 2 * ns.length)) := by
  have hpairs : ((ns.map fun n => (n, g n)).flatMap fun y => [BitVec.ofNat 8 y.1.val, BitVec.ofNat 8 y.2.number]) =
      ns.flatMap fun n => [BitVec.ofNat 8 n.val,
        BitVec.ofNat 8 (([.off, .on, .dim, .flashCall, .flashBusy, .wink] : List LampState).idxOf (g n))] := by
    rw [List.flatMap_map]
    exact List.flatMap_congr fun n _ => by rw [LampState.number_eq]
  unfold lampBody
  rw [List.length_map, hpairs]
  refine sealBody_spells _ _ ?_
  rw [List.length_append, stated_length, unstated_length, List.length_cons, flatMap_length (n := 2) fun _ _ => rfl]
  omega

theorem drop_min_length {α : Type} (l : List α) (n : Nat) : l.drop (min n l.length) = l.drop n := by
  rcases Nat.le_total n l.length with h | h
  · rw [Nat.min_eq_left h]
  · rw [Nat.min_eq_right h, List.drop_eq_nil_of_le h, List.drop_length]

/-- R26: what a lane holds, in which order, and what is left waiting. -/
theorem lane_filled (x : PortId) (sent : Count) (s : State) :
    let host := s.straps.mgmt == x && ((s.port x).state == .up || (s.port x).state == .holdover)
    let probes := placeProbes x sent 8 s
    let lamps := placeLamps x (min 2 (8 - probes.1.length)) probes.2
    let room := if host then 8 - (probes.1 ++ lamps.1).length else 0
    let replies := (s.replies.take room).map fun r => [0x02, s.straps.node.setWidth 8, r.tag, 28] ++ r.body
    let notices := placeNotices (room - replies.length) { lamps.2 with replies := s.replies.drop room }
    let more := placeLamps x (8 - (probes.1 ++ lamps.1 ++ replies ++ notices.1).length) notices.2
    let cells := probes.1 ++ lamps.1 ++ replies ++ notices.1 ++ more.1
    let t := more.2
    fillLane x sent s = (cells, t) ∧ cells.length ≤ 8 ∧ lamps.1.length ≤ 2 ∧
      probes.1.length = min 8 (s.probeQueue x).length ∧ t.probeQueue x = (s.probeQueue x).drop probes.1.length ∧
      (∀ y, y ≠ x → t.probeQueue y = s.probeQueue y) ∧
      (∀ c ∈ probes.1, byteAt c 0 = 0x20) ∧ (∀ c ∈ lamps.1 ++ more.1, byteAt c 0 = 0x18 ∨ byteAt c 0 = 0x19) ∧
      (host = false → replies = [] ∧ notices.1 = [] ∧ t.replies = s.replies) ∧
      (host = true →
        replies.length = min (8 - (probes.1 ++ lamps.1).length) s.replies.length ∧
        t.replies = s.replies.drop replies.length ∧
        (∀ c ∈ notices.1, byteAt c 0 = 0x03 ∧ byteAt c 1 = s.straps.node.setWidth 8) ∧
        (notices.1 ≠ [] → t.replies = [])) ∧
      (more.1 ≠ [] → host = true → t.replies = [] ∧ t.notices = []) ∧
      (cells.length < 8 →
        t.probeQueue x = [] ∧ t.lampCandidates x = [] ∧ (host = true → t.replies = [] ∧ t.notices = [])) := by
  intro host probes lamps room replies notices more cells t
  let u : State := { lamps.2 with replies := s.replies.drop room }
  have hl : Touches lampFields probes.2 lamps.2 := placeLamps_touches x _ _
  have hn : Touches [.notices, .draws] u notices.2 := placeNotices_touches _ u
  have hm : Touches lampFields notices.2 t := placeLamps_touches x _ _
  have hp : Touches (.probeQueues :: circuitFields) s probes.2 := placeProbes_touches x sent 8 s
  obtain ⟨hp1, hp2, hp3, hp4⟩ : probes.1.length = min 8 (s.probeQueue x).length ∧
      probes.2.probeQueue x = (s.probeQueue x).drop 8 ∧ (∀ y, y ≠ x → probes.2.probeQueue y = s.probeQueue y) ∧
      ∀ c ∈ probes.1, byteAt c 0 = 0x20 := placeProbes_queue x sent 8 s
  obtain ⟨hl1, -⟩ : lamps.1.length ≤ min 2 (8 - probes.1.length) ∧ _ := placeLamps_length x _ probes.2
  obtain ⟨hn1, hn2, hn3⟩ : notices.1.length = min (room - replies.length) u.notices.length ∧
      notices.2.notices = u.notices.drop (room - replies.length) ∧
      ∀ c ∈ notices.1, byteAt c 0 = 0x03 ∧ byteAt c 1 = u.straps.node.setWidth 8 := placeNotices_queue _ u
  obtain ⟨hm1, hm2⟩ : more.1.length ≤ 8 - (probes.1 ++ lamps.1 ++ replies ++ notices.1).length ∧
      (more.1.length < 8 - (probes.1 ++ lamps.1 ++ replies ++ notices.1).length → t.lampCandidates x = []) :=
    placeLamps_length x _ notices.2
  have hr1 : replies.length = min room s.replies.length := by
    show ((s.replies.take room).map _).length = _
    rw [List.length_map, List.length_take]
  have hqueue : ∀ y, t.probeQueue y = probes.2.probeQueue y := fun y =>
    congrArg (tget · y) (hm.probeQueues.trans (hn.probeQueues.trans hl.probeQueues))
  have htr : t.replies = s.replies.drop room := hm.replies.trans hn.replies
  have htn : t.notices = u.notices.drop (room - replies.length) := hm.notices.trans hn2
  have hstraps : u.straps = s.straps := hl.straps.trans hp.straps
  simp only [List.length_append] at hm1 hm2
  have hcells : cells.length = probes.1.length + lamps.1.length + replies.length + notices.1.length + more.1.length := by
    simp only [cells, List.length_append]
  have hroom : room ≤ 8 - (probes.1.length + lamps.1.length) := by
    show (if host = true then 8 - (probes.1 ++ lamps.1).length else 0) ≤ _
    split
    · rw [List.length_append]
    · exact Nat.zero_le _
  have hhost : host = true → room = 8 - (probes.1.length + lamps.1.length) := fun h =>
    (if_pos h).trans (by rw [List.length_append])
  -- a place that stays free is one that no reply, and no notice, could have taken
  have hfree : host = true → probes.1.length + lamps.1.length + replies.length + notices.1.length < 8 →
      t.replies = [] ∧ t.notices = [] := fun h hlt => by
    have hroom8 := hhost h
    exact ⟨htr.trans (List.drop_eq_nil_of_le (by omega)), htn.trans (List.drop_eq_nil_of_le (by omega))⟩
  refine ⟨fillLane_eq x sent s, by omega, by omega, hp1, ?_, fun y hy => (hqueue y).trans (hp3 y hy), hp4,
    fun c hc => (List.mem_append.1 hc).elim placeLamps_kind placeLamps_kind, fun h => ?_,
    fun h => ⟨?_, ?_, fun c hc => ?_, fun hne => ?_⟩, fun hne h => hfree h ?_, fun hlt => ⟨?_, hm2 ?_, fun h => hfree h ?_⟩⟩
  · rw [hqueue, hp2, hp1, drop_min_length]
  · have hroom0 : room = 0 := if_neg (ne_true_of_eq_false h)
    refine ⟨List.eq_nil_of_length_eq_zero (by omega), List.eq_nil_of_length_eq_zero (by omega), ?_⟩
    rw [htr, hroom0, List.drop_zero]
  · rw [hr1, hhost h, List.length_append]
  · rw [htr, hr1, drop_min_length]
  · rw [← hstraps]
    exact hn3 c hc
  · have hpos := List.length_pos_of_ne_nil hne
    exact htr.trans (List.drop_eq_nil_of_le (by omega))
  · have hpos := List.length_pos_of_ne_nil hne
    omega
  · rw [hqueue, hp2]
    exact List.drop_eq_nil_of_le (by omega)
  · omega
  · omega

/-- Settles O55. -/
theorem lampCellsServe : Obligations.LampCellsServe := by
  refine ⟨fun x s => ?_, fun x sent s => ?_, fun x sent room s => ?_, fun x sent c rest room s hq => ?_,
    fun room n rest s hn => ?_⟩
  · intro candidate above next
    refine ⟨fun hno => lampCell_none.2 (List.eq_nil_iff_forall_not_mem.2 fun p hp => hno p (mem_lampCandidates.1 hp)),
      fun p hp => ?_⟩
    intro header
    have hnext : s.nextLampPanel x = some p := nextLampPanel_of_least hp.1 hp.2
    have hpos : ∀ y, (s.setLampPosition x (some p)).lampPosition y = if y = x then some p else s.lampPosition y :=
      State.lampPosition_setLampPosition s x (some p)
    cases hc : (s.panel p).cadencePending with
    | true =>
      have hcell := lampCell_cadence hnext hc
      refine ⟨_, _, hcell, (hpos x).trans (if_pos rfl), fun y hy => (hpos y).trans (if_neg hy),
        fun q hq => (State.panel_setPanel (s.setLampPosition x (some p)) p _ q).trans (if_neg hq),
        lampCell_touches x s _ _ hcell, fun _ => ⟨⟨_, rfl, ?_⟩, State.panel_setPanel_same _ _ _, rfl⟩, nofun⟩
      have hbytes : (((allOf 8).take 6).flatMap fun c => cadenceBytes (s.cadence c)) =
          ([0, 1, 2, 3, 4, 5] : List CadenceId).flatMap fun c =>
            [BitVec.ofNat 8 ((s.cadence c).period / 10), BitVec.ofNat 8 ((s.cadence c).bright / 10),
              BitVec.ofNat 8 ((s.cadence c).dim / 10),
              BitVec.ofNat 8 (16 * (s.cadence c).brightLevel + (s.cadence c).dimLevel)] := by
        have hsix : (allOf 8).take 6 = [0, 1, 2, 3, 4, 5] := by decide
        rw [hsix]
        refine List.flatMap_congr fun c _ => ?_
        rw [cadenceBytes, Nat.mul_comm]
      unfold State.cadenceBody
      rw [hbytes]
      exact sealBody_spells _ _ (by simp)
    | false =>
      have hcell := lampCell_lamps hnext hc
      obtain ⟨h1, h2, h3, h4, h5⟩ := carryLamps (p := p) (fun n => s.deriveLamp (keyIndex p n))
        (lampKeys (s.panel p).lampPending) (s.setLampPosition x (some p))
      have htouch := lampCell_touches x s _ _ hcell
      have hfold : Touches [.panels, .keys] (s.setLampPosition x (some p))
          ((s.lampsCarried p).foldl (carryLamp p) (s.setLampPosition x (some p))) :=
        Touches.foldl (fun t y => carryLamp_touches p t y) _ _
      have hposition : ∀ y, (((s.lampsCarried p).foldl (carryLamp p) (s.setLampPosition x (some p))).drawn).lampPosition y =
          if y = x then some p else s.lampPosition y := fun y =>
        (congrArg (tget · y) hfold.lampPositions).trans (hpos y)
      refine ⟨_, _, hcell, (hposition x).trans (if_pos rfl), fun y hy => (hposition y).trans (if_neg hy), h3, htouch,
        nofun, fun _ => ⟨⟨_, rfl, ?_⟩, h1, h2, h4, h5⟩⟩
      have hlen := lampKeys_length (s.panel p).lampPending
      refine (lampBody_spells s.draws (lampKeys (s.panel p).lampPending) _ hlen)
  · exact lane_filled x sent s
  · exact ⟨placeProbes_stops, placeLamps_stops, placeNotices_stops, fun cell t h => placeLamps_succ h room⟩
  · exact ⟨_, sealBody_spells _ _ (by simp), placeProbes_succ hq sent room⟩
  · exact ⟨_, sealBody_spells _ _ (by simp), placeNotices_succ hn room⟩

end Sys2Proof.Machine
end

section
/-! PROOF. The assembly of the ports at a boundary: what each destination's mix reads, the frames sent, and what of a
circuit the departing probes move (R20 to R22, R94, R163). -/

namespace Sys2Proof.Machine

/-! ## What the probes that depart move -/

/-- Circuit record q is r but for what a departing probe moves. -/
def ProbesMoved (r q : Circuit) : Prop :=
  q = { r with tagGenerator := q.tagGenerator, outstanding := q.outstanding, lostInARow := q.lostInARow }

theorem ProbesMoved.refl (r : Circuit) : ProbesMoved r r := rfl

theorem ProbesMoved.of_eq {r q : Circuit} (h : q = r) : ProbesMoved r q := h ▸ .refl q

theorem ProbesMoved.trans {r q p : Circuit} (h : ProbesMoved r q) (k : ProbesMoved q p) : ProbesMoved r p := by
  unfold ProbesMoved at *
  rw [k, h]

/-- What stays of the circuits while a lane is filled, and of the reporters' stations. -/
structure LaneKept (s t : State) : Prop where
  circuits : ∀ c, ProbesMoved (s.circuit c) (t.circuit c)
  stations : t.stations = s.stations

theorem LaneKept.refl (s : State) : LaneKept s s := ⟨fun _ => .refl _, rfl⟩

theorem LaneKept.trans {s t u : State} (h : LaneKept s t) (k : LaneKept t u) : LaneKept s u :=
  ⟨fun c => (h.circuits c).trans (k.circuits c), k.stations.trans h.stations⟩

theorem LaneKept.of_touches {l : List Fld} {s t : State} (h : Touches l s t) (hc : .circuits ∉ l) (hst : .stations ∉ l) :
    LaneKept s t :=
  ⟨fun c => by rw [show t.circuit c = s.circuit c from congrArg (tget · c) (h.circuits hc)]; exact .refl _,
    h.stations hst⟩

theorem departProbe_kept (c : CircuitId) (sent : Count) (s : State) : LaneKept s (departProbe c sent s) := by
  refine ⟨fun q => ?_, (departProbe_touches c sent s).stations⟩
  rcases Nat.lt_or_ge (s.circuit c).outstanding.length 4 with h | h
  · rw [departProbe_open h, State.circuit_setCircuit]
    split
    · next hq => subst hq; rfl
    · rfl
  · rw [departProbe_full h, State.circuit_setCircuit]
    split
    · next hq => subst hq; rfl
    · next hq => rw [declareLost_circuit, if_neg hq]; rfl

theorem placeProbes_kept (x : PortId) (sent : Count) (room : Nat) (s : State) :
    LaneKept s (placeProbes x sent room s).2 := by
  induction room generalizing s with
  | zero => exact .refl _
  | succ room ih =>
    cases hq : s.probeQueue x with
    | nil => rw [placeProbes_stops (.inr hq)]; exact .refl _
    | cons c rest =>
      rw [placeProbes_succ hq]
      refine .trans ?_ (ih _)
      refine .trans (.of_touches (setProbeQueue_touches s x rest) (by decide) (by decide)) ?_
      exact (departProbe_kept c sent _).trans (.of_touches (drawn_touches _) (by decide) (by decide))

theorem placeLamps_kept (x : PortId) (room : Nat) (s : State) : LaneKept s (placeLamps x room s).2 :=
  .of_touches (placeLamps_touches x room s) (by decide) (by decide)

theorem placeHost_kept (host : Bool) (place : Nat → State → List (List Byte) × State) (room : Nat) (s : State)
    (h : LaneKept s (place room s).2) : LaneKept s (if host then place room s else ([], s)).2 := by
  cases host
  · exact .refl _
  · exact h

theorem fillLane_kept (x : PortId) (sent : Count) (s : State) : LaneKept s (fillLane x sent s).2 := by
  unfold fillLane
  refine .trans ?_ (placeLamps_kept x _ _)
  refine .trans ?_ (placeHost_kept _ placeNotices _ _ (.of_touches (placeNotices_touches _ _) (by decide) (by decide)))
  refine .trans ?_ (placeHost_kept _ placeReplies _ _ (.of_touches (placeReplies_touches _ _) (by decide) (by decide)))
  exact .trans (placeProbes_kept x sent _ s) (placeLamps_kept x _ _)

/-! ## One port's frame -/

theorem sendFrame_touches_lane (x : PortId) (s : State) :
    Touches [.ports, .sent] (fillLane x s.timing.sample s).2 (sendFrame x s) := by
  unfold sendFrame
  intro f hf
  cases f <;> simp_all [Fld.same]

theorem sendFrame_port (x : PortId) (s : State) (y : PortId) :
    (sendFrame x s).port y = if y = x then { s.port x with outSeq := (s.port x).outSeq + 1 } else s.port y := by
  have hp : ∀ y, (fillLane x s.timing.sample s).2.port y = s.port y := fun y =>
    congrArg (tget · y) (fillLane_touches x s.timing.sample s).ports
  have h : (sendFrame x s).port y =
      ((fillLane x s.timing.sample s).2.setPort x
        { (fillLane x s.timing.sample s).2.port x with
            outSeq := ((fillLane x s.timing.sample s).2.port x).outSeq + 1 }).port y := rfl
  rw [h, State.port_setPort, hp, hp]

theorem sendFrame_sent (x : PortId) (s : State) (y : PortId) :
    tget (sendFrame x s).sent y =
      if y = x then
        some (frameBytes (s.port x).outSeq s.straps.node (s.port x).width
          (((portDests x).take (s.slotCount x)).map fun d => (s.dest d).previousOutput)
          (fillLane x s.timing.sample s).1)
      else tget s.sent y := by
  have ht := fillLane_touches x s.timing.sample s
  have hp : (fillLane x s.timing.sample s).2.port x = s.port x := congrArg (tget · x) ht.ports
  have hd : ∀ d, (fillLane x s.timing.sample s).2.dest d = s.dest d := fun d => congrArg (tget · d) ht.dests
  have hslots : (fillLane x s.timing.sample s).2.slotCount x = s.slotCount x := by simp only [State.slotCount, hd]
  have hstraps : (fillLane x s.timing.sample s).2.straps = s.straps := ht.straps
  have hsent : (fillLane x s.timing.sample s).2.sent = s.sent := ht.sent
  unfold sendFrame
  dsimp only
  rw [tget_tset, hp, hslots, hstraps, hsent]
  simp only [hd]

/-! ## What a destination's mix reads -/

/-- What the assembly of destination d reads of t is what it reads of s. -/
structure MixAlike (d : DestId) (s t : State) : Prop where
  entries : t.entriesOf d = s.entriesOf d
  sources : t.sources = s.sources
  dest : t.dest d = s.dest d
  arbiters : t.arbiters = s.arbiters
  buffers : ∀ x, (t.port x).buffer = (s.port x).buffer
  taps : ∀ x, (t.tap x).enabled = (s.tap x).enabled ∧ (t.tap x).side = (s.tap x).side ∧
    (t.tap x).monitor = (s.tap x).monitor
  feeds : ∀ x, (s.tap x).side = .destination → (s.tap x).monitor = d → t.tap x = s.tap x
  circuits : ∀ c, (t.circuit c).state = (s.circuit c).state ∧ (t.circuit c).degradeCode = (s.circuit c).degradeCode
  period : t.timing.period = s.timing.period
  position : t.timing.position = s.timing.position

theorem MixAlike.refl (d : DestId) (s : State) : MixAlike d s s :=
  ⟨rfl, rfl, rfl, rfl, fun _ => rfl, fun _ => ⟨rfl, rfl, rfl⟩, fun _ _ _ => rfl, fun _ => ⟨rfl, rfl⟩, rfl, rfl⟩

theorem MixAlike.trans {d : DestId} {s t u : State} (h : MixAlike d s t) (k : MixAlike d t u) : MixAlike d s u where
  entries := k.entries.trans h.entries
  sources := k.sources.trans h.sources
  dest := k.dest.trans h.dest
  arbiters := k.arbiters.trans h.arbiters
  buffers x := (k.buffers x).trans (h.buffers x)
  taps x :=
    have ⟨a, b, c⟩ := h.taps x
    have ⟨a', b', c'⟩ := k.taps x
    ⟨a'.trans a, b'.trans b, c'.trans c⟩
  feeds x hs hm :=
    have ⟨_, b, c⟩ := h.taps x
    (k.feeds x (b.trans hs) (c.trans hm)).trans (h.feeds x hs hm)
  circuits c := ⟨(k.circuits c).1.trans (h.circuits c).1, (k.circuits c).2.trans (h.circuits c).2⟩
  period := k.period.trans h.period
  position := k.position.trans h.position

/-- A change of none of the fields that a mix reads, but for what a lane moves of the circuits. -/
theorem MixAlike.of_touches {l : List Fld} {d : DestId} {s t : State} (h : Touches l s t)
    (hl : [Fld.entries, .sources, .dests, .arbiters, .ports, .taps, .clock].all (fun f => !l.contains f) = true)
    (hc : ∀ c, ProbesMoved (s.circuit c) (t.circuit c)) : MixAlike d s t := by
  have hn : ∀ f ∈ [Fld.entries, .sources, .dests, .arbiters, .ports, .taps, .clock], f ∉ l := fun f hf hm => by
    have := List.all_eq_true.1 hl f hf
    rw [List.contains_iff_mem.2 hm] at this
    cases this
  have htaps : t.taps = s.taps := h .taps (hn _ (by decide))
  have htap : ∀ x, t.tap x = s.tap x := fun x => congrArg (tget · x) htaps
  have hclock := h .clock (hn _ (by decide))
  exact {
    entries := State.entriesOf_congr (h.entries (hn _ (by decide))) d
    sources := h.sources (hn _ (by decide))
    dest := congrArg (tget · d) (h.dests (hn _ (by decide)))
    arbiters := h.arbiters (hn _ (by decide))
    buffers := fun x => congrArg (fun v => (tget v x).buffer) (h.ports (hn _ (by decide)))
    taps := fun x => by rw [htap]; exact ⟨rfl, rfl, rfl⟩
    feeds := fun x _ _ => htap x
    circuits := fun c => by rw [hc c]; exact ⟨rfl, rfl⟩
    period := hclock.1
    position := hclock.2.2.2 }

theorem assembleDest_mixAlike {d m : DestId} (h : d ≠ m) (before s : State) :
    MixAlike d s (assembleDest before m s) := by
  have ht : Touches mixFields s (assembleDest before m s) := assembleDest_touches before m s
  have hclock := ht .clock (by decide)
  exact {
    entries := (entriesOf_assembleDest before m s d).trans (if_neg h)
    sources := ht.sources
    dest := (assembleDest_dest before m s d).trans (if_neg h)
    arbiters := ht.arbiters
    buffers := fun x => congrArg (fun v => (tget v x).buffer) ht.ports
    taps := fun x => by
      rw [assembleDest_tap]
      split <;> exact ⟨rfl, rfl, rfl⟩
    feeds := fun x _ hm => by
      rw [assembleDest_tap, if_neg fun hc => h (hm.symm.trans hc.2)]
    circuits := fun c => by
      rw [show (assembleDest before m s).circuit c = s.circuit c from congrArg (tget · c) ht.circuits]
      exact ⟨rfl, rfl⟩
    period := hclock.1
    position := hclock.2.2.2 }

theorem MixAlike.destZ {d : DestId} {s t : State} (h : MixAlike d s t) (before : State) :
    t.destZ before d = s.destZ before d := by
  have hdegrade : t.degradeCode d = s.degradeCode d := by
    unfold State.degradeCode
    rw [h.dest]
    cases (s.dest d).circuit with
    | none => rfl
    | some c => simp only [(h.circuits c).1, (h.circuits c).2]
  have harb : t.arbiter d = s.arbiter d := congrArg (tget · d) h.arbiters
  have hdim : t.dimCode d = s.dimCode d := by
    unfold State.dimCode
    rw [h.dest, harb, hdegrade]
  have hsource : ∀ n, t.source n = s.source n := fun n => congrArg (tget · n) h.sources
  have htarget : ∀ e, t.entryTarget d e = s.entryTarget d e := fun e => by
    unfold State.entryTarget
    rw [h.dest, hsource, hdim]
  have hsamples : ∀ n, t.sourceSamples n = s.sourceSamples n := fun n => by
    unfold State.sourceSamples
    rw [h.buffers, hsource, h.period, h.position]
  have hfeeding : t.feedingTaps d = s.feedingTaps d := by
    unfold State.feedingTaps
    refine List.filter_congr fun x _ => ?_
    obtain ⟨he, hs, hm⟩ := h.taps x
    rw [he, hs, hm]
  have hfeed : ∀ x ∈ s.feedingTaps d, t.tap x = s.tap x := fun x hx => by
    have hx := (List.mem_filter.1 hx).2
    simp only [Bool.and_eq_true, beq_iff_eq] at hx
    exact h.feeds x hx.1.2 hx.2
  unfold State.destZ State.contributions
  rw [h.entries, h.dest, hfeeding]
  simp only [htarget, hsamples]
  rw [List.flatMap_congr fun x hx => by rw [hfeed x hx]]

theorem MixAlike.assembled {d : DestId} {s t : State} (h : MixAlike d s t) (before : State) :
    t.assembled before d = s.assembled before d := by
  unfold State.assembled
  rw [h.dest, h.destZ]

/-! ## The destinations of one port, then of all -/

/-- The destinations l mixed, one after another. -/
def mixAll (before : State) (l : List DestId) (s : State) : State := l.foldl (fun t d => assembleDest before d t) s

theorem mixAll_touches (before : State) (l : List DestId) (s : State) : Touches mixFields s (mixAll before l s) :=
  Touches.foldl (fun t d => assembleDest_touches before d t) l s

theorem mixAll_mixAlike {d : DestId} {l : List DestId} (h : d ∉ l) (before s : State) :
    MixAlike d s (mixAll before l s) := by
  induction l generalizing s with
  | nil => exact .refl d s
  | cons m l ih =>
    exact (assembleDest_mixAlike (fun hd => h (List.mem_cons.2 (.inl hd))) before s).trans
      (ih (fun hd => h (List.mem_cons_of_mem _ hd)) _)

theorem mixAll_dest {d : DestId} {l : List DestId} (hn : l.Nodup) (h : d ∈ l) (before s : State) :
    (mixAll before l s).dest d = s.assembled before d := by
  induction l generalizing s with
  | nil => cases h
  | cons m l ih =>
    obtain ⟨hm, hn⟩ := List.nodup_cons.1 hn
    rcases List.mem_cons.1 h with rfl | hl
    · exact (mixAll_mixAlike hm before _).dest.trans ((assembleDest_dest before d s d).trans (if_pos rfl))
    · have hne : d ≠ m := fun hd => hm (Eq.subst (motive := (· ∈ l)) hd hl)
      exact (ih hn hl _).trans ((assembleDest_mixAlike hne before s).assembled before)

theorem mem_portDests {x : PortId} {d : DestId} : d ∈ portDests x ↔ portOf d = x := by
  unfold portDests portOf slotNumber
  constructor
  · intro h
    obtain ⟨i, -, rfl⟩ := List.mem_map.1 h
    exact Fin.ext (by simp; omega)
  · rintro rfl
    exact List.mem_map.2 ⟨⟨d.val % 64, by omega⟩, mem_allOf _, Fin.ext (by simp; omega)⟩

theorem portDests_nodup (x : PortId) : (portDests x).Nodup :=
  (allOf_nodup 64).map fun i j h => Fin.ext (by
    have := congrArg Fin.val h
    simp only [slotNumber] at this
    omega)

/-- The state in which port x sends: its destinations mixed and the lamps derived. -/
def mixedPort (before s : State) (x : PortId) : State := flushLamps (mixAll before (portDests x) s)

/-- s with no frame sent at port x. -/
def State.unsent (s : State) (x : PortId) : State := { s with sent := tset s.sent x none }

theorem unsent_touches (s : State) (x : PortId) : Touches [.sent] s (s.unsent x) := by
  intro f hf
  cases f <;> simp_all [Fld.same, State.unsent]

theorem assemblePort_eq (before s : State) (x : PortId) :
    assemblePort before s x =
      if (s.port x).state = .disabled then
        (mixedPort before s x).unsent x
      else sendFrame x (mixedPort before s x) := by
  have hp : (mixedPort before s x).port x = s.port x := congrArg (tget · x)
    ((flushLamps_touches _).ports.trans (mixAll_touches before (portDests x) s).ports)
  have h : assemblePort before s x =
      if ((mixedPort before s x).port x).state = .disabled then
        (mixedPort before s x).unsent x
      else sendFrame x (mixedPort before s x) := rfl
  rw [h, hp]

theorem mixedPort_touches (before s : State) (x : PortId) :
    Touches (.panels :: mixFields) s (mixedPort before s x) :=
  (mixAll_touches before (portDests x) s).up.trans (flushLamps_touches _).up

theorem mixedPort_mixAlike {d : DestId} {x : PortId} (h : portOf d ≠ x) (before s : State) :
    MixAlike d s (mixedPort before s x) :=
  have hmix : MixAlike d s (mixAll before (portDests x) s) := mixAll_mixAlike (fun hd => h (mem_portDests.1 hd)) before s
  have hlamps : MixAlike d (mixAll before (portDests x) s) (mixedPort before s x) :=
    .of_touches (flushLamps_touches (mixAll before (portDests x) s)) (by decide) fun c =>
      .of_eq (congrArg (tget · c) (flushLamps_touches (mixAll before (portDests x) s)).circuits)
  hmix.trans hlamps

theorem mixedPort_dest (before s : State) (d : DestId) :
    (mixedPort before s (portOf d)).dest d = s.assembled before d :=
  (congrArg (tget · d) (flushLamps_touches _).dests).trans
    (mixAll_dest (portDests_nodup _) (mem_portDests.2 rfl) before s)

theorem sendFrame_mixAlike (d : DestId) (x : PortId) (s : State) : MixAlike d s (sendFrame x s) := by
  have hlane : MixAlike d s (fillLane x s.timing.sample s).2 :=
    .of_touches (fillLane_touches x s.timing.sample s) (by decide) (fillLane_kept x s.timing.sample s).circuits
  have ht := sendFrame_touches_lane x s
  have hclock := ht .clock (by decide)
  have htap : ∀ y, (sendFrame x s).tap y = (fillLane x s.timing.sample s).2.tap y := fun y =>
    congrArg (tget · y) (ht .taps (by decide))
  refine hlane.trans {
    entries := State.entriesOf_congr ht.entries d
    sources := ht.sources
    dest := congrArg (tget · d) ht.dests
    arbiters := ht.arbiters
    buffers := fun y => ?_
    taps := fun y => by rw [htap]; exact ⟨rfl, rfl, rfl⟩
    feeds := fun y _ _ => htap y
    circuits := fun c => by
      rw [show (sendFrame x s).circuit c = (fillLane x s.timing.sample s).2.circuit c from
        congrArg (tget · c) ht.circuits]
      exact ⟨rfl, rfl⟩
    period := hclock.1
    position := hclock.2.2.2 }
  rw [sendFrame_port, hlane.buffers]
  split
  · next hy => subst hy; rfl
  · rfl

theorem assemblePort_mixAlike {d : DestId} {x : PortId} (h : portOf d ≠ x) (before s : State) :
    MixAlike d s (assemblePort before s x) := by
  rw [assemblePort_eq]
  refine (mixedPort_mixAlike h before s).trans ?_
  split
  · have ht := unsent_touches (mixedPort before s x) x
    exact .of_touches ht (by decide) fun c => .of_eq (congrArg (tget · c) ht.circuits)
  · exact sendFrame_mixAlike d x (mixedPort before s x)

theorem assemblePort_dest (before s : State) (d : DestId) :
    (assemblePort before s (portOf d)).dest d = s.assembled before d := by
  rw [assemblePort_eq, ← mixedPort_dest before s d]
  split
  · exact congrArg (tget · d) (unsent_touches (mixedPort before s (portOf d)) (portOf d)).dests
  · exact (sendFrame_mixAlike d (portOf d) (mixedPort before s (portOf d))).dest

theorem assemblePort_port (before s : State) (x y : PortId) :
    (assemblePort before s x).port y =
      if y = x ∧ (s.port x).state ≠ .disabled then { s.port x with outSeq := (s.port x).outSeq + 1 } else s.port y := by
  have hp : ∀ y, (mixedPort before s x).port y = s.port y := fun y =>
    congrArg (tget · y) (mixedPort_touches before s x).ports
  rw [assemblePort_eq]
  by_cases hd : (s.port x).state = .disabled
  · rw [if_pos hd, if_neg fun h => h.2 hd]
    exact (congrArg (tget · y) (unsent_touches (mixedPort before s x) x).ports).trans (hp y)
  · rw [if_neg hd, sendFrame_port, hp, hp]
    by_cases hy : y = x
    · rw [if_pos hy, if_pos ⟨hy, hd⟩]
    · rw [if_neg hy, if_neg fun h => hy h.1]

theorem assemblePort_sent_ne {x y : PortId} (h : y ≠ x) (before s : State) :
    tget (assemblePort before s x).sent y = tget s.sent y := by
  have hs : (mixedPort before s x).sent = s.sent := (mixedPort_touches before s x).sent
  rw [assemblePort_eq, ← hs]
  split
  · exact tget_tset_ne (mixedPort before s x).sent x y none h
  · exact (sendFrame_sent x (mixedPort before s x) y).trans (if_neg h)

theorem assemblePort_kept (before s : State) (x : PortId) : LaneKept s (assemblePort before s x) := by
  rw [assemblePort_eq]
  refine (LaneKept.of_touches (mixedPort_touches before s x) (by decide) (by decide)).trans ?_
  split
  · exact .of_touches (unsent_touches (mixedPort before s x) x) (by decide) (by decide)
  · exact (fillLane_kept x _ (mixedPort before s x)).trans
      (.of_touches (sendFrame_touches_lane x (mixedPort before s x)) (by decide) (by decide))

end Sys2Proof.Machine
end

section
/-! PROOF. A period boundary in its stages: what the assembly of all ports leaves in each destination and sends from each
port, and what the closing leaves of each port (R9 to R12, R15, R20 to R22). -/

namespace Sys2Proof.Machine

/-! ## What the closing of the period leaves of a port -/

/-- What the loss of a port touches once the port is emptied. -/
abbrev afterLossFields : List Fld :=
  [.orders, .replies, .notices, .block, .events, .draws, .keys, .panels, .arbiters, .parties, .entries, .nextSerial,
    .lampDirty, .circuits, .probeQueues, .reference]

theorem losePort_touches_set (x : PortId) (st : PortState) (s : State) :
    Touches afterLossFields (s.setPort x ((s.port x).emptied st)) (losePort x st s) := by
  unfold losePort
  dsimp only
  refine Touches.trans ?_ (referenceGone_touches _ _).up
  refine Touches.trans ?_ (fieldPortLost_touches _ _).up
  refine Touches.trans ?_ (keyPortLost_touches _ _).up
  refine Touches.trans ?_ (raise_touches _ _ _).up
  split
  · exact (hostLost_touches _).up
  · exact .refl _ _

theorem losePort_port (x : PortId) (st : PortState) (s : State) (y : PortId) :
    (losePort x st s).port y = if y = x then (s.port x).emptied st else s.port y :=
  (congrArg (tget · y) (losePort_touches_set x st s).ports).trans (State.port_setPort s x _ y)

/-- What a return from HOLDOVER touches once the port is UP. -/
abbrev afterRiseFields : List Fld := [.events, .notices, .draws, .circuits, .reference]

/-- The link of port x returns: R4 and R10 raise PORT_UP, R173 restarts its circuits, R18 marks the reference. -/
def linkBack (x : PortId) (s : State) : State := referenceBack (.port x) (fieldPortUp x (raise .portUp (some x.val) s))

theorem linkBack_touches (x : PortId) (s : State) : Touches afterRiseFields s (linkBack x s) :=
  ((raise_touches _ _ _).up.trans (fieldPortUp_touches _ _).up).trans (referenceBack_touches _ _).up

/-- R10: the record of a port in UP or HOLDOVER, not settling, after its close with or without a frame. -/
def Port.moved (r : Port) (withFrame : Bool) : Port :=
  if withFrame = true then { r with missCount := 0, state := .up }
  else if r.missCount + 1 < 8 then { r with missCount := r.missCount + 1, state := .holdover }
  else r.emptied .down

/-- R9, R10: the record of port x as the closing of the period leaves it. -/
def State.closed (s : State) (x : PortId) : Port :=
  let r := s.port x
  if r.state.carries = false then r
  else if r.settling = true then { r with settling := false }
  else r.moved (s.closesWithFrame x)

theorem closeState_port (x : PortId) (f : Bool) (s : State) (y : PortId) :
    (closeState x f s).port y = if y = x then (s.port x).moved f else s.port y := by
  cases f with
  | true =>
    have hup : closeState x true s =
        if (s.port x).state = .holdover then linkBack x (s.setPort x ((s.port x).moved true))
        else s.setPort x ((s.port x).moved true) := rfl
    rw [hup]
    split
    · exact (congrArg (tget · y) (linkBack_touches x (s.setPort x ((s.port x).moved true))).ports).trans
        (State.port_setPort s x _ y)
    · exact State.port_setPort s x _ y
  | false =>
    have hdown : closeState x false s =
        if (s.port x).missCount + 1 < 8 then
          s.setPort x { s.port x with missCount := (s.port x).missCount + 1, state := .holdover }
        else losePort x .down s := rfl
    rw [hdown]
    unfold Port.moved
    rw [if_neg Bool.false_ne_true]
    split
    · exact State.port_setPort s x _ y
    · exact losePort_port x .down s y

theorem closePort_eq (s : State) (x : PortId) :
    closePort s x =
      let u := reportSources x (s.closesWithFrame x) s
      if (s.port x).state.carries = false then u
      else if (s.port x).settling = true then u.setPort x { s.port x with settling := false }
      else closeState x (s.closesWithFrame x) u := by
  have hp : (reportSources x (s.closesWithFrame x) s).port x = s.port x :=
    congrArg (tget · x) (reportSources_touches x (s.closesWithFrame x) s).ports
  unfold closePort
  dsimp only
  rw [hp]
  cases (s.port x).state.carries <;> rfl

theorem closePort_port (s : State) (x y : PortId) :
    (closePort s x).port y = if y = x then s.closed x else s.port y := by
  have hp : ∀ f y, (reportSources x f s).port y = s.port y := fun f y =>
    congrArg (tget · y) (reportSources_touches x f s).ports
  rw [closePort_eq]
  unfold State.closed
  dsimp only
  by_cases hc : (s.port x).state.carries = false
  · rw [if_pos hc, if_pos hc, hp]
    split
    · next h => rw [h]
    · rfl
  · rw [if_neg hc, if_neg hc]
    by_cases hset : (s.port x).settling = true
    · rw [if_pos hset, if_pos hset, State.port_setPort, hp]
    · rw [if_neg hset, if_neg hset, closeState_port, hp, hp]

theorem closed_outSeq (s : State) (x : PortId) : (s.closed x).outSeq = (s.port x).outSeq := by
  have hm : ∀ (r : Port) f, (r.moved f).outSeq = r.outSeq := fun r f => by
    unfold Port.moved
    split
    · rfl
    · split <;> rfl
  unfold State.closed
  dsimp only
  split
  · rfl
  · split
    · rfl
    · exact hm _ _

theorem closePorts_outSeq (l : List PortId) (s : State) (x : PortId) :
    ((l.foldl closePort s).port x).outSeq = (s.port x).outSeq :=
  foldl_keeps (P := fun t => (t.port x).outSeq = (s.port x).outSeq)
    (fun t y (h : (t.port x).outSeq = _) => by
      rw [closePort_port]
      split
      · next hx => rw [closed_outSeq, ← hx, h]
      · exact h) l s rfl

/-! ## The assembly of several ports -/

/-- The ports l assembled, one after another. -/
def assembleAll (before : State) (l : List PortId) (s : State) : State := l.foldl (assemblePort before) s

theorem assembleAll_cons (before : State) (x : PortId) (l : List PortId) (s : State) :
    assembleAll before (x :: l) s = assembleAll before l (assemblePort before s x) := by
  unfold assembleAll
  rw [List.foldl_cons]

theorem assembleAll_append (before : State) (l m : List PortId) (s : State) :
    assembleAll before (l ++ m) s = assembleAll before m (assembleAll before l s) := List.foldl_append ..

theorem assembleAll_mixAlike {d : DestId} {l : List PortId} (h : portOf d ∉ l) (before s : State) :
    MixAlike d s (assembleAll before l s) := by
  induction l generalizing s with
  | nil => exact .refl d s
  | cons x l ih =>
    rw [assembleAll_cons]
    exact (assemblePort_mixAlike (fun hx => h (List.mem_cons.2 (.inl hx))) before s).trans
      (ih (fun hx => h (List.mem_cons_of_mem _ hx)) _)

theorem assembleAll_dest {d : DestId} {l : List PortId} (hn : l.Nodup) (h : portOf d ∈ l) (before s : State) :
    (assembleAll before l s).dest d = s.assembled before d := by
  induction l generalizing s with
  | nil => cases h
  | cons x l ih =>
    obtain ⟨hx, hn⟩ := List.nodup_cons.1 hn
    rw [assembleAll_cons]
    by_cases hd : portOf d = x
    · subst hd
      exact (assembleAll_mixAlike hx before _).dest.trans (assemblePort_dest before s d)
    · have hl : portOf d ∈ l := (List.mem_cons.1 h).resolve_left hd
      exact (ih hn hl _).trans ((assemblePort_mixAlike hd before s).assembled before)

theorem assembleAll_port {x : PortId} {l : List PortId} (h : x ∉ l) (before s : State) :
    (assembleAll before l s).port x = s.port x := by
  induction l generalizing s with
  | nil => rfl
  | cons y l ih =>
    rw [assembleAll_cons, ih (fun hx => h (List.mem_cons_of_mem _ hx)), assemblePort_port,
      if_neg fun hx => h (List.mem_cons.2 (.inl hx.1))]

theorem assembleAll_sent {x : PortId} {l : List PortId} (h : x ∉ l) (before s : State) :
    tget (assembleAll before l s).sent x = tget s.sent x := by
  induction l generalizing s with
  | nil => rfl
  | cons y l ih =>
    rw [assembleAll_cons, ih (fun hx => h (List.mem_cons_of_mem _ hx)),
      assemblePort_sent_ne (fun hx => h (List.mem_cons.2 (.inl hx)))]

theorem assembleAll_touches (before : State) (l : List PortId) (s : State) :
    Touches assemblyFields s (assembleAll before l s) :=
  Touches.foldl (fun t x => assemblePort_touches before t x) l s

theorem assembleAll_kept (before : State) (l : List PortId) (s : State) : LaneKept s (assembleAll before l s) := by
  induction l generalizing s with
  | nil => exact .refl s
  | cons x l ih =>
    rw [assembleAll_cons]
    exact (assemblePort_kept before s x).trans (ih _)

/-! ## The frame that a port sends -/

/-- The ports before x in ascending order. -/
def portsBelow (x : PortId) : List PortId := (allOf 4).filter fun y => decide (y < x)

theorem ports_split : ∀ x : PortId,
    (allOf 4 = portsBelow x ++ x :: (allOf 4).filter fun y => decide (x < y)) ∧ x ∉ portsBelow x ∧
      x ∉ (allOf 4).filter fun y => decide (x < y) := by decide

/-- The state after all ports are assembled. -/
def State.assembledAll (s : State) : State := assembleAll (atBoundary true s) (allOf 4) (atBoundary true s)

/-- What follows the assembly at a boundary may touch. -/
abbrev afterSendFields : List Fld :=
  [.clock, .reference, .mark, .restart, .ports, .sources, .orders, .replies, .notices, .block, .events, .draws, .keys,
    .panels, .arbiters, .parties, .entries, .nextSerial, .lampDirty, .circuits, .probeQueues]

theorem boundary_after (s : State) : Touches afterSendFields s.assembledAll (boundary s) := by
  unfold boundary
  refine Touches.trans ?_ (restartFalls_touches _).up
  refine Touches.trans ?_ (beginPeriod_touches _).up
  refine Touches.trans ?_ (atBoundary_touches _ _).up
  refine Touches.trans ?_ (flushLamps_touches _).up
  refine Touches.trans ?_ (Touches.foldl (l := afterSendFields) (fun t x => (closePort_touches t x).up) _ _)
  exact (applyReference_touches s.assembledAll).up

/-- The state after all ports have closed the period. -/
def State.closedAll (s : State) : State := (allOf 4).foldl closePort (applyReference s.assembledAll)

theorem boundary_eq (s : State) :
    boundary s = restartFalls (beginPeriod (atBoundary false (flushLamps s.closedAll))) := rfl

/-- What follows the closing of the ports at a boundary may touch. -/
abbrev afterCloseFields : List Fld := [.clock, .mark, .restart, .panels, .lampDirty]

theorem boundary_after_close (s : State) : Touches afterCloseFields s.closedAll (boundary s) := by
  rw [boundary_eq]
  refine Touches.trans ?_ (restartFalls_touches _).up
  refine Touches.trans ?_ (beginPeriod_touches _).up
  exact (flushLamps_touches s.closedAll).up.trans (atBoundary_touches _ _).up

theorem boundary_port (s : State) (x : PortId) : (boundary s).port x = s.closedAll.port x :=
  congrArg (tget · x) (boundary_after_close s).ports

theorem boundary_outSeq (s : State) (x : PortId) : ((boundary s).port x).outSeq = (s.assembledAll.port x).outSeq := by
  rw [boundary_port, State.closedAll, closePorts_outSeq]
  exact congrArg (fun v => (tget v x).outSeq) (applyReference_touches s.assembledAll).ports

theorem assembledAll_dest (s : State) (d : DestId) : s.assembledAll.dest d = s.assembled s d :=
  assembleAll_dest (allOf_nodup 4) (mem_allOf _) (atBoundary true s) (atBoundary true s)

theorem atLane_eq (s : State) (x : PortId) :
    s.atLane x = mixedPort (atBoundary true s) (assembleAll (atBoundary true s) (portsBelow x) (atBoundary true s)) x :=
  rfl

theorem atLane_touches (s : State) (x : PortId) :
    Touches (.mark :: .panels :: assemblyFields) s (s.atLane x) := by
  rw [atLane_eq]
  exact ((atBoundary_touches true s).up.trans (assembleAll_touches _ (portsBelow x) (atBoundary true s)).up).trans
    (mixedPort_touches _ _ x).up

theorem atLane_port (s : State) (x : PortId) : (s.atLane x).port x = s.port x := by
  rw [atLane_eq]
  exact (congrArg (tget · x) (mixedPort_touches _ _ x).ports).trans
    (assembleAll_port (ports_split x).2.1 (atBoundary true s) (atBoundary true s))

theorem atLane_dest_own {s : State} {x : PortId} {d : DestId} (h : d ∈ portDests x) :
    (s.atLane x).dest d = s.assembled s d := by
  have hd := mem_portDests.1 h
  subst hd
  rw [atLane_eq, mixedPort_dest]
  exact (assembleAll_mixAlike (ports_split _).2.1 (atBoundary true s) (atBoundary true s)).assembled (atBoundary true s)

theorem atLane_slotCount (s : State) (x : PortId) : (s.atLane x).slotCount x = s.slotCount x := by
  have he : ∀ i, ((s.atLane x).dest (slotNumber x i)).enabled = (s.dest (slotNumber x i)).enabled := fun i => by
    rw [atLane_dest_own (List.mem_map_of_mem (mem_allOf i))]
    rfl
  unfold State.slotCount
  simp only [he]

/-- R20, R22: from s to t port x has raised its sequence number and sent the frame of its lane's assembly; a DISABLED port
neither. -/
structure PortSent (s t : State) (x : PortId) : Prop where
  outSeq : (t.port x).outSeq = if (s.port x).state = .disabled then (s.port x).outSeq else (s.port x).outSeq + 1
  sent : tget t.sent x = if (s.port x).state = .disabled then none else tget (sendFrame x (s.atLane x)).sent x

/-- The frame of port x is the one built at its lane's assembly, and stands from there on. -/
theorem assembledAll_port (s : State) (x : PortId) : PortSent s s.assembledAll x := by
  obtain ⟨hsplit, hbelow, habove⟩ := ports_split x
  let before := atBoundary true s
  let u := assembleAll before (portsBelow x) before
  let v := assemblePort before u x
  have hu : u.port x = s.port x := assembleAll_port hbelow before before
  have hall : s.assembledAll = assembleAll before ((allOf 4).filter fun y => decide (x < y)) v := by
    unfold State.assembledAll
    exact (congrArg (assembleAll before · before) hsplit).trans (by rw [assembleAll_append, assembleAll_cons])
  rw [hall]
  refine ⟨?_, ?_⟩
  · rw [assembleAll_port habove, assemblePort_port, hu]
    by_cases h : (s.port x).state = .disabled
    · rw [if_pos h, if_neg fun hc => hc.2 h]
    · rw [if_neg h, if_pos ⟨rfl, h⟩]
  · rw [assembleAll_sent habove, show v = _ from assemblePort_eq before u x, hu]
    by_cases h : (s.port x).state = .disabled
    · rw [if_pos h, if_pos h]
      exact tget_tset_same _ _ _
    · rw [if_neg h, if_neg h]
      rfl

/-- Settles O15: each destination is mixed once, at the assembly of its port, and what the mix reads stands until then. -/
theorem boundaryMixesAndSends : Obligations.BoundaryMixesAndSends := by
  intro s ha hplace
  obtain ⟨hp, hs, hpl, hpos⟩ := boundary_clock s
  have hafter := boundary_after s
  have hdest : ∀ d, (boundary s).dest d = s.assembled s d := fun d =>
    (congrArg (tget · d) hafter.dests).trans (assembledAll_dest s d)
  refine ⟨boundary s, event_taken ha (by rw [hplace]; rfl), hp, hs, hpl, hpos, hdest, fun x => ?_⟩
  obtain ⟨hseq, hsent⟩ := assembledAll_port s x
  rw [← boundary_outSeq] at hseq
  rw [show s.assembledAll.sent = (boundary s).sent from hafter.sent.symm] at hsent
  have ht := atLane_touches s x
  have hlen := (lane_filled x s.timing.sample (s.atLane x)).2.1
  have hsample : (s.atLane x).timing.sample = s.timing.sample := ht.sample
  by_cases h : (s.port x).state = .disabled
  · rw [if_pos h] at hseq hsent ⊢
    exact ⟨hsent, hseq⟩
  · rw [if_neg h] at hseq hsent ⊢
    refine ⟨hseq, ?_, ?_⟩
    · rw [(lane_filled x s.timing.sample (s.atLane x)).1]
      exact hlen
    · rw [hsent, sendFrame_sent, if_pos rfl, atLane_port, atLane_slotCount, hsample,
        show (s.atLane x).straps = s.straps from ht.straps]
      exact congrArg (fun slots => some (frameBytes _ _ _ slots _)) (List.map_congr_left fun d hd => by
        rw [atLane_dest_own (List.mem_of_mem_take hd), hdest])

end Sys2Proof.Machine
end

section
/-! PROOF. An IFB arbiter grants, queues, drops, pre-empts and serves its keys (R142 to R150). -/

namespace Sys2Proof.Machine

/-! ## One key written -/

theorem handKey_key (k : KeyId) (s : State) (j : KeyId) : (handKey k s).key j = s.key j := rfl

theorem setStanding_key (k : KeyId) (st : Standing) (s : State) (j : KeyId) :
    (setStanding k st s).key j = if j = k then { s.key k with standing := st } else s.key j :=
  State.key_setKey s k _ j

/-- R114, R148, R149: the record of key k dropped from outside its press. -/
def State.dropped (s : State) (k : KeyId) : Key :=
  { s.key k with
      standing := .outside, latchTimer := none, winkTimer := some (s.timing.sample + 96000)
      state := if (s.key k).down = true then .refusedHeld else .idle }

theorem dropKey_key (k : KeyId) (s : State) (j : KeyId) :
    (dropKey k s).key j = if j = k then s.dropped k else s.key j := by
  have hwink : ∀ j, (startWink k (setStanding k .outside s)).key j =
      if j = k then { s.key k with standing := .outside, winkTimer := some (s.timing.sample + 96000) } else s.key j := by
    intro j
    unfold startWink
    rw [handKey_key, State.key_setKey, setStanding_key, if_pos rfl, setStanding_key]
    split <;> rfl
  unfold dropKey
  dsimp only
  rw [handKey_key, State.key_setKey, hwink, hwink, if_pos rfl]
  split <;> rfl

theorem dropKey_other {k j : KeyId} (h : j ≠ k) (s : State) : (dropKey k s).key j = s.key j :=
  (dropKey_key k s j).trans (if_neg h)

theorem dropKey_keyDropped (k : KeyId) (s : State) : KeyDropped s (dropKey k s) k :=
  (dropKey_key k s k).trans (if_pos rfl)

/-- A key dropped in a state that reads it as s does is dropped as from s. -/
theorem KeyDropped.of_key {s u t : State} {k : KeyId} (h : KeyDropped u t k) (hk : u.key k = s.key k)
    (ht : u.timing = s.timing) : KeyDropped s t k := by
  unfold KeyDropped at *
  rw [h, hk, ht]

theorem KeyDropped.of_after {s u t : State} {k : KeyId} (h : KeyDropped s u k) (ht : t.key k = u.key k) :
    KeyDropped s t k := ht.trans h

/-! ## A grant requested reads only the store -/

theorem State.hasRoom_congr {s t : State} (he : t.entries = s.entries) (htaps : t.taps = s.taps) (d : DestId) (n : Nat) :
    t.hasRoom d n = s.hasRoom d n := by
  have htap : ∀ x, t.tap x = s.tap x := fun x => congrArg (tget · x) htaps
  have hentries : ∀ d, t.entriesOf d = s.entriesOf d := fun d => State.entriesOf_congr he d
  have hc : t.contributionCount d = s.contributionCount d := by
    simp only [State.contributionCount, State.feedingTaps, htap, hentries]
  have hs : t.storeCount = s.storeCount := congrArg (fun v => (v.toList.map List.length).sum) he
  rw [State.hasRoom, State.hasRoom, hc, hs]

theorem arrive_congr {s t : State} (h : Holder) (l : Level) (c : EntryClass) (src : SourceId) (d : DestId)
    (he : t.entries = s.entries) (htaps : t.taps = s.taps) (hn : t.nextSerial = s.nextSerial) :
    (arrive h l c src d t).2 = (arrive h l c src d s).2 ∧
      (arrive h l c src d t).1.entries = (arrive h l c src d s).1.entries := by
  have hentries : ∀ d, t.entriesOf d = s.entriesOf d := fun d => State.entriesOf_congr he d
  unfold arrive
  rw [State.findEntry_congr he, State.hasRoom_congr he htaps]
  cases s.findEntry src d with
  | none =>
    dsimp only
    split
    · refine ⟨rfl, ?_⟩
      unfold createEntry
      change tset t.entries d (t.entriesOf d ++ [newEntry h l c src d t.nextSerial]) = tset s.entries d _
      rw [he, hentries, hn]
    · exact ⟨rfl, he⟩
  | some e =>
    have hmap : (t.mapEntry src d fun e => e.joined h l c).entries = (s.mapEntry src d fun e => e.joined h l c).entries := by
      unfold State.mapEntry State.setEntries
      rw [he, hentries]
    dsimp only
    split
    · exact ⟨rfl, he⟩
    · split
      · exact ⟨rfl, he⟩
      · refine ⟨rfl, ?_⟩
        split <;> exact hmap

theorem depart_congr {s t : State} (h : Holder) (src : SourceId) (d : DestId) (he : t.entries = s.entries) :
    (depart h src d t).entries = (depart h src d s).entries := by
  have hentries : ∀ d, t.entriesOf d = s.entriesOf d := fun d => State.entriesOf_congr he d
  unfold depart
  rw [State.findEntry_congr he]
  cases s.findEntry src d with
  | none => exact he
  | some e =>
    have hmap : (t.mapEntry src d fun e => e.left h).entries = (s.mapEntry src d fun e => e.left h).entries := by
      unfold State.mapEntry State.setEntries
      rw [he, hentries]
    dsimp only
    split
    · split <;> exact hmap
    · exact he

theorem requestGrant_congr {s t : State} {k : KeyId} (src : SourceId) (d : DestId)
    (hk : (t.key k).talkLevel = (s.key k).talkLevel) (he : t.entries = s.entries) (htaps : t.taps = s.taps)
    (hn : t.nextSerial = s.nextSerial) :
    (requestGrant k src d t).2 = (requestGrant k src d s).2 ∧
      (requestGrant k src d t).1.entries = (requestGrant k src d s).1.entries := by
  unfold requestGrant
  rw [hk]
  exact arrive_congr _ _ _ _ _ he htaps hn

theorem arrive_refused_eq {h : Holder} {l : Level} {c : EntryClass} {src : SourceId} {d : DestId} {s : State}
    (hr : (arrive h l c src d s).2 = false) : (arrive h l c src d s).1 = s := by
  unfold arrive at hr ⊢
  cases hf : s.findEntry src d with
  | none =>
    rw [hf] at hr
    dsimp only at hr ⊢
    split
    · next hroom => rw [if_pos hroom] at hr; cases hr
    · rfl
  | some e =>
    rw [hf] at hr
    dsimp only at hr ⊢
    split
    · rfl
    · next hh =>
      rw [if_neg hh] at hr
      split
      · rfl
      · next hc => rw [if_neg hc] at hr; cases hr

theorem requestGrant_refused_eq {k : KeyId} {src : SourceId} {d : DestId} {s : State}
    (hr : (requestGrant k src d s).2 = false) : (requestGrant k src d s).1 = s := arrive_refused_eq hr

theorem State.ownSource_congr {s t : State} (hp : t.panels = s.panels) (hst : t.stations = s.stations) (k : KeyId) :
    t.ownSource k = s.ownSource k := by
  have hpanel : t.panel (keyPanel k) = s.panel (keyPanel k) := congrArg (tget · _) hp
  have hstation : ∀ x, t.station x = s.station x := fun x => congrArg (tget · x) hst
  unfold State.ownSource State.ownStation
  rw [hpanel, hstation]

/-! ## A list offered to an arbiter -/

/-- Destination d's waiting list set to l. -/
def State.withWaiting (s : State) (d : DestId) (l : List Waiter) : State := s.setArbiter d { s.arbiter d with waiting := l }

theorem withWaiting_arbiter (s : State) (d : DestId) (l : List Waiter) (m : DestId) :
    (s.withWaiting d l).arbiter m = if m = d then { s.arbiter d with waiting := l } else s.arbiter m :=
  State.arbiter_setArbiter s d _ m

theorem withWaiting_self (s : State) (d : DestId) : (s.withWaiting d (s.arbiter d).waiting).arbiters = s.arbiters :=
  Vector.set_getElem_self d.isLt

theorem takeWaiting_fits {d : DestId} {l : List Waiter} {k : KeyId} {r : Option KeyId} {s : State} (h : l.length ≤ 4) :
    takeWaiting d l k r s = (setStanding k .waiting (s.withWaiting d l), true) := by
  unfold takeWaiting
  exact if_pos h

theorem takeWaiting_full {d : DestId} {l : List Waiter} {w : Waiter} {k : KeyId} {r : Option KeyId} {s : State}
    (h : 4 < l.length) (hw : l.getLast? = some w) :
    takeWaiting d l k r s =
      if r = some w.key then (s.withWaiting d (l.take 4), false)
      else (dropKey w.key
        (if w.key = k then s.withWaiting d (l.take 4) else setStanding k .waiting (s.withWaiting d (l.take 4))), true) := by
  unfold takeWaiting
  rw [if_neg (by exact Nat.not_le.2 h)]
  dsimp only
  rw [hw]
  rfl

theorem takeWaiting_arbiter_ne {d m : DestId} (h : m ≠ d) (l : List Waiter) (k : KeyId) (r : Option KeyId) (s : State) :
    (takeWaiting d l k r s).1.arbiter m = s.arbiter m := by
  have hset : ∀ l, (s.withWaiting d l).arbiter m = s.arbiter m := fun l => (withWaiting_arbiter s d l m).trans (if_neg h)
  by_cases hl : l.length ≤ 4
  · rw [takeWaiting_fits hl]
    exact hset l
  · have hne : l ≠ [] := fun hn => hl (by rw [hn]; exact Nat.zero_le 4)
    rw [takeWaiting_full (Nat.lt_of_not_le hl) (List.getLast?_eq_some_getLast hne)]
    split
    · exact hset _
    · refine (congrArg (tget · m) (dropKey_touches (l.getLast hne).key _).arbiters).trans ?_
      split
      · exact hset _
      · exact hset _

/-! ## Places in the waiting list -/

theorem getLast_insert {l a b : List Waiter} {w x : Waiter} (hl : l = a ++ b) (hx : l.getLast? = some x) (hb : b ≠ []) :
    (a ++ w :: b).getLast? = some x := by
  subst hl
  rw [List.getLast?_append_of_ne_nil _ hb] at hx
  rw [List.getLast?_append_of_ne_nil _ (List.cons_ne_nil _ _), List.getLast?_cons, hx]
  rfl

theorem takeWhile_high_eq {l : List Waiter} (h : ∀ w ∈ l, w.high = true) :
    l.takeWhile (fun x => x.high) = l ∧ l.dropWhile (fun x => x.high) = [] :=
  ⟨List.takeWhile_eq_self_iff.2 h, List.dropWhile_eq_nil_iff.2 h⟩

theorem dropWhile_high_ne {l : List Waiter} (h : ∃ w ∈ l, w.high = false) : l.dropWhile (fun x => x.high) ≠ [] := by
  obtain ⟨w, hw, hlow⟩ := h
  intro hn
  rw [List.dropWhile_eq_nil_iff] at hn
  rw [hn w hw] at hlow
  cases hlow

/-- The waiting list with w behind the HIGH keys. -/
def ranked (l : List Waiter) (w : Waiter) : List Waiter :=
  l.takeWhile (fun x => x.high) ++ w :: l.dropWhile (fun x => x.high)

theorem ranked_length (l : List Waiter) (w : Waiter) : (ranked l w).length = l.length + 1 := by
  have h : (l.takeWhile fun x => x.high).length + (l.dropWhile fun x => x.high).length = l.length := by
    rw [← List.length_append, List.takeWhile_append_dropWhile]
  rw [ranked, List.length_append, List.length_cons]
  omega

theorem ranked_of_high {l : List Waiter} (h : ∀ w ∈ l, w.high = true) (w : Waiter) : ranked l w = l ++ [w] := by
  rw [ranked, (takeWhile_high_eq h).1, (takeWhile_high_eq h).2]

theorem ranked_getLast {l : List Waiter} (h : ∃ w ∈ l, w.high = false) (w : Waiter) :
    (ranked l w).getLast? = l.getLast? := by
  have hne : l ≠ [] := fun hn => by
    obtain ⟨x, hx, -⟩ := h
    rw [hn] at hx
    cases hx
  rw [List.getLast?_eq_some_getLast hne]
  exact getLast_insert List.takeWhile_append_dropWhile.symm (List.getLast?_eq_some_getLast hne) (dropWhile_high_ne h)

/-! ## A key that waits -/

theorem placeWaiting_fits {k : KeyId} {d : DestId} {high : Bool} {s : State} (h : (s.arbiter d).waiting.length < 4) :
    placeWaiting k d high s =
      (setStanding k .waiting (s.withWaiting d (insertByRank { key := k, high := high } (s.arbiter d).waiting)), true) := by
  refine takeWaiting_fits ?_
  unfold insertByRank
  split
  · exact (ranked_length _ _).trans_le h
  · rw [List.length_append]
    exact h

theorem placeWaiting_refuses {k : KeyId} {d : DestId} {high : Bool} {s : State} (h : (s.arbiter d).waiting.length = 4)
    (hlow : high = false ∨ ∀ w ∈ (s.arbiter d).waiting, w.high = true) :
    placeWaiting k d high s = (s.withWaiting d (s.arbiter d).waiting, false) := by
  have hl : insertByRank { key := k, high := high } (s.arbiter d).waiting =
      (s.arbiter d).waiting ++ [{ key := k, high := high }] := by
    rcases hlow with rfl | hall
    · rfl
    · cases high with
      | false => rfl
      | true => exact ranked_of_high hall _
  unfold placeWaiting
  rw [hl, takeWaiting_full (w := { key := k, high := high }) (by rw [List.length_append, h]; exact Nat.lt_succ_self 4)
    List.getLast?_concat, if_pos rfl, List.take_left' h]

theorem placeWaiting_drops {k : KeyId} {d : DestId} {s : State} {last : Waiter} (h : (s.arbiter d).waiting.length = 4)
    (hlow : ∃ w ∈ (s.arbiter d).waiting, w.high = false) (hlast : (s.arbiter d).waiting.getLast? = some last)
    (hk : last.key ≠ k) :
    placeWaiting k d true s =
      (dropKey last.key (setStanding k .waiting
        (s.withWaiting d ((ranked (s.arbiter d).waiting { key := k, high := true }).take 4))), true) := by
  unfold placeWaiting
  rw [show insertByRank { key := k, high := true } (s.arbiter d).waiting =
      ranked (s.arbiter d).waiting { key := k, high := true } from rfl,
    takeWaiting_full (by rw [ranked_length, h]; decide) ((ranked_getLast hlow _).trans hlast),
    if_neg fun hc => hk (Option.some.inj hc).symm, if_neg hk]

theorem setStanding_waiting_key {k : KeyId} {d : DestId} {l : List Waiter} {s : State} (j : KeyId) :
    (setStanding k .waiting (s.withWaiting d l)).key j = if j = k then { s.key k with standing := .waiting } else s.key j :=
  setStanding_key k .waiting (s.withWaiting d l) j

/-! ## A key that is pre-empted -/

/-- Key c's grant at destination d departs. -/
def State.withoutGrant (s : State) (c : KeyId) (d : DestId) : State :=
  match s.ownSource c with
  | some a => depart (.grant c) a d s
  | none => s

theorem withoutGrant_touches (s : State) (c : KeyId) (d : DestId) : Touches arriveFields s (s.withoutGrant c d) := by
  unfold State.withoutGrant
  split
  · exact depart_touches _ _ _ _
  · exact .refl _ _

theorem preempt_eq (c : KeyId) (d : DestId) (s : State) :
    preempt c d s =
      (takeWaiting d (ranked (s.arbiter d).waiting { key := c, high := false }) c none (s.withoutGrant c d)).1 := by
  have ha : (s.withoutGrant c d).arbiter d = s.arbiter d := congrArg (tget · d) (withoutGrant_touches s c d).arbiters
  rw [← ha]
  rfl

theorem preempt_fits {c : KeyId} {d : DestId} {s : State} (h : (s.arbiter d).waiting.length < 4) :
    preempt c d s =
      setStanding c .waiting
        ((s.withoutGrant c d).withWaiting d (ranked (s.arbiter d).waiting { key := c, high := false })) := by
  rw [preempt_eq, takeWaiting_fits ((ranked_length _ _).trans_le h)]

theorem preempt_drops_self {c : KeyId} {d : DestId} {s : State} (h : (s.arbiter d).waiting.length = 4)
    (hall : ∀ w ∈ (s.arbiter d).waiting, w.high = true) :
    preempt c d s = dropKey c ((s.withoutGrant c d).withWaiting d (s.arbiter d).waiting) := by
  rw [preempt_eq, ranked_of_high hall, takeWaiting_full (w := { key := c, high := false })
    (by rw [List.length_append, h]; exact Nat.lt_succ_self 4) List.getLast?_concat, if_neg nofun, if_pos rfl,
    List.take_left' h]

theorem preempt_drops_last {c : KeyId} {d : DestId} {s : State} {last : Waiter} (h : (s.arbiter d).waiting.length = 4)
    (hlow : ∃ w ∈ (s.arbiter d).waiting, w.high = false) (hlast : (s.arbiter d).waiting.getLast? = some last)
    (hc : last.key ≠ c) :
    preempt c d s =
      dropKey last.key (setStanding c .waiting
        ((s.withoutGrant c d).withWaiting d ((ranked (s.arbiter d).waiting { key := c, high := false }).take 4))) := by
  rw [preempt_eq, takeWaiting_full (by rw [ranked_length, h]; exact Nat.lt_succ_self 4)
    ((ranked_getLast hlow _).trans hlast), if_neg nofun, if_neg hc]

theorem withoutGrant_key (s : State) (c : KeyId) (d : DestId) (j : KeyId) : (s.withoutGrant c d).key j = s.key j :=
  congrArg (tget · j) (withoutGrant_touches s c d).keys

theorem preempt_entries (c : KeyId) (d : DestId) (s : State) :
    (preempt c d s).entries = (s.withoutGrant c d).entries ∧ (preempt c d s).events = s.events := by
  have ht := takeWaiting_touches d (ranked (s.arbiter d).waiting { key := c, high := false }) c none (s.withoutGrant c d)
  rw [preempt_eq]
  exact ⟨ht.entries, ht.events.trans (withoutGrant_touches s c d).events⟩

theorem takeWaiting_current (d : DestId) (l : List Waiter) (k : KeyId) (r : Option KeyId) (s : State) :
    ((takeWaiting d l k r s).1.arbiter d).current = (s.arbiter d).current := by
  have hset : ∀ l, ((s.withWaiting d l).arbiter d).current = (s.arbiter d).current := fun l => by
    rw [withWaiting_arbiter, if_pos rfl]
  have hdrop : ∀ j u, ((dropKey j u).arbiter d) = u.arbiter d := fun j u =>
    congrArg (tget · d) (dropKey_touches j u).arbiters
  by_cases hl : l.length ≤ 4
  · rw [takeWaiting_fits hl]
    exact hset l
  · have hne : l ≠ [] := fun hn => hl (by rw [hn]; exact Nat.zero_le 4)
    rw [takeWaiting_full (Nat.lt_of_not_le hl) (List.getLast?_eq_some_getLast hne)]
    split
    · exact hset _
    · rw [hdrop]
      split
      · exact hset _
      · exact hset _

/-! ## A request -/

/-- R145: the request of key k is stronger than the current key c. -/
def State.outranks (s : State) (k c : KeyId) : Prop := (s.key k).priority = .high ∧ (s.key c).priority = .low

theorem requestArbiter_free {k : KeyId} {src : SourceId} {d : DestId} {s : State} (h : (s.arbiter d).current = none) :
    requestArbiter k src d s =
      if (requestGrant k src d s).2 = true then (makeCurrent k d (requestGrant k src d s).1, true)
      else (raise .grantRefused (some d.val) s, false) := by
  unfold requestArbiter
  rw [h]
  cases hr : (requestGrant k src d s).2 with
  | true => simp [hr]
  | false => simp [hr, requestGrant_refused_eq hr]

theorem requestArbiter_behind {k c : KeyId} {src : SourceId} {d : DestId} {s : State} (h : (s.arbiter d).current = some c)
    (hr : ¬s.outranks k c) :
    requestArbiter k src d s = placeWaiting k d ((s.key k).priority == .high) s := by
  unfold requestArbiter
  rw [h]
  dsimp only
  rw [if_neg (by simpa [State.outranks] using hr)]

theorem requestArbiter_outranks {k c : KeyId} {src : SourceId} {d : DestId} {s : State}
    (h : (s.arbiter d).current = some c) (hr : s.outranks k c) :
    requestArbiter k src d s =
      if (requestGrant k src d s).2 = true then (preempt c d (makeCurrent k d (requestGrant k src d s).1), true)
      else placeWaiting k d ((s.key k).priority == .high) (raise .grantRefused (some d.val) s) := by
  unfold requestArbiter
  rw [h]
  dsimp only
  rw [if_pos (by simpa [State.outranks] using hr)]
  cases hg : (requestGrant k src d s).2 with
  | true => rfl
  | false => simp [requestGrant_refused_eq hg]

theorem makeCurrent_key (k : KeyId) (d : DestId) (s : State) (j : KeyId) :
    (makeCurrent k d s).key j = if j = k then { s.key k with standing := .current } else s.key j :=
  setStanding_key k .current _ j

theorem makeCurrent_arbiter (k : KeyId) (d : DestId) (s : State) (m : DestId) :
    (makeCurrent k d s).arbiter m = if m = d then { s.arbiter d with current := some k } else s.arbiter m :=
  State.arbiter_setArbiter s d _ m

theorem requestArbiter_arbiter_ne {d m : DestId} (h : m ≠ d) (k : KeyId) (src : SourceId) (s : State) :
    (requestArbiter k src d s).1.arbiter m = s.arbiter m := by
  have hgrant : (requestGrant k src d s).1.arbiter m = s.arbiter m :=
    congrArg (tget · m) (requestGrant_touches k src d s).arbiters
  have hcurrent : (makeCurrent k d (requestGrant k src d s).1).arbiter m = s.arbiter m := by
    rw [makeCurrent_arbiter, if_neg h, hgrant]
  have hraise : (raise .grantRefused (some d.val) s).arbiter m = s.arbiter m :=
    congrArg (tget · m) (raise_touches _ _ s).arbiters
  cases hc : (s.arbiter d).current with
  | none =>
    rw [requestArbiter_free hc]
    split
    · exact hcurrent
    · exact hraise
  | some c =>
    by_cases hr : s.outranks k c
    · rw [requestArbiter_outranks hc hr]
      split
      · rw [preempt_eq, takeWaiting_arbiter_ne h]
        exact (congrArg (tget · m) (withoutGrant_touches _ c d).arbiters).trans hcurrent
      · exact (takeWaiting_arbiter_ne h _ _ _ _).trans hraise
    · rw [requestArbiter_behind hc hr]
      exact takeWaiting_arbiter_ne h _ _ _ _

/-- What a wait leaves of the arbiter and of the keys: v reads the arbiters and keys of s. -/
theorem placeWaiting_serves {k : KeyId} {d : DestId} {s v : State} (hk : v.keys = s.keys) (ha : v.arbiters = s.arbiters)
    (ht : v.timing = s.timing) :
    let u := placeWaiting k d ((s.key k).priority == .high) v
    let waiting := (s.arbiter d).waiting
    let only := fun (l : List KeyId) => ∀ j, j ∉ l → u.1.key j = s.key j
    (waiting.length < 4 →
      u.2 = true ∧ u.1.key k = { s.key k with standing := .waiting } ∧ only [k] ∧
        (u.1.arbiter d).waiting =
          if (s.key k).priority = .high then ranked waiting { key := k, high := true }
          else waiting ++ [{ key := k, high := false }]) ∧
    (waiting.length = 4 → (∀ w ∈ waiting, w.key ≠ k) →
      ((s.key k).priority = .low ∨ (∀ w ∈ waiting, w.high = true) →
        u.2 = false ∧ u.1.arbiters = s.arbiters ∧ u.1.keys = s.keys) ∧
      ((s.key k).priority = .high → (∃ w ∈ waiting, w.high = false) → ∀ last, waiting.getLast? = some last →
        u.2 = true ∧ u.1.key k = { s.key k with standing := .waiting } ∧ KeyDropped s u.1 last.key ∧
          only [k, last.key] ∧ (u.1.arbiter d).waiting = (ranked waiting { key := k, high := true }).take 4)) := by
  have hkey : ∀ j, v.key j = s.key j := fun j => congrArg (tget · j) hk
  have harb : v.arbiter d = s.arbiter d := congrArg (tget · d) ha
  intro u waiting only
  refine ⟨fun hl => ?_, fun hl hne => ⟨fun hlow => ?_, fun hhigh hlow last hlast => ?_⟩⟩
  · have hu : u = (setStanding k .waiting (v.withWaiting d (insertByRank
        { key := k, high := (s.key k).priority == .high } waiting)), true) :=
      (placeWaiting_fits (by rw [harb]; exact hl)).trans (by rw [harb])
    rw [hu]
    refine ⟨rfl, ?_, fun j hj => ?_, ?_⟩
    · rw [setStanding_waiting_key, if_pos rfl, hkey]
    · rw [hu, setStanding_waiting_key, if_neg (by simpa using hj), hkey]
    · have hset : ((v.withWaiting d (insertByRank { key := k, high := (s.key k).priority == .high } waiting)).arbiter d).waiting =
          insertByRank { key := k, high := (s.key k).priority == .high } waiting := by
        rw [withWaiting_arbiter, if_pos rfl]
      refine hset.trans ?_
      cases (s.key k).priority <;> rfl
  · have hu : u = (v.withWaiting d waiting, false) :=
      (placeWaiting_refuses (by rw [harb]; exact hl) (by
        rw [harb]
        exact hlow.imp (fun h => by rw [h]; rfl) id)).trans (by rw [harb])
    rw [hu]
    refine ⟨rfl, ?_, hk⟩
    have hself := withWaiting_self v d
    rw [harb] at hself
    exact hself.trans ha
  · have hmem : last ∈ waiting := List.mem_of_getLast? hlast
    have hu : u = (dropKey last.key (setStanding k .waiting
        (v.withWaiting d ((ranked waiting { key := k, high := true }).take 4))), true) := by
      have h := placeWaiting_drops (k := k) (s := v) (d := d) (last := last) (by rw [harb]; exact hl)
        (by rw [harb]; exact hlow) (by rw [harb]; exact hlast) (hne last hmem)
      rw [harb] at h
      rw [← h, show u = placeWaiting k d ((s.key k).priority == .high) v from rfl, hhigh]
      rfl
    rw [hu]
    refine ⟨rfl, ?_, ?_, fun j hj => ?_, ?_⟩
    · rw [dropKey_other (Ne.symm (hne last hmem)), setStanding_waiting_key, if_pos rfl, hkey]
    · refine (dropKey_keyDropped last.key _).of_key ?_ ht
      rw [setStanding_waiting_key, if_neg (hne last hmem), hkey]
    · simp only [List.mem_cons, List.not_mem_nil, or_false, not_or] at hj
      rw [hu, dropKey_other hj.2, setStanding_waiting_key, if_neg hj.1, hkey]
    · refine (congrArg (fun v => (tget v d).waiting) (dropKey_touches last.key _).arbiters).trans ?_
      change ((v.withWaiting d _).arbiter d).waiting = _
      rw [withWaiting_arbiter, if_pos rfl]

end Sys2Proof.Machine
end

section
/-! PROOF. What a pre-emption does, how the waiting keys are served when the current key leaves (R145 to R150), and the
arbiters' obligation. -/

namespace Sys2Proof.Machine

/-! ## A pre-emption -/

/-- Key k is granted and made current at destination d. -/
def State.preempting (s : State) (k : KeyId) (src : SourceId) (d : DestId) : State :=
  makeCurrent k d (requestGrant k src d s).1

theorem preempting_key (s : State) (k : KeyId) (src : SourceId) (d : DestId) (j : KeyId) :
    (s.preempting k src d).key j = if j = k then { s.key k with standing := .current } else s.key j := by
  have hk : ∀ i, (requestGrant k src d s).1.key i = s.key i := fun i =>
    congrArg (tget · i) (requestGrant_touches k src d s).keys
  rw [State.preempting, makeCurrent_key, hk, hk]

theorem preempting_arbiter (s : State) (k : KeyId) (src : SourceId) (d : DestId) :
    (s.preempting k src d).arbiter d = { s.arbiter d with current := some k } := by
  have ha : (requestGrant k src d s).1.arbiter d = s.arbiter d :=
    congrArg (tget · d) (requestGrant_touches k src d s).arbiters
  rw [State.preempting, makeCurrent_arbiter, if_pos rfl, ha]

theorem preempting_touches (s : State) (k : KeyId) (src : SourceId) (d : DestId) :
    Touches arbiterFields s (s.preempting k src d) :=
  (requestGrant_touches k src d s).up.trans (makeCurrent_touches k d _).up

/-- Key c waits in the list l, its grant at destination d given up. -/
def State.preempted (s : State) (c : KeyId) (d : DestId) (l : List Waiter) : State :=
  setStanding c .waiting ((s.withoutGrant c d).withWaiting d l)

theorem preempted_key (s : State) (c : KeyId) (d : DestId) (l : List Waiter) (j : KeyId) :
    (s.preempted c d l).key j = if j = c then { s.key c with standing := .waiting } else s.key j := by
  rw [State.preempted, setStanding_waiting_key, withoutGrant_key, withoutGrant_key]

theorem preempted_waiting (s : State) (c : KeyId) (d : DestId) (l : List Waiter) :
    ((s.preempted c d l).arbiter d).waiting = l := by
  change (((s.withoutGrant c d).withWaiting d l).arbiter d).waiting = l
  rw [withWaiting_arbiter, if_pos rfl]

theorem preempted_timing (s : State) (c : KeyId) (d : DestId) (l : List Waiter) :
    (s.preempted c d l).timing = s.timing := (withoutGrant_touches s c d).timing

theorem dropKey_waiting (k : KeyId) (s : State) (d : DestId) : ((dropKey k s).arbiter d).waiting = (s.arbiter d).waiting :=
  congrArg (fun v => (tget v d).waiting) (dropKey_touches k s).arbiters

/-- R147: what a granted pre-emption leaves of the arbiter and of the keys. -/
theorem preempt_serves {k c : KeyId} {src : SourceId} {d : DestId} {s : State} (hck : c ≠ k) :
    let u := preempt c d (s.preempting k src d)
    let waiting := (s.arbiter d).waiting
    let only := fun (l : List KeyId) => ∀ j, j ∉ l → u.key j = s.key j
    (waiting.length < 4 →
      u.key k = { s.key k with standing := .current } ∧ u.key c = { s.key c with standing := .waiting } ∧
        only [k, c] ∧ (u.arbiter d).waiting = ranked waiting { key := c, high := false }) ∧
    (waiting.length = 4 → (∀ w ∈ waiting, w.key ≠ k ∧ w.key ≠ c) →
      u.key k = { s.key k with standing := .current } ∧
      ((∀ w ∈ waiting, w.high = true) → KeyDropped s u c ∧ only [k, c] ∧ (u.arbiter d).waiting = waiting) ∧
      ((∃ w ∈ waiting, w.high = false) → ∀ last, waiting.getLast? = some last →
        KeyDropped s u last.key ∧ u.key c = { s.key c with standing := .waiting } ∧ only [k, c, last.key] ∧
          (u.arbiter d).waiting = (ranked waiting { key := c, high := false }).take 4)) := by
  have hv := preempting_key s k src d
  have harb : ((s.preempting k src d).arbiter d).waiting = (s.arbiter d).waiting := by rw [preempting_arbiter]
  have htime : (s.preempting k src d).timing = s.timing := (preempting_touches s k src d).timing
  generalize s.preempting k src d = v at hv harb htime
  intro u waiting only
  refine ⟨fun hl => ?_, fun hl hne => ?_⟩
  · have hu : u = v.preempted c d (ranked waiting { key := c, high := false }) :=
      (preempt_fits (by rw [harb]; exact hl)).trans (by rw [harb]; rfl)
    refine ⟨?_, ?_, fun j hj => ?_, ?_⟩
    · rw [hu, preempted_key, if_neg hck.symm, hv, if_pos rfl]
    · rw [hu, preempted_key, if_pos rfl, hv, if_neg hck]
    · simp only [List.mem_cons, List.not_mem_nil, or_false, not_or] at hj
      rw [hu, preempted_key, if_neg hj.2, hv, if_neg hj.1]
    · rw [hu, preempted_waiting]
  · have hself : (∀ w ∈ waiting, w.high = true) → u = dropKey c ((v.withoutGrant c d).withWaiting d waiting) := fun hall =>
      (preempt_drops_self (by rw [harb]; exact hl) (by rw [harb]; exact hall)).trans (by rw [harb])
    have hlast : (∃ w ∈ waiting, w.high = false) → ∀ last, waiting.getLast? = some last →
        u = dropKey last.key (v.preempted c d ((ranked waiting { key := c, high := false }).take 4)) :=
      fun hlow last hx =>
        (preempt_drops_last (by rw [harb]; exact hl) (by rw [harb]; exact hlow) (by rw [harb]; exact hx)
          (hne last (List.mem_of_getLast? hx)).2).trans (by rw [harb]; rfl)
    have hkey : ∀ j, ((v.withoutGrant c d).withWaiting d waiting).key j = v.key j := withoutGrant_key v c d
    refine ⟨?_, fun hall => ⟨?_, fun j hj => ?_, ?_⟩, fun hlow last hx => ⟨?_, ?_, fun j hj => ?_, ?_⟩⟩
    · by_cases hall : ∀ w ∈ waiting, w.high = true
      · rw [hself hall, dropKey_other hck.symm, hkey, hv, if_pos rfl]
      · have hlow : ∃ w ∈ waiting, w.high = false := by simpa using hall
        have hn : waiting ≠ [] := fun hn => by rw [hn] at hl; cases hl
        have hx := List.getLast?_eq_some_getLast hn
        rw [hlast hlow _ hx, dropKey_other (hne _ (List.mem_of_getLast? hx)).1.symm, preempted_key, if_neg hck.symm, hv,
          if_pos rfl]
    · rw [hself hall]
      refine (dropKey_keyDropped c _).of_key ?_ ((withoutGrant_touches v c d).timing.trans htime)
      rw [hkey, hv, if_neg hck]
    · simp only [List.mem_cons, List.not_mem_nil, or_false, not_or] at hj
      rw [hself hall, dropKey_other hj.2, hkey, hv, if_neg hj.1]
    · rw [hself hall, dropKey_waiting, withWaiting_arbiter, if_pos rfl]
    · rw [hlast hlow last hx]
      obtain ⟨hk, hc⟩ := hne last (List.mem_of_getLast? hx)
      refine (dropKey_keyDropped last.key _).of_key ?_ ((preempted_timing v c d _).trans htime)
      rw [preempted_key, if_neg hc, hv, if_neg hk]
    · rw [hlast hlow last hx, dropKey_other (hne last (List.mem_of_getLast? hx)).2.symm, preempted_key, if_pos rfl, hv,
        if_neg hck]
    · simp only [List.mem_cons, List.not_mem_nil, or_false, not_or] at hj
      rw [hlast hlow last hx, dropKey_other hj.2.2, preempted_key, if_neg hj.2.1, hv, if_neg hj.1]
    · rw [hlast hlow last hx, dropKey_waiting, preempted_waiting]

/-! ## The waiting keys served -/

theorem promote_refused {d : DestId} {w : Waiter} {ws : List Waiter} {b : SourceId} {s : State}
    (hb : s.ownSource w.key = some b) (hr : (requestGrant w.key b d s).2 = false) :
    promote d (w :: ws) s = promote d ws (dropKey w.key (raise .grantRefused (some d.val) s)) := by
  rw [promote, hb]
  dsimp only
  rw [hr, requestGrant_refused_eq hr]
  rfl

theorem promote_granted {d : DestId} {w : Waiter} {ws : List Waiter} {b : SourceId} {s : State}
    (hb : s.ownSource w.key = some b) (hr : (requestGrant w.key b d s).2 = true) :
    promote d (w :: ws) s =
      setStanding w.key .current
        ((requestGrant w.key b d s).1.setArbiter d { current := some w.key, waiting := ws }) := by
  rw [promote, hb]
  dsimp only
  rw [hr]
  rfl

theorem promote_sourceless {d : DestId} {w : Waiter} {ws : List Waiter} {s : State} (hb : s.ownSource w.key = none) :
    promote d (w :: ws) s = promote d ws (dropKey w.key s) := by
  rw [promote, hb]

theorem refusal_key (k : KeyId) (d : DestId) (s : State) (j : KeyId) :
    (dropKey k (raise .grantRefused (some d.val) s)).key j = (dropKey k s).key j := by
  have hr := raise_touches .grantRefused (some d.val) s
  have hkey : ∀ i, (raise .grantRefused (some d.val) s).key i = s.key i := fun i => congrArg (tget · i) hr.keys
  rw [dropKey_key, dropKey_key, hkey]
  simp only [State.dropped, hkey, hr.timing]

/-- What refusals at an ear touch (R149). -/
abbrev refusalFields : List Fld := [.keys, .lampDirty, .events, .notices, .draws]

theorem refusal_touches (k : KeyId) (d : DestId) (s : State) :
    Touches refusalFields s (dropKey k (raise .grantRefused (some d.val) s)) :=
  (raise_touches _ _ _).up.trans (dropKey_touches _ _).up

/-- R148, R149: from s to v each of the waiting keys given is refused at destination d and dropped. -/
structure WaitersRefused (d : DestId) (dropped : List Waiter) (s v : State) : Prop where
  touches : Touches refusalFields s v
  others : ∀ j, (∀ w ∈ dropped, w.key ≠ j) → v.key j = s.key j
  keys : ∀ w ∈ dropped, KeyDropped s v w.key
  quiet : dropped = [] → v.events = s.events
  raised : dropped ≠ [] → (v.event .grantRefused).isSet = true ∧ (v.event .grantRefused).inst = some d.val

theorem WaitersRefused.nil (d : DestId) (s : State) : WaitersRefused d [] s s :=
  ⟨.refl _ s, fun _ _ => rfl, nofun, fun _ => rfl, fun h => absurd rfl h⟩

/-- R149: one key refused, then the rest. -/
theorem WaitersRefused.cons {d : DestId} {w : Waiter} {l : List Waiter} {s v : State} (hw : ∀ x ∈ l, x.key ≠ w.key)
    (h : WaitersRefused d l (dropKey w.key (raise .grantRefused (some d.val) s)) v) : WaitersRefused d (w :: l) s v := by
  obtain ⟨htv, hother, hdropped, hnil, hcons⟩ := h
  have ht := refusal_touches w.key d s
  have hkey : ∀ j, j ≠ w.key → (dropKey w.key (raise .grantRefused (some d.val) s)).key j = s.key j := fun j hj =>
    (refusal_key w.key d s j).trans (dropKey_other hj s)
  refine ⟨ht.trans htv, fun j hj => ?_, ?_, nofun, fun _ => ?_⟩
  · rw [hother j fun x hx => hj x (List.mem_cons_of_mem _ hx), hkey j (hj w List.mem_cons_self).symm]
  · intro x hx
    rcases List.mem_cons.1 hx with rfl | hx
    · have hself : KeyDropped s (dropKey x.key (raise .grantRefused (some d.val) s)) x.key :=
        (refusal_key x.key d s x.key).trans (dropKey_keyDropped x.key s)
      exact hself.of_after (hother _ hw)
    · exact (hdropped x hx).of_key (hkey _ (hw x hx)) ht.timing
  · cases l with
    | nil =>
      have hev := hnil rfl
      have hu := (dropKey_touches w.key (raise .grantRefused (some d.val) s)).events
      rw [State.event, hev, hu, ← State.event, raise_event]
      exact ⟨rfl, rfl⟩
    | cons x l => exact hcons nofun

/-- R149: each of the keys dropped is refused in turn, and the rest are served after them. -/
theorem promote_drops {d : DestId} {dropped rest : List Waiter} {s : State} (hn : (dropped.map Waiter.key).Nodup)
    (hr : ∀ w ∈ dropped, ∃ b, s.ownSource w.key = some b ∧ (requestGrant w.key b d s).2 = false) :
    ∃ v, promote d (dropped ++ rest) s = promote d rest v ∧ WaitersRefused d dropped s v := by
  induction dropped generalizing s with
  | nil => exact ⟨s, rfl, .nil d s⟩
  | cons w l ih =>
    obtain ⟨hw, hn⟩ := List.nodup_cons.1 hn
    obtain ⟨b, hb, hgrant⟩ := hr w List.mem_cons_self
    have ht := refusal_touches w.key d s
    have hne : ∀ x ∈ l, x.key ≠ w.key := fun x hx hk => hw (hk ▸ List.mem_map_of_mem hx)
    have hkey : ∀ x ∈ l, (dropKey w.key (raise .grantRefused (some d.val) s)).key x.key = s.key x.key := fun x hx =>
      (refusal_key w.key d s x.key).trans (dropKey_other (hne x hx) s)
    obtain ⟨v, hv, hdropped⟩ := ih (s := dropKey w.key (raise .grantRefused (some d.val) s)) hn fun x hx => by
      obtain ⟨c, hc, hg⟩ := hr x (List.mem_cons_of_mem _ hx)
      refine ⟨c, (State.ownSource_congr ht.panels ht.stations _).trans hc, ?_⟩
      rw [(requestGrant_congr c d (congrArg Key.talkLevel (hkey x hx)) ht.entries ht.taps ht.nextSerial).1, hg]
    exact ⟨v, (promote_refused hb hgrant).trans hv, hdropped.cons hne⟩

theorem promote_key_other {d : DestId} {l : List Waiter} {j : KeyId} (h : ∀ w ∈ l, w.key ≠ j) (s : State) :
    (promote d l s).key j = s.key j := by
  induction l generalizing s with
  | nil => rfl
  | cons w ws ih =>
    have hj : j ≠ w.key := (h w List.mem_cons_self).symm
    have ih := fun s => ih (fun x hx => h x (List.mem_cons_of_mem _ hx)) s
    cases hb : s.ownSource w.key with
    | none => rw [promote_sourceless hb, ih, dropKey_other hj]
    | some b =>
      cases hr : (requestGrant w.key b d s).2 with
      | false => rw [promote_refused hb hr, ih, refusal_key, dropKey_other hj]
      | true =>
        rw [promote_granted hb hr, setStanding_key, if_neg hj]
        exact congrArg (tget · j) (requestGrant_touches w.key b d s).keys

theorem promote_arbiter_ne {d m : DestId} (h : m ≠ d) (l : List Waiter) (s : State) :
    (promote d l s).arbiter m = s.arbiter m := by
  induction l generalizing s with
  | nil => exact (State.arbiter_setArbiter s d _ m).trans (if_neg h)
  | cons w ws ih =>
    cases hb : s.ownSource w.key with
    | none =>
      rw [promote_sourceless hb, ih]
      exact congrArg (tget · m) (dropKey_touches w.key s).arbiters
    | some b =>
      cases hr : (requestGrant w.key b d s).2 with
      | false =>
        rw [promote_refused hb hr, ih]
        exact congrArg (tget · m) (refusal_touches w.key d s).arbiters
      | true =>
        rw [promote_granted hb hr]
        exact (State.arbiter_setArbiter _ d _ m).trans
          ((if_neg h).trans (congrArg (tget · m) (requestGrant_touches w.key b d s).arbiters))

/-! ## A key that leaves -/

theorem leaveArbiter_current {k : KeyId} {d : DestId} {s : State} (ht : (s.key k).target = some d)
    (hc : (s.arbiter d).current = some k) :
    leaveArbiter k s = promote d (s.arbiter d).waiting (setStanding k .outside (s.withoutGrant k d)) := by
  have ha : (setStanding k .outside (s.withoutGrant k d)).arbiter d = s.arbiter d :=
    congrArg (tget · d) (withoutGrant_touches s k d).arbiters
  unfold leaveArbiter
  rw [ht]
  dsimp only
  rw [if_pos hc, ← ha]
  rfl

theorem leaveArbiter_waiting {k : KeyId} {d : DestId} {s : State} (ht : (s.key k).target = some d)
    (hc : (s.arbiter d).current ≠ some k) :
    leaveArbiter k s =
      if ∃ w ∈ (s.arbiter d).waiting, w.key = k then
        setStanding k .outside (s.withWaiting d ((s.arbiter d).waiting.filter fun w => decide (w.key ≠ k)))
      else s := by
  have hf : ((s.arbiter d).waiting.filter fun w => w.key != k) =
      (s.arbiter d).waiting.filter fun w => decide (w.key ≠ k) := List.filter_congr fun w _ => by
      by_cases h : w.key = k <;> simp [h]
  unfold leaveArbiter
  rw [ht]
  dsimp only
  rw [if_neg hc]
  by_cases hw : ∃ w ∈ (s.arbiter d).waiting, w.key = k
  · rw [if_pos hw, if_pos (by simpa using hw), ← hf]
    rfl
  · rw [if_neg hw, if_neg (by simpa using hw)]

end Sys2Proof.Machine
end

section
/-! PROOF. The obligation about the IFB arbiters (R142 to R150), part by part. -/

namespace Sys2Proof.Machine

/-! ## Requests -/

theorem requestArbiter_free_serves {k : KeyId} {src : SourceId} {d : DestId} {s : State}
    (hc : (s.arbiter d).current = none) :
    let u := requestArbiter k src d s
    let store := requestGrant k src d s
    (store.2 = true →
      u.2 = true ∧ u.1.arbiter d = { s.arbiter d with current := some k } ∧
        u.1.key k = { s.key k with standing := .current } ∧ (∀ j, j ∉ [k] → u.1.key j = s.key j) ∧
        u.1.entries = store.1.entries ∧ u.1.events = s.events) ∧
    (store.2 = false →
      u.2 = false ∧ u.1.arbiters = s.arbiters ∧ u.1.keys = s.keys ∧ u.1.entries = s.entries ∧
        (u.1.event .grantRefused).isSet = true ∧ (u.1.event .grantRefused).inst = some d.val) := by
  intro u store
  refine ⟨fun hg => ?_, fun hg => ?_⟩
  · have hu : u = (s.preempting k src d, true) := (requestArbiter_free hc).trans (if_pos hg)
    rw [hu]
    have ht := makeCurrent_touches k d (requestGrant k src d s).1
    refine ⟨rfl, preempting_arbiter s k src d, ?_, fun j hj => ?_, ht.entries,
      ht.events.trans (requestGrant_touches k src d s).events⟩
    · exact (preempting_key s k src d k).trans (if_pos rfl)
    · exact (preempting_key s k src d j).trans (if_neg (by simpa using hj))
  · have hu : u = (raise .grantRefused (some d.val) s, false) :=
      (requestArbiter_free hc).trans (if_neg (by rw [show (requestGrant k src d s).2 = false from hg]; decide))
    have ht := raise_touches .grantRefused (some d.val) s
    rw [hu]
    refine ⟨rfl, ht.arbiters, ht.keys, ht.entries, ?_⟩
    rw [raise_event]
    exact ⟨rfl, rfl⟩

theorem requestArbiter_waits_serves {k c : KeyId} {src : SourceId} {d : DestId} {s : State}
    (hc : (s.arbiter d).current = some c) (hw : ¬s.outranks k c ∨ (requestGrant k src d s).2 = false) :
    ∃ v, requestArbiter k src d s = placeWaiting k d ((s.key k).priority == .high) v ∧ v.keys = s.keys ∧
      v.arbiters = s.arbiters ∧ v.timing = s.timing ∧ v.entries = s.entries ∧ (¬s.outranks k c → v = s) ∧
      (s.outranks k c → v = raise .grantRefused (some d.val) s) := by
  by_cases hr : s.outranks k c
  · have hg := hw.resolve_left (not_not.2 hr)
    have ht := raise_touches .grantRefused (some d.val) s
    refine ⟨_, (requestArbiter_outranks hc hr).trans (if_neg (by rw [hg]; decide)), ht.keys, ht.arbiters, ht.timing,
      ht.entries, fun h => absurd hr h, fun _ => rfl⟩
  · exact ⟨s, requestArbiter_behind hc hr, rfl, rfl, rfl, rfl, fun _ => rfl, fun h => absurd h hr⟩

theorem requestArbiter_preempts {k c : KeyId} {src : SourceId} {d : DestId} {s : State}
    (hc : (s.arbiter d).current = some c) (hr : s.outranks k c) (hg : (requestGrant k src d s).2 = true) :
    requestArbiter k src d s = (preempt c d (s.preempting k src d), true) :=
  (requestArbiter_outranks hc hr).trans (if_pos hg)

theorem preempt_current {k c : KeyId} {src : SourceId} {d : DestId} {s : State} :
    ((preempt c d (s.preempting k src d)).arbiter d).current = some k := by
  rw [preempt_eq, takeWaiting_current]
  have ha : ((s.preempting k src d).withoutGrant c d).arbiter d = (s.preempting k src d).arbiter d :=
    congrArg (tget · d) (withoutGrant_touches _ c d).arbiters
  rw [ha, preempting_arbiter]

/-- R145 to R148 at an ear with a current key. -/
theorem requestArbiter_taken_serves {k c : KeyId} {src : SourceId} {d : DestId} {s : State}
    (hc : (s.arbiter d).current = some c) (hw : ¬s.outranks k c ∨ (requestGrant k src d s).2 = false) :
    let u := requestArbiter k src d s
    u.1.entries = s.entries ∧ (u.1.arbiter d).current = some c ∧
      (s.outranks k c → (u.1.event .grantRefused).isSet = true ∧ (u.1.event .grantRefused).inst = some d.val) ∧
      (¬s.outranks k c → u.1.events = s.events) := by
  obtain ⟨v, hv, hk, ha, ht, he, hsame, hraised⟩ := requestArbiter_waits_serves hc hw
  have hp := placeWaiting_touches k d ((s.key k).priority == .high) v
  intro u
  rw [show u = _ from hv]
  refine ⟨hp.entries.trans he, ?_, fun hr => ?_, fun hr => ?_⟩
  · rw [show ((placeWaiting k d ((s.key k).priority == .high) v).1.arbiter d).current = (v.arbiter d).current from
      takeWaiting_current _ _ _ _ _]
    exact (congrArg (fun a => (tget a d).current) ha).trans hc
  · have hev : (placeWaiting k d ((s.key k).priority == .high) v).1.event .grantRefused = v.event .grantRefused :=
      congrArg (tget · _) hp.events
    rw [hev, hraised hr, raise_event]
    exact ⟨rfl, rfl⟩
  · exact hp.events.trans (by rw [hsame hr])

/-! ## Leaving -/

/-- R149, R150: the current key leaves and the waiting keys are served in turn. -/
theorem leaveArbiter_serves {k : KeyId} {d : DestId} {s : State} (ht : (s.key k).target = some d)
    (hc : (s.arbiter d).current = some k) {dropped rest : List Waiter} (hw : (s.arbiter d).waiting = dropped ++ rest)
    (hn : ((s.arbiter d).waiting.map Waiter.key).Nodup) (hk : ∀ w ∈ (s.arbiter d).waiting, w.key ≠ k)
    (hr : ∀ w ∈ dropped, ∃ b, s.ownSource w.key = some b ∧ (requestGrant w.key b d (s.withoutGrant k d)).2 = false) :
    ∃ v, leaveArbiter k s = promote d rest v ∧ Touches refusalFields (s.withoutGrant k d) v ∧
      v.key k = { s.key k with standing := .outside } ∧ (∀ w ∈ dropped, KeyDropped s v w.key) ∧
      (∀ w ∈ rest, v.key w.key = s.key w.key) ∧
      (dropped = [] → v.events = s.events) ∧
      (dropped ≠ [] → (v.event .grantRefused).isSet = true ∧ (v.event .grantRefused).inst = some d.val) := by
  have hleft := withoutGrant_touches s k d
  let u := setStanding k .outside (s.withoutGrant k d)
  have hu : Touches [.keys, .lampDirty] (s.withoutGrant k d) u := setStanding_touches k .outside _
  have hkey : ∀ j, u.key j = if j = k then { s.key k with standing := .outside } else s.key j := fun j => by
    rw [show u.key j = _ from setStanding_key k .outside _ j, withoutGrant_key, withoutGrant_key]
  have hne : ∀ w ∈ dropped ++ rest, w.key ≠ k := hw ▸ hk
  rw [hw, List.map_append] at hn
  obtain ⟨hnd, -, hdisj⟩ := List.nodup_append.1 hn
  obtain ⟨v, hv, ⟨hvt, hother, hdropped, hnil, hcons⟩⟩ := promote_drops (d := d) (rest := rest) (s := u) hnd
    fun w hw' => by
      obtain ⟨b, hb, hg⟩ := hr w hw'
      refine ⟨b, (State.ownSource_congr (hu.panels.trans hleft.panels) (hu.stations.trans hleft.stations) _).trans hb, ?_⟩
      have hlevel : (u.key w.key).talkLevel = ((s.withoutGrant k d).key w.key).talkLevel := by
        rw [hkey, if_neg (hne w (List.mem_append_left _ hw')), withoutGrant_key]
      rw [(requestGrant_congr b d hlevel hu.entries hu.taps hu.nextSerial).1, hg]
  refine ⟨v, ?_, hu.up.trans hvt, ?_, fun w hw' => ?_, fun w hw' => ?_, fun h => ?_, hcons⟩
  · rw [leaveArbiter_current ht hc, hw]
    exact hv
  · rw [hother k fun w hw' => hne w (List.mem_append_left _ hw'), hkey, if_pos rfl]
  · refine (hdropped w hw').of_key ?_ (hu.timing.trans hleft.timing)
    rw [hkey, if_neg (hne w (List.mem_append_left _ hw'))]
  · rw [hother w.key fun x hx hxw => hdisj x.key (List.mem_map_of_mem hx) w.key (List.mem_map_of_mem hw') hxw, hkey,
      if_neg (hne w (List.mem_append_right _ hw'))]
  · exact (hnil h).trans (hu.events.trans hleft.events)

/-- R149: the first waiting key that the store grants becomes current, the keys before it dropped. -/
theorem leaveArbiter_grants {k : KeyId} {d : DestId} {s : State} (ht : (s.key k).target = some d)
    (hc : (s.arbiter d).current = some k) {dropped ws : List Waiter} {w : Waiter} {b : SourceId}
    (hw : (s.arbiter d).waiting = dropped ++ w :: ws)
    (hn : ((s.arbiter d).waiting.map Waiter.key).Nodup) (hk : ∀ w ∈ (s.arbiter d).waiting, w.key ≠ k)
    (hr : ∀ w ∈ dropped, ∃ b, s.ownSource w.key = some b ∧ (requestGrant w.key b d (s.withoutGrant k d)).2 = false)
    (hb : s.ownSource w.key = some b) (hg : (requestGrant w.key b d (s.withoutGrant k d)).2 = true) :
    let t := leaveArbiter k s
    (t.key k = { s.key k with standing := .outside } ∧ (∀ w ∈ dropped, KeyDropped s t w.key) ∧
        (dropped = [] → t.events = s.events) ∧
        (dropped ≠ [] → (t.event .grantRefused).isSet = true ∧ (t.event .grantRefused).inst = some d.val)) ∧
      t.arbiter d = { current := some w.key, waiting := ws } ∧ t.key w.key = { s.key w.key with standing := .current } ∧
      t.entries = (requestGrant w.key b d (s.withoutGrant k d)).1.entries ∧ ∀ x ∈ ws, t.key x.key = s.key x.key := by
  obtain ⟨v, hv, hvt, hvk, hdropped, hrest, hnil, hcons⟩ := leaveArbiter_serves ht hc hw hn hk hr
  have hwk : w.key ≠ k := hk w (by rw [hw]; exact List.mem_append_right _ List.mem_cons_self)
  have hkeep := hrest w List.mem_cons_self
  have hleft := withoutGrant_touches s k d
  have hown : v.ownSource w.key = some b :=
    (State.ownSource_congr (hvt.panels.trans hleft.panels) (hvt.stations.trans hleft.stations) _).trans hb
  have hlevel : (v.key w.key).talkLevel = ((s.withoutGrant k d).key w.key).talkLevel := by
    rw [hkeep, withoutGrant_key]
  obtain ⟨hgrant, hentries⟩ := requestGrant_congr b d hlevel hvt.entries hvt.taps hvt.nextSerial
  have hgt := requestGrant_touches w.key b d v
  have hserved := hv.trans (promote_granted hown (hgrant.trans hg))
  have hkey : ∀ j, (leaveArbiter k s).key j =
      if j = w.key then { v.key w.key with standing := .current } else v.key j := fun j => by
    have hk' : ∀ i, ((requestGrant w.key b d v).1.setArbiter d { current := some w.key, waiting := ws }).key i =
        v.key i := fun i => congrArg (tget · i) hgt.keys
    rw [hserved, setStanding_key, hk', hk']
  have hev : (leaveArbiter k s).events = v.events := by
    rw [hserved]
    exact (setStanding_touches w.key .current _).events.trans ((setArbiter_touches _ d _).events.trans hgt.events)
  rw [hw, List.map_append, List.map_cons] at hn
  obtain ⟨-, hnw, hdisj⟩ := List.nodup_append.1 hn
  refine ⟨⟨?_, fun x hx => ?_, fun h => hev.trans (hnil h), fun h => ?_⟩, ?_, ?_, ?_, fun x hx => ?_⟩
  · rw [hkey, if_neg hwk.symm, hvk]
  · refine (hdropped x hx).of_after ?_
    rw [hkey, if_neg (hdisj x.key (List.mem_map_of_mem hx) w.key List.mem_cons_self)]
  · have hevent : (leaveArbiter k s).event .grantRefused = v.event .grantRefused :=
      congrArg (fun e => tget e EventKind.grantRefused.number) hev
    rw [hevent]
    exact hcons h
  · rw [hserved]
    exact State.arbiter_setArbiter_same _ d _
  · rw [hkey, if_pos rfl, hkeep]
  · rw [hserved]
    exact (setStanding_touches w.key .current _).entries.trans ((setArbiter_touches _ d _).entries.trans hentries)
  · have hxw : x.key ≠ w.key := fun h => (List.nodup_cons.1 hnw).1 (by rw [← h]; exact List.mem_map_of_mem hx)
    rw [hkey, if_neg hxw, hrest x (List.mem_cons_of_mem _ hx)]

/-- Settles O53, through the equations of a request and of a leaving, one for each way they end. -/
theorem arbiterServesKeys : Obligations.ArbiterServesKeys := by
  refine ⟨?_, ?_, ?_⟩
  · intro k src d s u store waiting ranked only
    refine ⟨fun m hm => requestArbiter_arbiter_ne hm k src s,
      (requestArbiter_touches k src d s).mono (by decide), fun hc => requestArbiter_free_serves hc, fun c hc => ?_⟩
    intro outranks
    refine ⟨fun hw => ?_, fun hr hg hck => ?_⟩
    · obtain ⟨he, hcur, hraised, hquiet⟩ := requestArbiter_taken_serves hc hw
      obtain ⟨v, hv, hk, ha, ht, -, -, -⟩ := requestArbiter_waits_serves hc hw
      have hserves := placeWaiting_serves (k := k) (d := d) hk ha ht
      rw [← hv] at hserves
      exact ⟨he, hcur, hraised, hquiet, hserves⟩
    · have hu : u = (preempt c d (s.preempting k src d), true) := requestArbiter_preempts hc hr hg
      obtain ⟨hentries, hevents⟩ := preempt_entries c d (s.preempting k src d)
      have hp := preempting_touches s k src d
      have hstore : (s.preempting k src d).entries = store.1.entries := (makeCurrent_touches k d store.1).entries
      have hown : (s.preempting k src d).ownSource c = s.ownSource c := State.ownSource_congr hp.panels hp.stations c
      have hevent : (s.preempting k src d).events = s.events :=
        (makeCurrent_touches k d store.1).events.trans (requestGrant_touches k src d s).events
      rw [hu]
      refine ⟨rfl, preempt_current, hevents.trans hevent, fun b hb => ?_, fun hb => ?_, ?_⟩
      · rw [hentries, State.withoutGrant, hown, hb]
        exact depart_congr _ _ _ hstore
      · rw [hentries, State.withoutGrant, hown, hb]
        exact hstore
      · have hserves := preempt_serves (k := k) (c := c) (src := src) (d := d) (s := s) hck
        simp only [only, hu]
        exact hserves
  · intro k d s ht hc t left grant
    have hleft : left = s.withoutGrant k d := rfl
    refine ⟨fun m hm => ?_, fun j hj hne => ?_, (leaveArbiter_touches k s).mono (by decide), ?_⟩
    · rw [show t = _ from leaveArbiter_current ht hc, promote_arbiter_ne hm]
      exact congrArg (tget · m) (withoutGrant_touches s k d).arbiters
    · rw [show t = _ from leaveArbiter_current ht hc, promote_key_other hne, setStanding_key, if_neg hj, withoutGrant_key]
    · intro dropped rest hw hn hk hr refused
      obtain ⟨v, hv, hvt, hvk, hdropped, hrest, hnil, hcons⟩ := leaveArbiter_serves ht hc hw hn hk hr
      refine ⟨fun hrn => ?_, fun w ws b hrest' hb hg => ?_⟩
      · have htv : t = v.setArbiter d { current := none, waiting := [] } := by
          rw [show t = _ from hv, hrn]
          rfl
        simp only [refused, htv]
        exact ⟨⟨hvk, hdropped, hnil, hcons⟩, State.arbiter_setArbiter_same v d _, hvt.entries⟩
      · subst hrest'
        exact leaveArbiter_grants ht hc hw hn hk hr hb hg
  · intro k d s ht hc t
    have heq := leaveArbiter_waiting ht hc
    refine ⟨fun hw => ?_, fun hw => ?_⟩
    · have htw : t = setStanding k .outside (s.withWaiting d ((s.arbiter d).waiting.filter fun w => decide (w.key ≠ k))) :=
        heq.trans (if_pos hw)
      rw [htw]
      refine ⟨(withWaiting_arbiter s d _ d).trans (if_pos rfl), fun m hm => (withWaiting_arbiter s d _ m).trans (if_neg hm),
        (setStanding_key k .outside _ k).trans (if_pos rfl), fun j hj => (setStanding_key k .outside _ j).trans (if_neg hj), ?_⟩
      exact (setArbiter_touches s d _).up.trans (setStanding_touches k .outside _).up
    · exact heq.trans (if_neg fun ⟨w, hmem, hk⟩ => hw w hmem hk)

end Sys2Proof.Machine
end

section
/-! PROOF. What no action of the key unit writes: a key's configuration and its physical-down flag, and a panel's record
but for its reply list and its pending lamps. -/

namespace Sys2Proof.Machine

/-- Key record q is r but for its state, standing, resolved station and timers. -/
def KeyMoved (r q : Key) : Prop :=
  q = { r with
    state := q.state, standing := q.standing, resolved := q.resolved, winkTimer := q.winkTimer
    latchTimer := q.latchTimer }

/-- Panel record q is r but for its reply list and pending lamps. -/
def PanelMoved (r q : Panel) : Prop := q = { r with replyList := q.replyList, lampPending := q.lampPending }

/-- What the key unit keeps of the keys and the panels as it acquires and gives up. -/
structure KeyUnitKept (s t : State) : Prop where
  keys : ∀ k, KeyMoved (s.key k) (t.key k)
  panels : ∀ p, PanelMoved (s.panel p) (t.panel p)

theorem KeyMoved.trans {r q p : Key} (h : KeyMoved r q) (k : KeyMoved q p) : KeyMoved r p := by
  unfold KeyMoved at *
  rw [k, h]

theorem PanelMoved.trans {r q p : Panel} (h : PanelMoved r q) (k : PanelMoved q p) : PanelMoved r p := by
  unfold PanelMoved at *
  rw [k, h]

namespace KeyUnitKept

theorem refl (s : State) : KeyUnitKept s s := ⟨fun _ => rfl, fun _ => rfl⟩

theorem trans {s t u : State} (h : KeyUnitKept s t) (k : KeyUnitKept t u) : KeyUnitKept s u :=
  ⟨fun i => (h.keys i).trans (k.keys i), fun i => (h.panels i).trans (k.panels i)⟩

theorem of_touches {l : List Fld} {s t : State} (h : Touches l s t) (hk : .keys ∉ l) (hp : .panels ∉ l) :
    KeyUnitKept s t where
  keys k := by rw [show t.key k = s.key k from congrArg (tget · k) (h.keys hk)]; rfl
  panels p := by rw [show t.panel p = s.panel p from congrArg (tget · p) (h.panels hp)]; rfl

theorem setKey {s : State} {k : KeyId} {r : Key} (h : KeyMoved (s.key k) r) : KeyUnitKept s (s.setKey k r) where
  keys j := by
    rw [State.key_setKey]
    split
    · next hj => rw [hj]; exact h
    · rfl
  panels _ := rfl

theorem setPanel {s : State} {p : PanelId} {r : Panel} (h : PanelMoved (s.panel p) r) : KeyUnitKept s (s.setPanel p r) where
  keys _ := rfl
  panels q := by
    rw [State.panel_setPanel]
    split
    · next hq => rw [hq]; exact h
    · rfl

theorem handKey (k : KeyId) (s : State) : KeyUnitKept s (handKey k s) :=
  of_touches (handKey_touches k s) (by decide) (by decide)

theorem writeKey {s : State} {k : KeyId} {r : Key} (h : KeyMoved (s.key k) r) :
    KeyUnitKept s (Machine.handKey k (s.setKey k r)) := (setKey h).trans (handKey k _)

theorem flushLamps (s : State) : KeyUnitKept s (flushLamps s) where
  keys k := by rw [show (Machine.flushLamps s).key k = s.key k from congrArg (tget · k) (flushLamps_touches s).keys]; rfl
  panels p := by
    unfold PanelMoved
    rw [flushLamps_panels s p]

theorem requestGrant (k : KeyId) (a : SourceId) (d : DestId) (s : State) : KeyUnitKept s (requestGrant k a d s).1 :=
  of_touches (requestGrant_touches k a d s) (by decide) (by decide)

theorem depart (h : Holder) (a : SourceId) (d : DestId) (s : State) : KeyUnitKept s (depart h a d s) :=
  of_touches (depart_touches h a d s) (by decide) (by decide)

theorem raise (k : EventKind) (i : Option Nat) (s : State) : KeyUnitKept s (raise k i s) :=
  of_touches (raise_touches k i s) (by decide) (by decide)

theorem setArbiter (s : State) (d : DestId) (r : Arbiter) : KeyUnitKept s (s.setArbiter d r) :=
  of_touches (setArbiter_touches s d r) (by decide) (by decide)

/-! ## The arbiters -/

theorem setStanding (k : KeyId) (st : Standing) (s : State) : KeyUnitKept s (setStanding k st s) := writeKey rfl

theorem startWink (k : KeyId) (s : State) : KeyUnitKept s (startWink k s) := writeKey rfl

theorem dropKey (k : KeyId) (s : State) : KeyUnitKept s (dropKey k s) := by
  refine ((setStanding k .outside s).trans (startWink k _)).trans ?_
  unfold Machine.dropKey
  exact writeKey rfl

theorem takeWaiting (d : DestId) (l : List Waiter) (k : KeyId) (r : Option KeyId) (s : State) :
    KeyUnitKept s (takeWaiting d l k r s).1 := by
  have hset : ∀ l, KeyUnitKept s (s.withWaiting d l) := fun l => setArbiter s d _
  by_cases hl : l.length ≤ 4
  · rw [takeWaiting_fits hl]
    exact (hset l).trans (setStanding k .waiting _)
  · have hne : l ≠ [] := fun hn => hl (by rw [hn]; exact Nat.zero_le 4)
    rw [takeWaiting_full (Nat.lt_of_not_le hl) (List.getLast?_eq_some_getLast hne)]
    split
    · exact hset _
    · refine .trans ?_ (dropKey _ _)
      split
      · exact hset _
      · exact (hset _).trans (setStanding k .waiting _)

theorem preempt (c : KeyId) (d : DestId) (s : State) : KeyUnitKept s (preempt c d s) := by
  rw [preempt_eq]
  exact (of_touches (withoutGrant_touches s c d) (by decide) (by decide)).trans (takeWaiting _ _ _ _ _)

theorem requestArbiter (k : KeyId) (a : SourceId) (d : DestId) (s : State) : KeyUnitKept s (requestArbiter k a d s).1 := by
  have hcurrent : KeyUnitKept s (s.preempting k a d) :=
    ((requestGrant k a d s).trans (setArbiter _ d _)).trans (setStanding k .current _)
  cases hc : (s.arbiter d).current with
  | none =>
    rw [requestArbiter_free hc]
    split
    · exact hcurrent
    · exact raise _ _ s
  | some c =>
    by_cases hr : s.outranks k c
    · rw [requestArbiter_outranks hc hr]
      split
      · exact hcurrent.trans (preempt c d _)
      · exact (raise _ _ s).trans (takeWaiting _ _ _ _ _)
    · rw [requestArbiter_behind hc hr]
      exact takeWaiting _ _ _ _ _

theorem promote (d : DestId) (l : List Waiter) (s : State) : KeyUnitKept s (promote d l s) := by
  induction l generalizing s with
  | nil => exact setArbiter s d _
  | cons w ws ih =>
    cases hb : s.ownSource w.key with
    | none =>
      rw [promote_sourceless hb]
      exact (dropKey _ s).trans (ih _)
    | some b =>
      cases hr : (Machine.requestGrant w.key b d s).2 with
      | false =>
        rw [promote_refused hb hr]
        exact ((raise _ _ s).trans (dropKey _ _)).trans (ih _)
      | true =>
        rw [promote_granted hb hr]
        exact ((requestGrant _ b d s).trans (setArbiter _ d _)).trans (setStanding _ .current _)

theorem leaveArbiter (k : KeyId) (s : State) : KeyUnitKept s (leaveArbiter k s) := by
  cases ht : (s.key k).target with
  | none =>
    unfold Machine.leaveArbiter
    rw [ht]
    exact refl s
  | some d =>
    by_cases hc : (s.arbiter d).current = some k
    · rw [leaveArbiter_current ht hc]
      refine .trans ?_ (promote d _ _)
      exact (of_touches (withoutGrant_touches s k d) (by decide) (by decide)).trans (setStanding k .outside _)
    · rw [leaveArbiter_waiting ht hc]
      split
      · exact (setArbiter s d _).trans (setStanding k .outside _)
      · exact refl s

end KeyUnitKept

end Sys2Proof.Machine
end

section
/-! PROOF. What each function of a key acquires and gives up (R115 to R118, R133, R134, R137, R144). -/

namespace Sys2Proof.Machine

/-! ## A grant on a pair -/

theorem acquireGrant_missing {k : KeyId} {src : Option SourceId} {d : Option DestId} {s : State}
    (h : src = none ∨ d = none) : acquireGrant k src d s = (s, false) := by
  rcases h with rfl | rfl
  · rfl
  · cases src <;> rfl

theorem acquireGrant_granted {k : KeyId} {a : SourceId} {b : DestId} {s : State} (h : (requestGrant k a b s).2 = true) :
    acquireGrant k (some a) (some b) s = ((requestGrant k a b s).1, true) := by
  unfold acquireGrant
  dsimp only
  rw [h]
  rfl

theorem acquireGrant_refused {k : KeyId} {a : SourceId} {b : DestId} {s : State} (h : (requestGrant k a b s).2 = false) :
    acquireGrant k (some a) (some b) s = (raise .grantRefused (some b.val) s, false) := by
  unfold acquireGrant
  dsimp only
  rw [h, requestGrant_refused_eq h]
  rfl

/-- R116: a grant requested on a pair, as the obligation states it. -/
theorem acquireGrant_answers {k : KeyId} {s : State} (hb : s.timing.atBoundary = false) (src : Option SourceId)
    (dst : Option DestId) :
    let u := acquireGrant k src dst s
    let granted := fun (a : SourceId) (b : DestId) => arrive (.grant k) (s.key k).talkLevel .talk a b s
    (src = none ∨ dst = none → u = (s, false)) ∧
      ∀ a b, src = some a → dst = some b →
        ((granted a b).2 = true → u = ((granted a b).1, true)) ∧
        ((granted a b).2 = false →
          u.2 = false ∧ Raised s u.1 .grantRefused (some b.val) ∧ Touches [.events, .notices] s u.1) := by
  intro u granted
  refine ⟨acquireGrant_missing, ?_⟩
  rintro a b rfl rfl
  refine ⟨fun h => acquireGrant_granted h, fun h => ?_⟩
  have hu : u = (raise .grantRefused (some b.val) s, false) := acquireGrant_refused h
  rw [hu]
  exact ⟨rfl, raise_raised _ _ _ hb, raise_touches_settled _ _ hb⟩

theorem acquire_talkStation {k : KeyId} {x : StationId} {s : State} (hf : (s.key k).function = .talkStation)
    (ht : (s.key k).targetStation = some x) : acquire k s = acquireGrant k (s.ownSource k) (s.station x).dest s := by
  unfold acquire
  rw [hf]
  dsimp only
  rw [ht]
  rfl

theorem acquire_listenStation {k : KeyId} {x : StationId} {s : State} (hf : (s.key k).function = .listenStation)
    (ht : (s.key k).targetStation = some x) : acquire k s = acquireGrant k (s.station x).source (s.ownDest k) s := by
  unfold acquire
  rw [hf]
  dsimp only
  rw [ht]
  rfl

/-! ## A reply -/

theorem acquire_reply {k : KeyId} {s : State} (hf : (s.key k).function = .reply) : acquire k s = acquireReply k s := by
  unfold acquire
  rw [hf]

theorem acquireReply_nil {k : KeyId} {s : State} (h : (s.panel (keyPanel k)).replyList = []) :
    acquireReply k s = (s, false) := by
  unfold acquireReply
  rw [h]

theorem removeCaller_panel (q : PanelId) (t : StationId) (s : State) (p : PanelId) :
    (removeCaller q t s).panel p =
      if p = q then { s.panel q with replyList := withoutCaller (s.panel q).replyList t } else s.panel p :=
  State.panel_setPanel s q _ p

theorem acquireReply_cons {k : KeyId} {e : ReplyEntry} {rest : List ReplyEntry} {s : State}
    (h : (s.panel (keyPanel k)).replyList = e :: rest) :
    acquireReply k s =
      let s1 := removeCaller (keyPanel k) e.station s
      let u := acquireGrant k (s.ownSource k) (s.station e.station).dest s1
      if u.2 = true then (handKey k (u.1.setKey k { u.1.key k with resolved := some e.station }), true)
      else (u.1, false) := by
  have hown : (removeCaller (keyPanel k) e.station s).ownSource k = s.ownSource k := by
    unfold State.ownSource State.ownStation
    rw [removeCaller_panel, if_pos rfl]
    rfl
  unfold acquireReply
  rw [h]
  dsimp only
  unfold State.talkPair
  rw [hown]
  rfl

theorem withoutCaller_cons (e : ReplyEntry) (rest : List ReplyEntry) :
    withoutCaller (e :: rest) e.station = rest.filter fun f => f.station != e.station := by
  unfold withoutCaller
  rw [List.filter_cons, if_neg (by simp)]

/-- R117, R118: a press of a REPLY key, as the obligation states it. -/
theorem acquireReply_answers {k : KeyId} {x : StationId} {s : State} (hb : s.timing.atBoundary = false) (e : ReplyEntry)
    (rest : List ReplyEntry) (hl : (s.panel (keyPanel k)).replyList = e :: rest) (hx : e.station = x) :
    let u := acquireReply k s
    let src := s.ownSource k
    let dst := (s.station x).dest
    let granted := fun (a : SourceId) (b : DestId) => arrive (.grant k) (s.key k).talkLevel .talk a b s
    (∀ p, u.1.panel p =
      if p = keyPanel k then { s.panel p with replyList := rest.filter fun f => f.station != x } else s.panel p) ∧
    (src = none ∨ dst = none → u.2 = false ∧ Touches [.panels, .lampDirty] s u.1) ∧
    ∀ a b, src = some a → dst = some b →
      ((granted a b).2 = true →
        u.2 = true ∧ u.1.entries = (granted a b).1.entries ∧ u.1.key k = { s.key k with resolved := some x } ∧
          (∀ j, j ≠ k → u.1.key j = s.key j) ∧
          Touches [.panels, .keys, .entries, .nextSerial, .lampDirty] s u.1) ∧
      ((granted a b).2 = false →
        u.2 = false ∧ Raised s u.1 .grantRefused (some b.val) ∧
          Touches [.panels, .events, .notices, .lampDirty] s u.1) := by
  subst hx
  intro u src dst granted
  let s1 := removeCaller (keyPanel k) e.station s
  have hremove : Touches [.panels, .lampDirty] s s1 := removeCaller_touches _ _ s
  have hb1 : s1.timing.atBoundary = false := hb
  have hpanel : ∀ p, s1.panel p =
      if p = keyPanel k then { s.panel p with replyList := rest.filter fun f => f.station != e.station } else s.panel p := by
    intro p
    rw [show s1.panel p = _ from removeCaller_panel (keyPanel k) e.station s p, hl, withoutCaller_cons]
    split
    · next hp => rw [hp]
    · rfl
  have heq : u = if (acquireGrant k src dst s1).2 = true then
      (handKey k ((acquireGrant k src dst s1).1.setKey k
        { (acquireGrant k src dst s1).1.key k with resolved := some e.station }), true)
      else ((acquireGrant k src dst s1).1, false) := acquireReply_cons hl
  have hgrant : ∀ a b, (requestGrant k a b s1).2 = (granted a b).2 ∧
      (requestGrant k a b s1).1.entries = (granted a b).1.entries := fun a b =>
    requestGrant_congr (s := s) (t := s1) a b rfl hremove.entries hremove.taps hremove.nextSerial
  have hmissing : src = none ∨ dst = none → u = (s1, false) := fun h => by
    rw [heq, acquireGrant_missing h]
    rfl
  have hok : ∀ a b, src = some a → dst = some b → (granted a b).2 = true →
      u = (handKey k ((requestGrant k a b s1).1.setKey k { s.key k with resolved := some e.station }), true) := by
    intro a b ha hb' hg
    have hk : (requestGrant k a b s1).1.key k = s.key k := congrArg (tget · k) (requestGrant_touches k a b s1).keys
    rw [heq, ha, hb', acquireGrant_granted ((hgrant a b).1.trans hg), if_pos rfl, hk]
  have hfull : ∀ a b, src = some a → dst = some b → (granted a b).2 = false →
      u = (raise .grantRefused (some b.val) s1, false) := by
    intro a b ha hb' hg
    rw [heq, ha, hb', acquireGrant_refused ((hgrant a b).1.trans hg)]
    rfl
  refine ⟨fun p => ?_, fun h => ?_, fun a b ha hb' => ⟨fun hg => ?_, fun hg => ?_⟩⟩
  · rw [← hpanel]
    cases ha : src with
    | none => rw [hmissing (.inl ha)]
    | some a =>
      cases hd : dst with
      | none => rw [hmissing (.inr hd)]
      | some b =>
        cases hg : (granted a b).2 with
        | true =>
          rw [hok a b ha hd hg]
          exact congrArg (tget · p) (requestGrant_touches k a b s1).panels
        | false =>
          rw [hfull a b ha hd hg]
          exact congrArg (tget · p) (raise_touches _ _ s1).panels
  · rw [hmissing h]
    exact ⟨rfl, hremove⟩
  · rw [hok a b ha hb' hg]
    refine ⟨rfl, (hgrant a b).2, State.key_setKey_same _ k _, fun j hj => ?_, ?_⟩
    · refine ((State.key_setKey _ k _ j).trans (if_neg hj)).trans ?_
      exact congrArg (tget · j) (requestGrant_touches k a b s1).keys
    · exact ((hremove.up.trans (requestGrant_touches k a b s1).up).trans (setKey_touches _ k _).up).trans
        (handKey_touches k _).up
  · rw [hfull a b ha hb' hg]
    obtain ⟨h1, h2, h3⟩ := raise_raised .grantRefused (some b.val) s1 hb1
    exact ⟨rfl, ⟨h1, h2, h3⟩, hremove.up.trans (raise_touches_settled .grantRefused (some b.val) hb1).up⟩

end Sys2Proof.Machine
end

section
/-! PROOF. Calls, talk flags and arbiters as keys acquire and give them up (R115, R133, R134, R137, R144). -/

namespace Sys2Proof.Machine

/-! ## Calls -/

theorem placeCall_panel (c : StationId) (q : PanelId) (s : State) (p : PanelId) :
    (placeCall c q s).panel p =
      if p = q then
        { s.panel q with
            replyList :=
              ({ station := c, expiresAt := s.after (ofMs (1000 * (s.panel q).replyExpiry)) } ::
                withoutCaller (s.panel q).replyList c).take 4 }
      else s.panel p :=
  State.panel_setPanel s q _ p

theorem placeCalls_panel (c : StationId) {l : List PanelId} (hn : l.Nodup) (s : State) (p : PanelId) :
    (l.foldl (fun t q => placeCall c q t) s).panel p =
      if p ∈ l then
        { s.panel p with
            replyList :=
              ({ station := c, expiresAt := s.after (ofMs (1000 * (s.panel p).replyExpiry)) } ::
                withoutCaller (s.panel p).replyList c).take 4 }
      else s.panel p := by
  refine foldl_each (get := State.panel) (R := fun t => t.timing = s.timing)
    (h := fun _ r => { r with
      replyList := ({ station := c, expiresAt := s.after (ofMs (1000 * r.replyExpiry)) } ::
        withoutCaller r.replyList c).take 4 })
    (fun t q ht => ?_) (fun t q j hj => ?_) (fun t q ht => ?_) hn rfl p
  · exact (placeCall_touches c q t).timing.trans ht
  · rw [placeCall_panel, if_neg hj]
  · rw [placeCall_panel, if_pos rfl]
    simp only [State.after, ht]

theorem mem_receivers {s : State} {q : PanelId} {x : StationId} {p : PanelId} :
    p ∈ s.receivers q x ↔ p ≠ q ∧ (s.panel p).configured = true ∧ (s.panel p).ownStation = x := by
  simp only [State.receivers, State.configuredPanels, List.mem_filter, mem_allOf, true_and, Bool.and_eq_true, bne_iff_ne,
    beq_iff_eq]
  tauto

theorem acquire_call {k : KeyId} {x : StationId} {s : State} (hf : (s.key k).function = .callStation)
    (ht : (s.key k).targetStation = some x) :
    acquire k s =
      if x = s.ownStation k ∨ s.receivers (keyPanel k) x = [] then (s, false)
      else ((s.receivers (keyPanel k) x).foldl (fun t q => placeCall (s.ownStation k) q t) s, true) := by
  unfold acquire
  rw [hf]
  dsimp only
  unfold acquireCall
  rw [ht]

theorem giveUp_call {k : KeyId} {s : State} (hf : (s.key k).function = .callStation) : giveUp k s = s := by
  unfold giveUp
  rw [hf]

/-- R137: a press of a CALL_STATION key, as the obligation states it. -/
theorem acquireCall_answers {k : KeyId} {x : StationId} {s : State} (hf : (s.key k).function = .callStation)
    (ht : (s.key k).targetStation = some x) :
    let c := s.ownStation k
    let called := fun (q : PanelId) => q ≠ keyPanel k ∧ (s.panel q).configured = true ∧ (s.panel q).ownStation = x
    let u := acquire k s
    (x = c ∨ (∀ q, ¬called q) → u = (s, false)) ∧
      (x ≠ c → (∃ q, called q) →
        u.2 = true ∧ Touches [.panels, .lampDirty] s u.1 ∧
        ∀ q,
          (called q → u.1.panel q =
            { s.panel q with
                replyList :=
                  ({ station := c
                     expiresAt := s.timing.sample + BitVec.ofNat 32 (48000 * (s.panel q).replyExpiry) } ::
                    (s.panel q).replyList.filter fun e => e.station != c).take 4 }) ∧
          (¬called q → u.1.panel q = s.panel q)) := by
  intro c called u
  have hu := acquire_call hf ht
  refine ⟨fun h => hu.trans (if_pos (h.imp_right fun h => ?_)), fun hx hq => ?_⟩
  · exact List.eq_nil_iff_forall_not_mem.2 fun q hq => h q (mem_receivers.1 hq)
  · have hne : ¬(x = s.ownStation k ∨ s.receivers (keyPanel k) x = []) := fun h => by
      rcases h with h | h
      · exact hx h
      · obtain ⟨q, hq⟩ := hq
        have := mem_receivers.2 hq
        rw [h] at this
        cases this
    rw [show u = _ from hu, if_neg hne]
    have hnodup : (s.receivers (keyPanel k) x).Nodup := ((allOf_nodup 48).filter _).filter _
    refine ⟨rfl, Touches.foldl (fun t q => placeCall_touches c q t) _ s, fun q => ⟨fun hq => ?_, fun hq => ?_⟩⟩
    · refine (placeCalls_panel c hnodup s q).trans ((if_pos (mem_receivers.2 hq)).trans ?_)
      have htime : 48 * (1000 * (s.panel q).replyExpiry) = 48000 * (s.panel q).replyExpiry := by omega
      simp only [State.after, ofMs, htime, withoutCaller]
    · exact (placeCalls_panel c hnodup s q).trans (if_neg fun h => hq (mem_receivers.1 h))

/-! ## Talk flags -/

theorem setTalk_absent {p : PartyId} {c : StationId} {on : Bool} {s : State} (h : (s.party p).find c = none) :
    setTalk p c on s = s := by
  unfold setTalk
  rw [h]

theorem setTalk_already {p : PartyId} {c : StationId} {m : Member} {on : Bool} {s : State}
    (h : (s.party p).find c = some m) (ht : m.talk = on) : setTalk p c on s = s := by
  unfold setTalk
  rw [h]
  exact if_pos ht

theorem setTalk_moves {p : PartyId} {c : StationId} {m : Member} {on : Bool} {s : State}
    (h : (s.party p).find c = some m) (ht : m.talk ≠ on) :
    setTalk p c on s = handTalk p c (changeParty p ((s.party p).mapMember c fun m => { m with talk := on }) s) := by
  unfold setTalk
  rw [h]
  exact if_neg ht

theorem setTalk_party {p : PartyId} {c : StationId} {m : Member} {on : Bool} {s : State}
    (h : (s.party p).find c = some m) (ht : m.talk ≠ on) (q : PartyId) :
    (setTalk p c on s).party q =
      if q = p then
        { s.party p with
            members := (s.party p).members.map fun m => if m.station = c then { m with talk := on } else m }
      else s.party q := by
  have hmap : (s.party p).mapMember c (fun m => { m with talk := on }) =
      { s.party p with
          members := (s.party p).members.map fun m => if m.station = c then { m with talk := on } else m } := by
    simp only [Party.mapMember, beq_iff_eq]
  rw [setTalk_moves h ht, ← hmap]
  exact (congrArg (tget · q) (handTalk_touches p c _).parties).trans (changeParty_party p _ s q)

theorem acquire_talk {k : KeyId} {p : PartyId} {s : State} (hf : (s.key k).function = .talkParty)
    (ht : (s.key k).targetParty = some p) :
    acquire k s =
      if (s.party p).find (s.ownStation k) = none ∨ s.ownSource k = none then (s, false)
      else (setTalk p (s.ownStation k) true s, true) := by
  unfold acquire
  rw [hf]
  dsimp only
  unfold acquireTalk
  rw [ht]
  dsimp only
  cases (s.party p).find (s.ownStation k) with
  | none => rfl
  | some m =>
    cases s.ownSource k with
    | none => rfl
    | some a => rfl

/-- R134: another key in an on state holds the talk flag of k's own station in party p. -/
def State.talkHeld (s : State) (k : KeyId) (p : PartyId) : Prop :=
  ∃ j, j ≠ k ∧ (s.panel (keyPanel j)).ownStation = s.ownStation k ∧ (s.key j).targetParty = some p ∧
    ((s.key j).state = .pressed ∨ (s.key j).state = .momentaryOn ∨ (s.key j).state = .latched)

theorem isOn_iff (st : KeyState) : st.isOn = true ↔ st = .pressed ∨ st = .momentaryOn ∨ st = .latched := by
  cases st <;> simp [KeyState.isOn]

theorem talkHeldElsewhere_iff (s : State) (k : KeyId) (p : PartyId) : s.talkHeldElsewhere k p = true ↔ s.talkHeld k p := by
  simp only [State.talkHeldElsewhere, State.talkHeld, List.any_eq_true, Bool.and_eq_true, beq_iff_eq, bne_iff_ne, mem_allOf,
    true_and, isOn_iff]
  constructor
  · rintro ⟨q, hq, j, hj, ⟨hjk, hon⟩, ht⟩
    rw [mem_panelKeys] at hj
    subst hj
    exact ⟨j, hjk, hq, ht, hon⟩
  · rintro ⟨j, hjk, hq, ht, hon⟩
    exact ⟨keyPanel j, hq, j, mem_panelKeys.2 rfl, ⟨hjk, hon⟩, ht⟩

theorem giveUp_talk {k : KeyId} {p : PartyId} {s : State} (hf : (s.key k).function = .talkParty)
    (ht : (s.key k).targetParty = some p) :
    (s.talkHeld k p → giveUp k s = s) ∧ (¬s.talkHeld k p → giveUp k s = setTalk p (s.ownStation k) false s) := by
  have h : giveUp k s = if s.talkHeldElsewhere k p = true then s else setTalk p (s.ownStation k) false s := by
    unfold giveUp
    rw [hf]
    dsimp only
    unfold surrenderTalk
    rw [ht]
  rw [h, ← talkHeldElsewhere_iff]
  exact ⟨fun h => if_pos h, fun h => if_neg h⟩

/-! ## The pairs that a talk flag makes wanted -/

/-- The first entry of the pair records party p. -/
def State.FirstHolds (s : State) (p : PartyId) (src : SourceId) (d : DestId) : Prop :=
  ∃ e, s.findEntry src d = some e ∧ e.holds (.party p) = true

theorem FirstHolds.partyHolds {s : State} {p : PartyId} {src : SourceId} {d : DestId} (h : s.FirstHolds p src d) :
    s.PartyHolds p src d := by
  obtain ⟨e, he, hp⟩ := h
  exact ⟨e, List.mem_of_find?_eq_some he, by simpa using List.find?_some he, (Entry.mem_parties e p).2 hp⟩

theorem arrive_keeps_first {h : Holder} {l : Level} {c : EntryClass} {a : SourceId} {b : DestId} {s : State}
    {q : PartyId} {src : SourceId} {d : DestId} (hh : s.FirstHolds q src d) :
    (arrive h l c a b s).1.FirstHolds q src d := by
  obtain ⟨e, he, hq⟩ := hh
  cases hf : s.findEntry a b with
  | none =>
    cases hr : s.hasRoom b 1 with
    | false => rw [arrive_full hf hr]; exact ⟨e, he, hq⟩
    | true =>
      rw [arrive_new hf hr]
      refine ⟨e, (findEntry_createEntry _ _ _ _ _ s hf _ _).trans ((if_neg ?_).trans he), hq⟩
      rintro ⟨rfl, rfl⟩
      rw [hf] at he
      cases he
  | some e' =>
    unfold State.FirstHolds
    rw [findEntry_arrive_found hf]
    split
    · rename_i hc
      obtain ⟨rfl, rfl, -⟩ := hc
      rw [hf] at he
      cases he
      exact ⟨_, rfl, by rw [Entry.holds_joined, hq, Bool.or_true]⟩
    · exact ⟨e, he, hq⟩

/-- R127: what a request of a party settles stays settled: the pair held, or GRANT_REFUSED set. -/
def State.PairSettled (s : State) (p : PartyId) (x : MemberPair) : Prop :=
  s.FirstHolds p x.source x.dest ∨ (s.event .grantRefused).isSet = true

theorem requestPair_keeps_settled {p q : PartyId} {lv : Level} {s : State} {x y : MemberPair} (h : s.PairSettled q x) :
    (requestPair p lv s y).PairSettled q x := by
  refine h.imp (fun h => ?_) requestPair_keeps_isSet
  have ha := arrive_keeps_first (h := .party p) (l := lv) (c := .talk) (a := y.source) (b := y.dest) h
  unfold requestPair
  dsimp only
  split
  · exact ha
  · unfold State.FirstHolds
    rw [State.findEntry_congr (raise_touches _ _ _).entries]
    exact ha

theorem requestPair_settled {p : PartyId} {lv : Level} {s : State} {x : MemberPair} :
    (requestPair p lv s x).PairSettled p x := by
  cases hroom : decide (s.findEntry x.source x.dest = none) && !s.hasRoom x.dest 1 with
  | true =>
    simp only [Bool.and_eq_true, decide_eq_true_eq, Bool.not_eq_true'] at hroom
    right
    unfold requestPair
    rw [arrive_full hroom.1 hroom.2]
    dsimp only
    rw [if_neg Bool.false_ne_true, raise_event]
    rfl
  | false =>
    have hr : s.findEntry x.source x.dest = none → s.hasRoom x.dest 1 = true := fun h => by simpa [h] using hroom
    have hheld : (arrive (.party p) lv .talk x.source x.dest s).1.FirstHolds p x.source x.dest :=
      arrive_holds rfl hr
    left
    unfold requestPair
    dsimp only
    split
    · exact hheld
    · unfold State.FirstHolds
      rw [State.findEntry_congr (raise_touches _ _ _).entries]
      exact hheld

theorem requestPairs_settled {p : PartyId} {lv : Level} {l : List MemberPair} {s : State} {x : MemberPair} (hx : x ∈ l) :
    (l.foldl (requestPair p lv) s).PairSettled p x := by
  induction l generalizing s with
  | nil => cases hx
  | cons y l ih =>
    rw [List.foldl_cons]
    rcases List.mem_cons.1 hx with rfl | hx
    · exact foldl_keeps (P := fun t => State.PairSettled t p x) (fun t y h => requestPair_keeps_settled h) l _
        requestPair_settled
    · exact ih hx

/-- R127: a change of a party settles each pair that it newly wants. -/
theorem changeParty_settles {p : PartyId} {r : Party} {s : State} {x : MemberPair} (hx : x ∈ s.satisfied r)
    (hnew : ∀ y ∈ s.satisfied (s.party p), ¬(y.talker = x.talker ∧ y.listener = x.listener)) :
    (changeParty p r s).PairSettled p x := by
  refine requestPairs_settled (List.mem_filter.2 ⟨hx, ?_⟩)
  rw [Bool.not_eq_true', List.any_eq_false]
  intro y hy h
  exact hnew y hy (by simpa using h)

/-- R127: setting the talk flag of station c settles each pair that c talks on to a listener with a destination. -/
theorem setTalk_settles {p : PartyId} {c : StationId} {m y : Member} {s : State} {a : SourceId} {b : DestId}
    (hm : (s.party p).find c = some m) (hoff : ∀ n ∈ (s.party p).members, n.station = c → n.talk = false)
    (hen : (s.party p).enabled = true) (ha : (s.station c).source = some a) (hy : y ∈ (s.party p).members)
    (hl : y.listen = true) (hyc : y.station ≠ c) (hb : (s.station y.station).dest = some b) :
    (setTalk p c true s).PartyHolds p a b ∨ ((setTalk p c true s).event .grantRefused).isSet = true := by
  have hmem : m ∈ (s.party p).members := List.mem_of_find?_eq_some hm
  have hmc : m.station = c := by simpa using List.find?_some hm
  have hquiet := hoff m hmem hmc
  let r := (s.party p).mapMember c fun n => { n with talk := true }
  have hpair : (⟨c, y.station, a, b⟩ : MemberPair) ∈ s.satisfied r := by
    refine State.mem_satisfied.2 ⟨hen, { m with talk := true }, ?_, y, ?_, hmc, rfl, ?_, rfl, ?_, hl, hb⟩
    · exact List.mem_map.2 ⟨m, hmem, if_pos (beq_iff_eq.2 hmc)⟩
    · exact List.mem_map.2 ⟨y, hy, if_neg fun h => hyc (beq_iff_eq.1 h)⟩
    · exact fun h => hyc (h.symm.trans hmc)
    · exact hmc ▸ ha
  have hnew : ∀ z ∈ s.satisfied (s.party p), ¬(z.talker = c ∧ z.listener = y.station) := by
    rintro z hz ⟨hzc, -⟩
    obtain ⟨-, n, hn, -, -, hnz, -, -, ht, -⟩ := State.mem_satisfied.1 hz
    rw [hoff n hn (hnz.trans hzc)] at ht
    cases ht
  have hset := setTalk_moves (p := p) (on := true) hm (by rw [hquiet]; decide)
  have hhand := handTalk_touches p c (changeParty p r s)
  refine (changeParty_settles hpair hnew).imp (fun h => ?_) fun h => ?_
  · rw [hset]
    exact (PartyHolds.congr hhand.entries).2 (FirstHolds.partyHolds h)
  · rw [hset, State.event, hhand.events]
    exact h

theorem setTalk_partyInv (p : PartyId) (c : StationId) (on : Bool) (s : State) (hs : StoreInv s) (hp : PartyInv s) :
    PartyInv (setTalk p c on s) := by
  cases hm : (s.party p).find c with
  | none => rw [setTalk_absent hm]; exact hp
  | some m =>
    by_cases ht : m.talk = on
    · rw [setTalk_already hm ht]
      exact hp
    · rw [setTalk_moves hm ht]
      have hhand := handTalk_touches p c (changeParty p ((s.party p).mapMember c fun n => { n with talk := on }) s)
      have hinv := changeParty_partyInv p ((s.party p).mapMember c fun n => { n with talk := on }) s hs hp
      rw [partyInv_iff] at hinv ⊢
      intro q src d hq
      exact (hinv q src d ((PartyHolds.congr hhand.entries).1 hq)).congr (congrArg (tget · q) hhand.parties) hhand.stations

/-- R133, R134: TALK_PARTY, as the obligation states it. -/
theorem talkParty_answers {k : KeyId} {p : PartyId} {s : State} (hf : (s.key k).function = .talkParty)
    (ht : (s.key k).targetParty = some p) :
    let c := s.ownStation k
    let source := (s.station c).source
    let u := acquire k s
    let v := giveUp k s
    let held : Prop := s.talkHeld k p
    let talks := fun (b : Bool) =>
      { s.party p with members := (s.party p).members.map fun m => if m.station = c then { m with talk := b } else m }
    ((s.party p).find c = none ∨ source = none → u = (s, false)) ∧
    ((s.party p).find c = none ∨ held → v = s) ∧
    ∀ m, (s.party p).find c = some m →
      (source ≠ none → m.talk = true → u = (s, true)) ∧
      (source ≠ none → m.talk = false →
        u.2 = true ∧ u.1.party p = talks true ∧ (∀ q, q ≠ p → u.1.party q = s.party q) ∧ Touches partyFields s u.1 ∧
        ((∀ m' ∈ (s.party p).members, m'.station = c → m'.talk = false) → (s.party p).enabled = true →
          ∀ a y b, source = some a → y ∈ (s.party p).members → y.listen = true → y.station ≠ c →
            (s.station y.station).dest = some b →
            (∃ e ∈ u.1.entriesOf b, e.source = a ∧ p ∈ e.parties) ∨ (u.1.event .grantRefused).isSet = true)) ∧
      (m.talk = false → v = s) ∧
      (¬held → m.talk = true →
        v.party p = talks false ∧ (∀ q, q ≠ p → v.party q = s.party q) ∧ Touches partyFields s v ∧
          (StoreInv s → PartyInv s → ∀ d, ∀ e ∈ v.entriesOf d, p ∈ e.parties → Wanted v p e.source d)) := by
  intro c source u v held talks
  have hu : u = if (s.party p).find c = none ∨ source = none then (s, false) else (setTalk p c true s, true) :=
    acquire_talk hf ht
  obtain ⟨hheld, hfree⟩ := giveUp_talk hf ht
  refine ⟨fun h => hu.trans (if_pos h), fun h => ?_, fun m hm => ?_⟩
  · by_cases hh : held
    · exact hheld hh
    · exact (hfree hh).trans (setTalk_absent (h.resolve_right hh))
  · have htaken : source ≠ none → u = (setTalk p c true s, true) := fun hs =>
      hu.trans (if_neg fun h => h.elim (fun h => by rw [hm] at h; cases h) hs)
    refine ⟨fun hs hon => ?_, fun hs hoff => ?_, fun hoff => ?_, fun hh hon => ?_⟩
    · rw [htaken hs, setTalk_already hm hon]
    · have hne : m.talk ≠ true := by rw [hoff]; decide
      rw [htaken hs]
      refine ⟨rfl, (setTalk_party hm hne p).trans (if_pos rfl), fun q hq => (setTalk_party hm hne q).trans (if_neg hq),
        setTalk_touches p c true s, fun hall hen a y b ha hy hl hyc hb => ?_⟩
      exact setTalk_settles hm hall hen ha hy hl hyc hb
    · by_cases hh : held
      · exact hheld hh
      · exact (hfree hh).trans (setTalk_already hm hoff)
    · have hne : m.talk ≠ false := by rw [hon]; decide
      rw [show v = setTalk p c false s from hfree hh]
      exact ⟨(setTalk_party hm hne p).trans (if_pos rfl), fun q hq => (setTalk_party hm hne q).trans (if_neg hq),
        setTalk_touches p c false s, fun hs hp d e he hpe => setTalk_partyInv p c false s hs hp d e he p hpe⟩

/-! ## Ears and grants given up -/

theorem acquire_ifb {k : KeyId} {d : DestId} {s : State} (hf : (s.key k).function = .ifb)
    (ht : (s.key k).target = some d) :
    acquire k s =
      match s.ownSource k with
      | some a => if (s.dest d).kind = .ifb then requestArbiter k a d s else (s, false)
      | none => (s, false) := by
  unfold acquire
  rw [hf]
  dsimp only
  unfold acquireIfb
  rw [ht]
  cases s.ownSource k <;> rfl

theorem giveUp_ifb {k : KeyId} {s : State} (hf : (s.key k).function = .ifb) : giveUp k s = leaveArbiter k s := by
  unfold giveUp
  rw [hf]

/-- R144: IFB, as the obligation states it. -/
theorem ifb_answers {k : KeyId} {d : DestId} {s : State} (hf : (s.key k).function = .ifb)
    (ht : (s.key k).target = some d) :
    giveUp k s = leaveArbiter k s ∧
      ((s.dest d).kind ≠ .ifb ∨ s.ownSource k = none → acquire k s = (s, false)) ∧
      ∀ a, (s.dest d).kind = .ifb → s.ownSource k = some a → acquire k s = requestArbiter k a d s := by
  refine ⟨giveUp_ifb hf, fun h => ?_, fun a hk ha => ?_⟩
  · rw [acquire_ifb hf ht]
    cases hs : s.ownSource k with
    | none => rfl
    | some a => exact if_neg (h.resolve_right (by rw [hs]; exact nofun))
  · rw [acquire_ifb hf ht, ha]
    exact if_pos hk

/-- The pair of the grant that a TALK_STATION, LISTEN_STATION or REPLY key in an on state may hold. -/
def State.StationPair (s : State) (k : KeyId) (x : StationId) (a : SourceId) (b : DestId) : Prop :=
  let r := s.key k
  (r.function = .talkStation ∧ r.targetStation = some x ∧ s.ownSource k = some a ∧ (s.station x).dest = some b) ∨
    (r.function = .listenStation ∧ r.targetStation = some x ∧ (s.station x).source = some a ∧ s.ownDest k = some b) ∨
    (r.function = .reply ∧ r.resolved = some x ∧ s.ownSource k = some a ∧ (s.station x).dest = some b)

theorem grantPair_station {k : KeyId} {x : StationId} {a : SourceId} {b : DestId} {s : State}
    (hon : (s.key k).state.isOn = true) (h : s.StationPair k x a b) : s.grantPair k = some (a, b) := by
  unfold State.grantPair
  dsimp only
  rcases h with ⟨hf, ht, ha, hb⟩ | ⟨hf, ht, ha, hb⟩ | ⟨hf, ht, ha, hb⟩
  all_goals
    rw [hf]
    dsimp only
    rw [ht]
    dsimp only
    rw [if_pos hon]
  · simp only [State.talkPair, ha, hb]
  · simp only [State.listenPair, ha, hb]
  · simp only [State.talkPair, ha, hb]

/-- R115: the grant of a station's key given up, as the obligation states it. -/
theorem giveUp_station {k : KeyId} {x : StationId} {a : SourceId} {b : DestId} {s : State}
    (hon : (s.key k).state.isOn = true) (h : s.StationPair k x a b) :
    s.grantPair k = some (a, b) ∧ (giveUp k s).entries = (depart (.grant k) a b s).entries ∧
      (∀ j, j ≠ k → (giveUp k s).key j = s.key j) ∧
      ((giveUp k s).key k =
        if (s.key k).function = .reply then { s.key k with resolved := none } else s.key k) ∧
      Touches [.keys, .entries, .lampDirty] s (giveUp k s) := by
  have hpair := grantPair_station hon h
  have hgrant : surrenderGrant k s = depart (.grant k) a b s := by
    unfold surrenderGrant
    rw [hpair]
  have hd : Touches [.entries, .lampDirty] s (depart (.grant k) a b s) := depart_touches_held _ _ _ _
  have hkey : ∀ j, (depart (.grant k) a b s).key j = s.key j := fun j => congrArg (tget · j) hd.keys
  refine ⟨hpair, ?_⟩
  have hplain : (s.key k).function = .talkStation ∨ (s.key k).function = .listenStation →
      giveUp k s = depart (.grant k) a b s := fun hf => by
    unfold giveUp
    rcases hf with hf | hf <;> rw [hf] <;> exact hgrant
  by_cases hr : (s.key k).function = .reply
  · have hgive : giveUp k s = handKey k ((depart (.grant k) a b s).setKey k { s.key k with resolved := none }) := by
      unfold giveUp
      rw [hr]
      dsimp only
      rw [hgrant, hkey]
    rw [hgive]
    refine ⟨rfl, fun j hj => ((State.key_setKey _ k _ j).trans (if_neg hj)).trans (hkey j), ?_, ?_⟩
    · rw [if_pos hr]
      exact State.key_setKey_same _ k _
    · exact (hd.up.trans (setKey_touches _ k _).up).trans (handKey_touches k _).up
  · have hf : (s.key k).function = .talkStation ∨ (s.key k).function = .listenStation := by
      rcases h with h | h | h
      · exact .inl h.1
      · exact .inr h.1
      · exact absurd h.1 hr
    rw [hplain hf, if_neg hr]
    exact ⟨rfl, fun j _ => hkey j, hkey k, hd.up⟩

end Sys2Proof.Machine
end

section
/-! PROOF. What the key unit keeps of keys and panels as actions are acquired and given up. -/

namespace Sys2Proof.Machine

namespace KeyUnitKept

/-! ## Actions acquired and given up -/

theorem acquireGrant (k : KeyId) (a : Option SourceId) (b : Option DestId) (s : State) :
    KeyUnitKept s (acquireGrant k a b s).1 := by
  cases a with
  | none => exact refl s
  | some a =>
    cases b with
    | none => exact refl s
    | some b =>
      cases hr : (Machine.requestGrant k a b s).2 with
      | true => rw [acquireGrant_granted hr]; exact requestGrant k a b s
      | false => rw [acquireGrant_refused hr]; exact raise _ _ s

theorem removeCaller (q : PanelId) (t : StationId) (s : State) : KeyUnitKept s (removeCaller q t s) := by
  refine .trans ?_ (of_touches (handReply_touches q _) (by decide) (by decide))
  exact setPanel (r := { s.panel q with replyList := withoutCaller (s.panel q).replyList t }) rfl

theorem placeCall (c : StationId) (q : PanelId) (s : State) : KeyUnitKept s (placeCall c q s) where
  keys k := by rw [show (Machine.placeCall c q s).key k = s.key k from congrArg (tget · k) (placeCall_touches c q s).keys]; rfl
  panels p := by
    rw [placeCall_panel]
    split
    · next hp => rw [hp]; rfl
    · rfl

theorem acquireReply (k : KeyId) (s : State) : KeyUnitKept s (acquireReply k s).1 := by
  cases hl : (s.panel (keyPanel k)).replyList with
  | nil => rw [acquireReply_nil hl]; exact refl s
  | cons e rest =>
    have hremove := removeCaller (keyPanel k) e.station s
    rw [acquireReply_cons hl]
    dsimp only
    split
    · exact (hremove.trans (acquireGrant k _ _ _)).trans (writeKey rfl)
    · exact hremove.trans (acquireGrant k _ _ _)

theorem setTalk (p : PartyId) (t : StationId) (on : Bool) (s : State) : KeyUnitKept s (setTalk p t on s) :=
  of_touches (setTalk_touches p t on s) (by decide) (by decide)

theorem acquireTalk (k : KeyId) (s : State) : KeyUnitKept s (acquireTalk k s).1 :=
  of_touches (acquireTalk_touches k s) (by decide) (by decide)

theorem acquireCall (k : KeyId) (s : State) : KeyUnitKept s (acquireCall k s).1 := by
  have hplace : ∀ c (l : List PanelId) u, KeyUnitKept u (l.foldl (fun t q => Machine.placeCall c q t) u) := fun c l u =>
    foldl_keeps (P := fun t => KeyUnitKept u t) (fun t q h => h.trans (placeCall c q t)) l u (refl u)
  unfold Machine.acquireCall
  split
  · exact refl s
  · dsimp only
    split
    · exact refl s
    · exact hplace _ _ s

theorem acquireIfb (k : KeyId) (s : State) : KeyUnitKept s (acquireIfb k s).1 := by
  unfold Machine.acquireIfb
  split
  · split
    · exact requestArbiter _ _ _ s
    · exact refl s
  · exact refl s

theorem acquire (k : KeyId) (s : State) : KeyUnitKept s (acquire k s).1 := by
  unfold Machine.acquire
  split
  · exact refl s
  · split
    · exact acquireGrant k _ _ s
    · exact refl s
  · split
    · exact acquireGrant k _ _ s
    · exact refl s
  · exact acquireTalk k s
  · exact acquireIfb k s
  · exact acquireCall k s
  · exact acquireReply k s

theorem surrenderGrant (k : KeyId) (s : State) : KeyUnitKept s (surrenderGrant k s) := by
  unfold Machine.surrenderGrant
  split
  · exact depart _ _ _ s
  · exact refl s

theorem giveUp (k : KeyId) (s : State) : KeyUnitKept s (giveUp k s) := by
  unfold Machine.giveUp
  split
  · exact refl s
  · exact surrenderGrant k s
  · exact surrenderGrant k s
  · exact (surrenderGrant k s).trans (writeKey rfl)
  · exact of_touches (surrenderTalk_touches k s) (by decide) (by decide)
  · exact leaveArbiter k s
  · exact refl s

theorem enterState (k : KeyId) (st : KeyState) (s : State) : KeyUnitKept s (enterState k st s) := writeKey rfl

theorem lossRelease (k : KeyId) (s : State) : KeyUnitKept s (lossRelease k s) := by
  unfold Machine.lossRelease
  split
  · exact (giveUp k s).trans (enterState k .idle _)
  · exact enterState k .idle s

theorem applyPolicy (pol : LossPolicy) (p : PanelId) (s : State) : KeyUnitKept s (applyPolicy pol p s) :=
  foldl_keeps (P := fun t => KeyUnitKept s t) (fun t k h => by
    split
    · exact h.trans ((lossRelease k t).trans (flushLamps _))
    · exact h) _ s (refl s)

end KeyUnitKept

end Sys2Proof.Machine
end

section
/-! PROOF. A press and a release of a key (R106, R110 to R115). -/

namespace Sys2Proof.Machine

/-! ## One key written and its lamp derived -/

/-- From u to t key k is written as x, and of the panels only lamps to be sent may differ. -/
def Moved (k : KeyId) (u t : State) (x : Key) : Prop :=
  t.key k = x ∧ (∀ j, j ≠ k → t.key j = u.key j) ∧ PanelsButLamps u t ∧ Touches [.keys, .panels, .lampDirty] u t

theorem flushLamps_moved {k : KeyId} {u v : State} {x : Key} (hk : v.key k = x) (hj : ∀ j, j ≠ k → v.key j = u.key j)
    (ht : Touches [.keys, .lampDirty] u v) : Moved k u (flushLamps v) x := by
  have hf := flushLamps_touches v
  have hkey : ∀ j, (flushLamps v).key j = v.key j := fun j => congrArg (tget · j) hf.keys
  exact ⟨(hkey k).trans hk, fun j h => (hkey j).trans (hj j h),
    PanelsButLamps.trans (.of_panels ht.panels) (flushLamps_panels v), ht.up.trans hf.up⟩

theorem enterState_key (k : KeyId) (st : KeyState) (s : State) (j : KeyId) :
    (enterState k st s).key j = if j = k then { s.key k with state := st, latchTimer := none } else s.key j :=
  State.key_setKey s k _ j

theorem enterPressed_key (k : KeyId) (s : State) (j : KeyId) :
    (enterPressed k s).key j =
      if j = k then
        { s.key k with
            state := .pressed, latchTimer := some (s.after (ofMs (s.panel (keyPanel k)).latchWindow)) }
      else s.key j :=
  State.key_setKey s k _ j

theorem startWink_key (k : KeyId) (s : State) (j : KeyId) :
    (startWink k s).key j =
      if j = k then { s.key k with winkTimer := some (s.timing.sample + 96000) } else s.key j :=
  State.key_setKey s k _ j

theorem enterState_moved (k : KeyId) (st : KeyState) (u : State) :
    Moved k u (flushLamps (enterState k st u)) { u.key k with state := st, latchTimer := none } :=
  flushLamps_moved ((enterState_key k st u k).trans (if_pos rfl)) (fun j hj => (enterState_key k st u j).trans (if_neg hj))
    (enterState_touches k st u)

theorem refused_moved (k : KeyId) (u : State) :
    Moved k u (flushLamps (startWink k (enterState k .refusedHeld u)))
      { u.key k with state := .refusedHeld, latchTimer := none, winkTimer := some (u.timing.sample + 96000) } := by
  refine flushLamps_moved ?_ (fun j hj => ?_) ((enterState_touches k _ u).trans (startWink_touches k _))
  · rw [startWink_key, if_pos rfl, enterState_key, if_pos rfl]
    rfl
  · rw [startWink_key, if_neg hj, enterState_key, if_neg hj]

theorem enterByMode_moved (k : KeyId) (u : State) :
    Moved k u (flushLamps (enterByMode k u))
      { u.key k with
          state := match (u.key k).mode with
            | .momentary => .momentaryOn
            | .latching => .latched
            | .auto => .pressed
          latchTimer :=
            if (u.key k).mode = .auto then
              some (u.timing.sample + BitVec.ofNat 32 (48 * (u.panel (keyPanel k)).latchWindow))
            else none } := by
  unfold enterByMode
  cases hm : (u.key k).mode with
  | momentary => exact enterState_moved k .momentaryOn u
  | latching => exact enterState_moved k .latched u
  | auto =>
    exact flushLamps_moved ((enterPressed_key k u k).trans (if_pos rfl))
      (fun j hj => (enterPressed_key k u j).trans (if_neg hj)) (enterPressed_touches k u)

/-! ## The ways of a press and of a release -/

theorem keyPosition_same {k : KeyId} {b : Bool} {s : State} (h : (s.key k).down = b) : keyPosition k b s = s := if_pos h

theorem keyPosition_down {k : KeyId} {s : State} (h : (s.key k).down = false) :
    keyPosition k true s = flushLamps (press k (s.setKey k { s.key k with down := true })) := by
  unfold keyPosition
  rw [if_neg (by rw [h]; decide)]
  rfl

theorem keyPosition_up {k : KeyId} {s : State} (h : (s.key k).down = true) :
    keyPosition k false s = flushLamps (release k (s.setKey k { s.key k with down := false })) := by
  unfold keyPosition
  rw [if_neg (by rw [h]; decide)]
  rfl

theorem press_unassigned {k : KeyId} {s : State} (h : (s.key k).function = .unassigned) : press k s = s := if_pos h

theorem press_idle {k : KeyId} {s : State} (hf : (s.key k).function ≠ .unassigned) (hs : (s.key k).state = .idle) :
    press k s =
      if (acquire k s).2 = true then enterByMode k (acquire k s).1
      else startWink k (enterState k .refusedHeld (acquire k s).1) := by
  unfold press
  rw [if_neg hf, hs]

theorem press_latched {k : KeyId} {s : State} (hf : (s.key k).function ≠ .unassigned) (hs : (s.key k).state = .latched) :
    press k s = enterState k .unlatching (giveUp k s) := by
  unfold press
  rw [if_neg hf, hs]

theorem press_other {k : KeyId} {s : State} (hi : (s.key k).state ≠ .idle) (hl : (s.key k).state ≠ .latched) :
    press k s = s := by
  unfold press
  split
  · rfl
  · cases hs : (s.key k).state with
    | idle => exact absurd hs hi
    | latched => exact absurd hs hl
    | pressed | momentaryOn | unlatching | refusedHeld => rfl

theorem release_eq (k : KeyId) (s : State) :
    ((s.key k).state = .pressed → release k s = enterState k .latched s) ∧
      ((s.key k).state = .momentaryOn → release k s = enterState k .idle (giveUp k s)) ∧
      ((s.key k).state = .unlatching ∨ (s.key k).state = .refusedHeld → release k s = enterState k .idle s) ∧
      ((s.key k).state = .idle ∨ (s.key k).state = .latched → release k s = s) := by
  unfold release
  refine ⟨fun h => by rw [h], fun h => by rw [h], fun h => ?_, fun h => ?_⟩
  · rcases h with h | h <;> rw [h]
  · rcases h with h | h <;> rw [h]

/-- A position that moves the flag alone. -/
theorem flag_moved {k : KeyId} {s : State} (b : Bool) :
    Moved k s (flushLamps (s.setKey k { s.key k with down := b })) { s.key k with down := b } :=
  flushLamps_moved (State.key_setKey_same s k _) (fun j hj => (State.key_setKey s k _ j).trans (if_neg hj))
    (setKey_touches s k _).up

/-- A change of key k after its flag was moved, seen from before. -/
theorem Moved.of_flag {k : KeyId} {s t : State} {x y : Key} (h : Moved k (s.setKey k y) t x) : Moved k s t x := by
  obtain ⟨hk, hj, hp, ht⟩ := h
  exact ⟨hk, fun j hne => (hj j hne).trans ((State.key_setKey s k y j).trans (if_neg hne)), hp,
    (setKey_touches s k y).up.trans ht⟩

/-- R106, R110 to R114: the press of a key whose flag is up. -/
theorem press_moves (k : KeyId) (s : State) (hd : (s.key k).down = false) :
    let r := s.key k
    let pressed := s.setKey k { r with down := true }
    let t := keyPosition k true s
    let u := (acquire k pressed).1
    let v := giveUp k pressed
    (r.function = .unassigned → Moved k s t { r with down := true }) ∧
    (r.function ≠ .unassigned →
      (r.state = .idle → (acquire k pressed).2 = true →
        Moved k u t
          { u.key k with
              state := match r.mode with
                | .momentary => .momentaryOn
                | .latching => .latched
                | .auto => .pressed
              latchTimer :=
                if r.mode = .auto then
                  some (s.timing.sample + BitVec.ofNat 32 (48 * (s.panel (keyPanel k)).latchWindow))
                else none }) ∧
      (r.state = .idle → (acquire k pressed).2 = false →
        Moved k u t
          { u.key k with
              state := .refusedHeld, latchTimer := none, winkTimer := some (s.timing.sample + 96000) }) ∧
      (r.state = .latched → Moved k v t { v.key k with state := .unlatching, latchTimer := none }) ∧
      (r.state ≠ .idle → r.state ≠ .latched → Moved k s t { r with down := true })) := by
  intro r pressed t u v
  have ht : t = flushLamps (press k pressed) := keyPosition_down hd
  have hkey : pressed.key k = { r with down := true } := State.key_setKey_same s k _
  have hstate : (pressed.key k).state = r.state := by rw [hkey]
  have hfun : (pressed.key k).function = r.function := by rw [hkey]
  have hu := KeyUnitKept.acquire k pressed
  have htime : u.timing = s.timing := (acquire_touches k pressed).timing
  have hmode : (u.key k).mode = r.mode := by
    rw [show u.key k = _ from hu.keys k, hkey]
  have hwindow : (u.panel (keyPanel k)).latchWindow = (s.panel (keyPanel k)).latchWindow := by
    rw [show u.panel (keyPanel k) = _ from hu.panels (keyPanel k)]
    rfl
  refine ⟨fun hf => ?_, fun hf => ⟨fun hi hok => ?_, fun hi hno => ?_, fun hl => ?_, fun hi hl => ?_⟩⟩
  · rw [ht, press_unassigned (hfun.trans hf)]
    exact flag_moved true
  · rw [ht, press_idle (by rw [hfun]; exact hf) (hstate.trans hi), if_pos hok, ← hmode, ← htime, ← hwindow]
    exact enterByMode_moved k u
  · rw [ht, press_idle (by rw [hfun]; exact hf) (hstate.trans hi), if_neg (by rw [hno]; decide), ← htime]
    exact refused_moved k u
  · rw [ht, press_latched (by rw [hfun]; exact hf) (hstate.trans hl)]
    exact enterState_moved k .unlatching v
  · rw [ht, press_other (by rw [hstate]; exact hi) (by rw [hstate]; exact hl)]
    exact flag_moved true

/-- R106, R110 to R114: the release of a key whose flag is down. -/
theorem release_moves (k : KeyId) (s : State) (hd : (s.key k).down = true) :
    let r := s.key k
    let released := s.setKey k { r with down := false }
    let t := keyPosition k false s
    let v := giveUp k released
    (r.state = .pressed → Moved k s t { r with down := false, state := .latched, latchTimer := none }) ∧
    (r.state = .momentaryOn → Moved k v t { v.key k with state := .idle, latchTimer := none }) ∧
    (r.state = .unlatching ∨ r.state = .refusedHeld →
      Moved k s t { r with down := false, state := .idle, latchTimer := none }) ∧
    (r.state = .idle ∨ r.state = .latched → Moved k s t { r with down := false }) := by
  intro r released t v
  have ht : t = flushLamps (release k released) := keyPosition_up hd
  have hkey : released.key k = { r with down := false } := State.key_setKey_same s k _
  have hstate : (released.key k).state = r.state := by rw [hkey]
  obtain ⟨hpressed, hmomentary, hidle, hkept⟩ := release_eq k released
  rw [hstate] at hpressed hmomentary hidle hkept
  have hflag : ∀ st, Moved k s (flushLamps (enterState k st released))
      { r with down := false, state := st, latchTimer := none } := fun st => by
    have h := enterState_moved k st released
    rw [hkey] at h
    exact h.of_flag
  refine ⟨fun h => ?_, fun h => ?_, fun h => ?_, fun h => ?_⟩
  · rw [ht, hpressed h]
    exact hflag .latched
  · rw [ht, hmomentary h]
    exact enterState_moved k .idle v
  · rw [ht, hidle h]
    exact hflag .idle
  · rw [ht, hkept h]
    exact flag_moved false

/-! ## A TALK_STATION key on its pair -/

/-- In a store of its form a holder that departs stands on no entry of its pair. -/
theorem depart_released {h : Holder} {a : SourceId} {d : DestId} {s : State} (hs : StoreInv s) {e : Entry}
    (he : e ∈ (depart h a d s).entriesOf d) (ha : e.source = a) : e.holds h = false := by
  have hf := (depart_storeInv h a d s hs).findEntry_iff.2 ⟨he, ha⟩
  rw [findEntry_depart, if_pos ⟨rfl, rfl⟩] at hf
  obtain ⟨x, -, rfl⟩ := Option.map_eq_some_iff.1 hf
  split
  · rw [Entry.holds_left]
    simp
  · next hx => exact eq_false_of_ne_true hx

/-- R110, R116: an IDLE TALK_STATION key is pressed with no entry on its pair. -/
theorem talkStation_press {k : KeyId} {x : StationId} {a : SourceId} {d : DestId} {s : State} (hset : Settled s)
    (hf : (s.key k).function = .talkStation) (hx : (s.key k).targetStation = some x) (ha : s.ownSource k = some a)
    (hd : (s.station x).dest = some d) (hi : (s.key k).state = .idle) (hup : (s.key k).down = false)
    (hno : s.findEntry a d = none) :
    let t := keyPosition k true s
    (∀ j, j ≠ k → t.key j = s.key j) ∧ (t.key k).down = true ∧
    (s.hasRoom d 1 = true →
      (t.key k).state =
        (match (s.key k).mode with | .momentary => .momentaryOn | .latching => .latched | .auto => .pressed) ∧
      ((s.key k).mode = .auto →
        (t.key k).latchTimer =
          some (s.timing.sample + BitVec.ofNat 32 (48 * (s.panel (keyPanel k)).latchWindow))) ∧
      ∃ e, t.entriesOf d = s.entriesOf d ++ [e] ∧ e.source = a ∧ e.grants = [k] ∧ e.cls = .talk ∧
        e.state = .active ∧ e.level = (if (s.key k).talkLevel = 0 then 1 else (s.key k).talkLevel)) ∧
    (s.hasRoom d 1 = false →
      (t.key k).state = .refusedHeld ∧ (t.key k).winkTimer = some (s.timing.sample + 96000) ∧
      t.entries = s.entries ∧ Raised s t .grantRefused (some d.val)) := by
  intro t
  let pressed := s.setKey k { s.key k with down := true }
  have hkey : pressed.key k = { s.key k with down := true } := State.key_setKey_same s k _
  have hother : ∀ j, j ≠ k → pressed.key j = s.key j := fun j hj => (State.key_setKey s k _ j).trans (if_neg hj)
  have hacq : acquire k pressed = acquireGrant k (some a) (some d) pressed := by
    have h := acquire_talkStation (k := k) (x := x) (s := pressed) (by rw [hkey]; exact hf)
      (by rw [hkey]; exact hx)
    rw [h, show pressed.ownSource k = some a from ha, show (pressed.station x).dest = some d from hd]
  have hno' : pressed.findEntry a d = none := hno
  have hlevel : (pressed.key k).talkLevel = (s.key k).talkLevel := by rw [hkey]
  obtain ⟨-, hmoves⟩ := press_moves k s hup
  obtain ⟨hgranted, hrefused, -, -⟩ := hmoves (by rw [hf]; decide)
  cases hroom : s.hasRoom d 1 with
  | true =>
    have hreq : requestGrant k a d pressed = (createEntry (.grant k) (s.key k).talkLevel .talk a d pressed, true) := by
      unfold requestGrant
      rw [hlevel]
      exact arrive_new hno' hroom
    have hu : acquire k pressed = (createEntry (.grant k) (s.key k).talkLevel .talk a d pressed, true) := by
      rw [hacq, acquireGrant_granted (by rw [hreq]), hreq]
    obtain ⟨htk, htj, -, htt⟩ := hgranted hi (by rw [hu])
    have hc := createEntry_touches (.grant k) (s.key k).talkLevel .talk a d pressed
    have hukey : ∀ j, (acquire k pressed).1.key j = pressed.key j := fun j => by
      rw [hu]
      exact congrArg (tget · j) hc.keys
    refine ⟨fun j hj => (htj j hj).trans ((hukey j).trans (hother j hj)), ?_, fun _ => ⟨by rw [htk], fun hm => ?_, ?_⟩, nofun⟩
    · rw [htk]
      change ((acquire k pressed).1.key k).down = true
      rw [hukey, hkey]
    · rw [htk]
      exact if_pos hm
    · refine ⟨newEntry (.grant k) (s.key k).talkLevel .talk a d pressed.nextSerial, ?_, rfl, rfl, rfl, rfl, storeLevel_eq _⟩
      have he : t.entriesOf d = (createEntry (.grant k) (s.key k).talkLevel .talk a d pressed).entriesOf d := by
        have h := State.entriesOf_congr htt.entries d
        rw [hu] at h
        exact h
      rw [he, entriesOf_createEntry, if_pos rfl]
      rfl
  | false =>
    have hfull : (requestGrant k a d pressed).2 = false := by
      unfold requestGrant
      rw [arrive_full hno' hroom]
    have hu : acquire k pressed = (raise .grantRefused (some d.val) pressed, false) := by
      rw [hacq, acquireGrant_refused hfull]
    obtain ⟨htk, htj, -, htt⟩ := hrefused hi (by rw [hu])
    rw [hu] at htk htj htt
    have hc := raise_touches .grantRefused (some d.val) pressed
    have hukey : ∀ j, (raise .grantRefused (some d.val) pressed).key j = pressed.key j := fun j =>
      congrArg (tget · j) hc.keys
    refine ⟨fun j hj => (htj j hj).trans ((hukey j).trans (hother j hj)), ?_, nofun, fun _ => ⟨by rw [htk], by rw [htk],
      htt.entries.trans hc.entries, ?_⟩⟩
    · rw [htk]
      change ((raise .grantRefused (some d.val) pressed).key k).down = true
      rw [hukey, hkey]
    · obtain ⟨h1, h2, h3⟩ := raise_raised .grantRefused (some d.val) pressed hset.2
      exact ⟨(congrArg (tget · _) htt.events).trans h1, fun j hj => (congrArg (tget · _) htt.events).trans (h2 j hj),
        htt.notices.trans h3⟩

/-- R112, R115: a TALK_STATION key that is down is released. -/
theorem talkStation_release {k : KeyId} {x : StationId} {a : SourceId} {d : DestId} {s : State} (hs : StoreInv s)
    (hf : (s.key k).function = .talkStation) (hx : (s.key k).targetStation = some x) (ha : s.ownSource k = some a)
    (hd : (s.station x).dest = some d) (hdown : (s.key k).down = true) :
    let t := keyPosition k false s
    ((s.key k).state = .momentaryOn →
      (t.key k).state = .idle ∧ ∀ e ∈ t.entriesOf d, e.source = a → k ∉ e.grants) ∧
    ((s.key k).state = .pressed →
      (t.key k).state = .latched ∧ (t.key k).latchTimer = none ∧ t.entries = s.entries) := by
  intro t
  obtain ⟨hpressed, hmomentary, -, -⟩ := release_moves k s hdown
  refine ⟨fun hm => ?_, fun hp => ?_⟩
  · let released := s.setKey k { s.key k with down := false }
    have hkey : released.key k = { s.key k with down := false } := State.key_setKey_same s k _
    obtain ⟨htk, -, -, htt⟩ := hmomentary hm
    obtain ⟨-, hgive, -⟩ := giveUp_station (k := k) (x := x) (a := a) (b := d) (s := released)
      (by rw [hkey]; exact (isOn_iff _).2 (.inr (.inl hm))) (.inl ⟨by rw [hkey]; exact hf, by rw [hkey]; exact hx, ha, hd⟩)
    refine ⟨by rw [htk], fun e he hea hk => ?_⟩
    rw [State.entriesOf_congr (htt.entries.trans hgive)] at he
    have hfree := depart_released (StoreInv.of_same (s := s) (t := released) rfl rfl hs) he hea
    rw [Entry.holds, List.contains_iff_mem.2 hk] at hfree
    cases hfree
  · obtain ⟨htk, -, -, htt⟩ := hpressed hp
    exact ⟨by rw [htk], by rw [htk], htt.entries⟩

/-- Settles O52, function by function and pairing by pairing. -/
theorem talkKeyMoves : Obligations.TalkKeyMoves := by
  refine ⟨?_, ?_, ?_, ?_, ?_, ?_, ?_, ?_⟩
  · exact fun k x a d s hset hf hx ha hd hi hup hno => talkStation_press hset hf hx ha hd hi hup hno
  · exact fun k x a d s hs _ hf hx ha hd hdown => talkStation_release hs hf hx ha hd hdown
  · intro k s r pressed released moved flagAlone
    exact ⟨fun b hb => keyPosition_same hb, press_moves k s, release_moves k s⟩
  · intro k x s hb r own u granted src dst
    refine ⟨fun h => ?_, fun hf => ⟨fun hnil => ?_, fun e rest hl hx hsrc hdst => ?_⟩⟩
    · have hu : u = acquireGrant k src dst s := by
        rcases h with ⟨hf, ht, rfl, rfl⟩ | ⟨hf, ht, rfl, rfl⟩
        · exact acquire_talkStation hf ht
        · exact acquire_listenStation hf ht
      rw [hu]
      exact acquireGrant_answers hb src dst
    · exact (acquire_reply hf).trans (acquireReply_nil hnil)
    · subst hsrc hdst
      simp only [show u = _ from acquire_reply hf]
      exact acquireReply_answers hb e rest hl hx
  · intro k x s hf ht c called u
    exact ⟨giveUp_call hf, acquireCall_answers hf ht⟩
  · exact fun k p s hf ht => talkParty_answers hf ht
  · exact fun k d s hf ht => ifb_answers hf ht
  · intro k x a b s r own hon h
    exact giveUp_station ((isOn_iff _).2 hon) h

end Sys2Proof.Machine
end

section
/-! PROOF. The form of one ear, on the keys alone: its current key, its waiting keys in their order, and every key of
another standing than NONE in its place (R142, R143). -/

namespace Sys2Proof.Machine

/-- R142: key record r is one that destination d's ear may hold; a key in the midst of its press need not be on yet. -/
def Key.Holdable (r : Key) (free : Prop) (d : DestId) : Prop :=
  r.function = .ifb ∧ r.target = some d ∧ (r.state.isOn = true ∨ free)

/-- The form of destination d's ear over the keys f, with current key c and waiting list l. The keys of `free` are in the
midst of a press; those of `skip` are about to be placed. -/
structure EarForm (free skip : KeyId → Prop) (f : KeyId → Key) (d : DestId) (c : Option KeyId) (l : List Waiter) : Prop where
  length : l.length ≤ 4
  nodup : (l.map Waiter.key).Nodup
  order : l.Pairwise (fun a b => b.high = true → a.high = true)
  waits : ∀ w ∈ l, (f w.key).Holdable (free w.key) d ∧ (f w.key).standing = .waiting ∧
    (w.high = true ↔ (f w.key).priority = .high)
  current : ∀ k, c = some k → (f k).Holdable (free k) d ∧ (f k).standing = .current
  placed : ∀ k, ¬skip k → (f k).target = some d → (f k).standing ≠ .outside → c = some k ∨ ∃ w ∈ l, w.key = k

namespace EarForm

variable {free skip : KeyId → Prop} {f g : KeyId → Key} {d : DestId} {c : Option KeyId} {l : List Waiter}

/-- The ear reads only the keys that target its destination. -/
theorem congr (h : EarForm free skip f d c l) (hg : ∀ k, (f k).target = some d ∨ (g k).target = some d → g k = f k) :
    EarForm free skip g d c l where
  length := h.length
  nodup := h.nodup
  order := h.order
  waits w hw := by
    have hf := h.waits w hw
    rw [hg w.key (.inl hf.1.2.1)]
    exact hf
  current k hk := by
    have hf := h.current k hk
    rw [hg k (.inl hf.1.2.1)]
    exact hf
  placed k hs ht hn := by
    have hk := hg k (.inr ht)
    rw [hk] at ht hn
    exact h.placed k hs ht hn

/-- A waiting key is not the current one. -/
theorem waits_ne (h : EarForm free skip f d c l) {w : Waiter} (hw : w ∈ l) {k : KeyId} (hk : c = some k) : w.key ≠ k := by
  intro he
  have h1 := (h.waits w hw).2.1
  rw [he, (h.current k hk).2] at h1
  cases h1

/-- A key whose standing is NONE stands nowhere at the ear. -/
theorem outside_ne (h : EarForm free skip f d c l) {k : KeyId} (hk : (f k).standing = .outside) :
    c ≠ some k ∧ ∀ w ∈ l, w.key ≠ k := by
  refine ⟨fun hc => ?_, fun w hw he => ?_⟩
  · have := (h.current k hc).2
    rw [hk] at this
    cases this
  · have := (h.waits w hw).2.1
    rw [he, hk] at this
    cases this

/-- A key whose standing is CURRENT does not wait. -/
theorem current_ne (h : EarForm free skip f d c l) {k : KeyId} (hk : (f k).standing = .current) : ∀ w ∈ l, w.key ≠ k :=
  fun w hw he => by
    have := (h.waits w hw).2.1
    rw [he, hk] at this
    cases this

/-- A key becomes current at an ear without one. -/
theorem become (h : EarForm free skip f d none l) {k : KeyId} (hs : ∀ j, skip j → j = k) (hl : ∀ w ∈ l, w.key ≠ k)
    (hg : ∀ j, j ≠ k → g j = f j) (hk : (g k).Holdable (free k) d) (hst : (g k).standing = .current) :
    EarForm free (fun _ => False) g d (some k) l where
  length := h.length
  nodup := h.nodup
  order := h.order
  waits w hw := by
    rw [hg w.key (hl w hw)]
    exact h.waits w hw
  current j hj := by
    cases hj
    exact ⟨hk, hst⟩
  placed j _ ht hn := by
    by_cases hj : j = k
    · exact .inl (hj ▸ rfl)
    · rw [hg j hj] at ht hn
      exact .inr ((h.placed j (fun hsk => hj (hs j hsk)) ht hn).resolve_left nofun)

/-- R147: a key becomes current in another's place, which is to be placed anew. -/
theorem replace {k j : KeyId} (h : EarForm free (fun _ => False) f d (some j) l) (hl : ∀ w ∈ l, w.key ≠ k)
    (hg : ∀ i, i ≠ k → g i = f i) (hk : (g k).Holdable (free k) d) (hst : (g k).standing = .current) :
    EarForm free (· = j) g d (some k) l where
  length := h.length
  nodup := h.nodup
  order := h.order
  waits w hw := by
    rw [hg w.key (hl w hw)]
    exact h.waits w hw
  current i hi := by
    cases hi
    exact ⟨hk, hst⟩
  placed i hs ht hn := by
    by_cases hi : i = k
    · exact .inl (hi ▸ rfl)
    · rw [hg i hi] at ht hn
      exact .inr ((h.placed i (fun hf => hf.elim) ht hn).resolve_left fun hc => hs (Option.some.inj hc).symm)

/-- A key that was to be placed is left out of every arbiter. -/
theorem settle {k : KeyId} (h : EarForm free (· = k) f d c l) (hg : ∀ j, j ≠ k → g j = f j) (hc : c ≠ some k)
    (hl : ∀ w ∈ l, w.key ≠ k) (hst : (g k).standing = .outside) : EarForm free (fun _ => False) g d c l where
  length := h.length
  nodup := h.nodup
  order := h.order
  waits w hw := by
    rw [hg w.key (hl w hw)]
    exact h.waits w hw
  current j hj := by
    rw [hg j fun hk => hc (hk ▸ hj)]
    exact h.current j hj
  placed j _ ht hn := by
    by_cases hj : j = k
    · exact absurd hst (hj ▸ hn)
    · rw [hg j hj] at ht hn
      exact h.placed j hj ht hn

/-- R149: the current key leaves. -/
theorem leave {k : KeyId} (h : EarForm free skip f d (some k) l) (hg : ∀ j, j ≠ k → g j = f j)
    (hst : (g k).standing = .outside) : EarForm free skip g d none l where
  length := h.length
  nodup := h.nodup
  order := h.order
  waits w hw := by
    rw [hg w.key (h.waits_ne hw rfl)]
    exact h.waits w hw
  current j hj := by cases hj
  placed j hs ht hn := by
    by_cases hj : j = k
    · exact absurd hst (hj ▸ hn)
    · rw [hg j hj] at ht hn
      exact .inr ((h.placed j hs ht hn).resolve_left fun hc => hj (Option.some.inj hc).symm)

/-- R150: a waiting key leaves and the keys behind it close up. -/
theorem shed {m : List Waiter} {k : KeyId} (h : EarForm free skip f d c l) (hm : m.Sublist l)
    (hmem : ∀ w ∈ l, w.key ≠ k → w ∈ m) (hno : ∀ w ∈ m, w.key ≠ k) (hc : c ≠ some k) (hg : ∀ j, j ≠ k → g j = f j)
    (hst : (g k).standing = .outside) : EarForm free skip g d c m where
  length := hm.length_le.trans h.length
  nodup := h.nodup.sublist (hm.map _)
  order := h.order.sublist hm
  waits w hw := by
    rw [hg w.key (hno w hw)]
    exact h.waits w (hm.subset hw)
  current j hj := by
    rw [hg j fun hk => hc (hk ▸ hj)]
    exact h.current j hj
  placed j hs ht hn := by
    by_cases hj : j = k
    · exact absurd hst (hj ▸ hn)
    · rw [hg j hj] at ht hn
      exact (h.placed j hs ht hn).imp_right fun ⟨w, hw, hwj⟩ => ⟨w, hmem w hw fun hk => hj (hwj.symm.trans hk), hwj⟩

/-- R149: the first waiting key becomes current. -/
theorem serve {w : Waiter} {ws : List Waiter} (h : EarForm free skip f d none (w :: ws))
    (hg : ∀ j, j ≠ w.key → g j = f j) (hw : g w.key = { f w.key with standing := .current }) :
    EarForm free skip g d (some w.key) ws := by
  obtain ⟨hnot, hnodup⟩ := List.nodup_cons.1 h.nodup
  have hne : ∀ x ∈ ws, x.key ≠ w.key := fun x hx he => hnot (he ▸ List.mem_map_of_mem hx)
  refine ⟨(Nat.le_succ _).trans h.length, hnodup, (List.pairwise_cons.1 h.order).2, fun x hx => ?_, fun k hk => ?_,
    fun j hs ht hn => ?_⟩
  · rw [hg x.key (hne x hx)]
    exact h.waits x (List.mem_cons_of_mem _ hx)
  · cases hk
    rw [hw]
    exact ⟨(h.waits w List.mem_cons_self).1, rfl⟩
  · by_cases hj : j = w.key
    · exact .inl (hj ▸ rfl)
    · rw [hg j hj] at ht hn
      obtain ⟨x, hx, hxj⟩ := (h.placed j hs ht hn).resolve_left nofun
      rcases List.mem_cons.1 hx with rfl | hx
      · exact absurd hxj.symm hj
      · exact .inr ⟨x, hx, hxj⟩

/-! ### Places by rank -/

theorem ranked_perm (l : List Waiter) (w : Waiter) : (ranked l w).Perm (w :: l) := by
  unfold ranked
  refine List.perm_middle.trans ?_
  rw [List.takeWhile_append_dropWhile]

/-- A waiting list by rank is its HIGH keys, then its LOW ones. -/
theorem dropWhile_low {l : List Waiter} (h : l.Pairwise (fun a b => b.high = true → a.high = true)) :
    ∀ w ∈ l.dropWhile (fun x => x.high), w.high = false := by
  induction l with
  | nil => exact nofun
  | cons a l ih =>
    obtain ⟨ha, hl⟩ := List.pairwise_cons.1 h
    rw [List.dropWhile_cons]
    split
    · exact ih hl
    · next hlow =>
      intro w hw
      rcases List.mem_cons.1 hw with rfl | hw
      · exact eq_false_of_ne_true hlow
      · exact eq_false_of_ne_true fun hh => hlow (ha w hw hh)

theorem ranked_order {l : List Waiter} (h : l.Pairwise (fun a b => b.high = true → a.high = true)) (w : Waiter) :
    (ranked l w).Pairwise (fun a b => b.high = true → a.high = true) := by
  have hlow := dropWhile_low h
  have hhigh : ∀ x ∈ l.takeWhile (fun x => x.high), x.high = true := fun x hx => List.mem_takeWhile_imp hx
  refine List.pairwise_append.2 ⟨h.sublist (List.takeWhile_sublist _), List.pairwise_cons.2 ⟨fun x hx hx' => ?_,
    h.sublist (List.dropWhile_sublist _)⟩, fun a ha _ _ _ => hhigh a ha⟩
  rw [hlow x hx] at hx'
  cases hx'

/-- Behind the HIGH keys of a list by rank a LOW key stands after them as at the tail of the HIGH ones. -/
theorem ranked_concat_low {l : List Waiter} {w last : Waiter} (h : last.high = false) :
    ranked (l ++ [last]) w = ranked l w ++ [last] := by
  unfold ranked
  rw [List.takeWhile_append, List.dropWhile_append]
  by_cases hall : ∀ x ∈ l, x.high = true
  · rw [if_pos (by rw [(takeWhile_high_eq hall).1]), if_pos (by rw [(takeWhile_high_eq hall).2]; rfl),
      (takeWhile_high_eq hall).1, (takeWhile_high_eq hall).2]
    simp [h]
  · have hlow : ∃ x ∈ l, x.high = false := by simpa using hall
    have hne := dropWhile_high_ne hlow
    have hlen : (l.takeWhile fun x => x.high).length ≠ l.length := fun he => by
      have htd := congrArg List.length (List.takeWhile_append_dropWhile (p := fun x : Waiter => x.high) (l := l))
      rw [List.length_append, he] at htd
      exact hne (List.length_eq_zero_iff.1 (by omega))
    rw [if_neg hlen, if_neg (by simpa using hne)]
    simp

/-- A key is placed among the waiting keys. -/
theorem wait {k : KeyId} {w : Waiter} {m : List Waiter} (h : EarForm free skip f d c l) (hs : ∀ j, skip j → j = k)
    (hw : w.key = k) (hc : c ≠ some k) (hl : ∀ x ∈ l, x.key ≠ k) (hm : m.Perm (w :: l))
    (ho : m.Pairwise (fun a b => b.high = true → a.high = true)) (hlen : m.length ≤ 4) (hg : ∀ j, j ≠ k → g j = f j)
    (hk : (g k).Holdable (free k) d) (hst : (g k).standing = .waiting) (hp : w.high = true ↔ (g k).priority = .high) :
    EarForm free (fun _ => False) g d c m := by
  refine ⟨hlen, ?_, ho, fun x hx => ?_, fun j hj => ?_, fun j _ ht hn => ?_⟩
  · refine (hm.map Waiter.key).nodup_iff.2 (List.nodup_cons.2 ⟨fun hmem => ?_, h.nodup⟩)
    obtain ⟨x, hx, hxk⟩ := List.mem_map.1 hmem
    exact hl x hx (hxk.trans hw)
  · rcases List.mem_cons.1 (hm.subset hx) with rfl | hx
    · rw [hw]
      exact ⟨hk, hst, hp⟩
    · rw [hg x.key (hl x hx)]
      exact h.waits x hx
  · rw [hg j fun he => hc (he ▸ hj)]
    exact h.current j hj
  · by_cases hj : j = k
    · exact .inr ⟨w, hm.symm.subset List.mem_cons_self, hw.trans hj.symm⟩
    · rw [hg j hj] at ht hn
      exact (h.placed j (fun hsk => hj (hs j hsk)) ht hn).imp_right fun ⟨x, hx, hxj⟩ =>
        ⟨x, hm.symm.subset (List.mem_cons_of_mem _ hx), hxj⟩

end EarForm

end Sys2Proof.Machine
end

section
/-! PROOF. The arbiters keep their form through a request and a leaving (R142 to R150). -/

namespace Sys2Proof.Machine

/-- The form of every ear, the keys of `free` in the midst of a press; a key of another standing than NONE has a target. -/
def EarsInv (free : KeyId → Prop) (s : State) : Prop :=
  (∀ d, EarForm free (fun _ => False) s.key d (s.arbiter d).current (s.arbiter d).waiting) ∧
    ∀ k, (s.key k).standing ≠ .outside → (s.key k).target ≠ none

theorem holdable_iff {s : State} {k : KeyId} {d : DestId} : (s.key k).Holdable False d ↔ s.mayHold d k := by
  simp only [Key.Holdable, State.mayHold, or_false]

theorem arbiterInv_iff {s : State} : ArbiterInv s ↔ EarsInv (fun _ => False) s := by
  constructor
  · rintro ⟨hear, hplaced⟩
    have hmay : ∀ d k, (s.arbiter d).current = some k ∨ (∃ w ∈ (s.arbiter d).waiting, w.key = k) → s.mayHold d k := by
      rintro d k (h | ⟨w, hw, rfl⟩)
      · exact ((hear d).2.2.2.2 k h).1
      · exact ((hear d).2.2.2.1 w hw).1
    refine ⟨fun d => ?_, fun k hk => ?_⟩
    · obtain ⟨hlen, hnd, hord, hw, hc⟩ := hear d
      refine ⟨hlen, hnd, hord, fun w hm => ?_, fun k hk => ?_, fun k _ ht hn => ?_⟩
      · obtain ⟨h1, h2, h3⟩ := hw w hm
        exact ⟨holdable_iff.2 h1, h2, h3⟩
      · obtain ⟨h1, h2⟩ := hc k hk
        exact ⟨holdable_iff.2 h1, h2⟩
      · obtain ⟨m, hm⟩ := hplaced k hn
        have htm := (hmay m k hm).2.1
        rw [ht] at htm
        cases htm
        exact hm
    · obtain ⟨m, hm⟩ := hplaced k hk
      rw [(hmay m k hm).2.1]
      nofun
  · rintro ⟨hear, hhome⟩
    refine ⟨fun d => ?_, fun k hk => ?_⟩
    · have h := hear d
      exact ⟨h.length, h.nodup, h.order, fun w hw => ⟨holdable_iff.1 (h.waits w hw).1, (h.waits w hw).2⟩,
        fun k hk => ⟨holdable_iff.1 (h.current k hk).1, (h.current k hk).2⟩⟩
    · obtain ⟨d, hd⟩ := Option.ne_none_iff_exists'.1 (hhome k hk)
      exact ⟨d, (hear d).placed k id hd hk⟩

/-- A change at one ear: the others stand as they were. -/
theorem EarsInv.of_ear {free : KeyId → Prop} {s t : State} {d : DestId} (h : EarsInv free s) (hkept : KeyUnitKept s t)
    (harb : ∀ m, m ≠ d → t.arbiter m = s.arbiter m) (hkeys : ∀ j, (s.key j).target ≠ some d → t.key j = s.key j)
    (hd : EarForm free (fun _ => False) t.key d (t.arbiter d).current (t.arbiter d).waiting) : EarsInv free t := by
  obtain ⟨hear, hhome⟩ := h
  have htarget : ∀ j, (t.key j).target = (s.key j).target := fun j => by rw [hkept.keys j]
  refine ⟨fun m => ?_, fun k hk => ?_⟩
  · by_cases hm : m = d
    · rw [hm]
      exact hd
    · rw [harb m hm]
      refine (hear m).congr fun j hj => hkeys j fun hjd => hm ?_
      rw [htarget, or_self, hjd] at hj
      exact (Option.some.inj hj).symm
  · by_cases hj : (s.key k).target = some d
    · rw [htarget, hj]
      nofun
    · rw [hkeys k hj] at hk ⊢
      exact hhome k hk

/-- What reads neither keys nor arbiters keeps the form of the ears. -/
theorem EarsInv.congr {free : KeyId → Prop} {s t : State} (h : EarsInv free s) (hk : t.keys = s.keys)
    (ha : t.arbiters = s.arbiters) : EarsInv free t := by
  have hkey : t.key = s.key := funext fun k => congrArg (tget · k) hk
  have harb : ∀ d, t.arbiter d = s.arbiter d := fun d => congrArg (tget · d) ha
  unfold EarsInv
  rw [hkey]
  simp only [harb]
  exact h

theorem EarsInv.of_touches {free : KeyId → Prop} {l : List Fld} {s t : State} (h : EarsInv free s) (ht : Touches l s t)
    (hk : .keys ∉ l := by decide) (ha : .arbiters ∉ l := by decide) : EarsInv free t := h.congr (ht.keys hk) (ht.arbiters ha)

theorem EarsInv.mono {free more : KeyId → Prop} {s : State} (h : EarsInv free s) (hf : ∀ k, free k → more k) :
    EarsInv more s := by
  have hold : ∀ k d, (s.key k).Holdable (free k) d → (s.key k).Holdable (more k) d := fun k d ⟨h1, h2, h3⟩ =>
    ⟨h1, h2, h3.imp_right (hf k)⟩
  refine ⟨fun d => ?_, h.2⟩
  have hd := h.1 d
  exact ⟨hd.length, hd.nodup, hd.order, fun w hw => ⟨hold _ _ (hd.waits w hw).1, (hd.waits w hw).2⟩,
    fun k hk => ⟨hold _ _ (hd.current k hk).1, (hd.current k hk).2⟩, hd.placed⟩

/-- A key that no ear may hold has standing NONE. -/
theorem EarsInv.outside {free : KeyId → Prop} {s : State} (h : EarsInv free s) {k : KeyId}
    (hk : (s.key k).function ≠ .ifb ∨ ((s.key k).state.isOn = false ∧ ¬free k)) : (s.key k).standing = .outside := by
  by_contra hn
  obtain ⟨d, hd⟩ := Option.ne_none_iff_exists'.1 (h.2 k hn)
  have hold : (s.key k).Holdable (free k) d := by
    rcases (h.1 d).placed k id hd hn with hc | ⟨w, hw, rfl⟩
    · exact ((h.1 d).current k hc).1
    · exact ((h.1 d).waits w hw).1
  obtain ⟨hf, -, hon⟩ := hold
  rcases hk with hk | ⟨hoff, hfree⟩
  · exact hk hf
  · rcases hon with hon | hon
    · rw [hoff] at hon
      cases hon
    · exact hfree hon

/-- A key of standing NONE stands in no arbiter. -/
theorem EarsInv.nowhere {free : KeyId → Prop} {s : State} (h : EarsInv free s) {k : KeyId}
    (hk : (s.key k).standing = .outside) (d : DestId) :
    (s.arbiter d).current ≠ some k ∧ ∀ w ∈ (s.arbiter d).waiting, w.key ≠ k := (h.1 d).outside_ne hk

/-- One key rewritten: it keeps its place at its ear, or has none. -/
theorem EarsInv.setKey {free more : KeyId → Prop} {s : State} {k : KeyId} {r : Key} (h : EarsInv free s)
    (hf : ∀ j, j ≠ k → free j → more j)
    (hr : r.standing = .outside ∧ (s.key k).standing = .outside ∨
      r.function = (s.key k).function ∧ r.target = (s.key k).target ∧ r.priority = (s.key k).priority ∧
        r.standing = (s.key k).standing ∧ (r.state.isOn = true ∨ more k)) : EarsInv more (s.setKey k r) := by
  have hkey : ∀ j, (s.setKey k r).key j = if j = k then r else s.key j := fun j => State.key_setKey s k r j
  have hsame : ∀ j, j ≠ k → (s.setKey k r).key j = s.key j := fun j hj => (hkey j).trans (if_neg hj)
  have hself : (s.setKey k r).key k = r := (hkey k).trans (if_pos rfl)
  have hstand : r.standing = (s.key k).standing := by
    rcases hr with ⟨h1, h2⟩ | ⟨-, -, -, h, -⟩
    · rw [h1, h2]
    · exact h
  have hold : ∀ j d, (s.key j).standing ≠ .outside → (s.key j).Holdable (free j) d →
      ((s.setKey k r).key j).Holdable (more j) d := fun j d hn ⟨h1, h2, h3⟩ => by
    by_cases hj : j = k
    · subst hj
      rcases hr with ⟨-, ho⟩ | ⟨hf', ht, -, -, hon⟩
      · exact absurd ho hn
      · rw [hself]
        exact ⟨hf'.trans h1, ht.trans h2, hon⟩
    · rw [hsame j hj]
      exact ⟨h1, h2, h3.imp_right (hf j hj)⟩
  have hpri : ∀ j, (s.key j).standing ≠ .outside → ((s.setKey k r).key j).priority = (s.key j).priority := fun j hn => by
    by_cases hj : j = k
    · subst hj
      rcases hr with ⟨-, ho⟩ | ⟨-, -, hp, -, -⟩
      · exact absurd ho hn
      · rw [hself, hp]
    · rw [hsame j hj]
  have hst : ∀ j, ((s.setKey k r).key j).standing = (s.key j).standing := fun j => by
    by_cases hj : j = k
    · subst hj
      rw [hself, hstand]
    · rw [hsame j hj]
  have htarget : ∀ j, (s.key j).standing ≠ .outside → ((s.setKey k r).key j).target = (s.key j).target := fun j hn => by
    by_cases hj : j = k
    · subst hj
      rcases hr with ⟨-, ho⟩ | ⟨-, ht, -⟩
      · exact absurd ho hn
      · rw [hself, ht]
    · rw [hsame j hj]
  refine ⟨fun d => ?_, fun j hj => ?_⟩
  · have hd := h.1 d
    refine ⟨hd.length, hd.nodup, hd.order, fun w hw => ?_, fun j hj => ?_, fun j _ ht hn => ?_⟩
    · obtain ⟨h1, h2, h3⟩ := hd.waits w hw
      have hn : (s.key w.key).standing ≠ .outside := by rw [h2]; decide
      exact ⟨hold _ _ hn h1, (hst _).trans h2, h3.trans (by rw [hpri _ hn])⟩
    · obtain ⟨h1, h2⟩ := hd.current j hj
      exact ⟨hold _ _ (by rw [h2]; decide) h1, (hst j).trans h2⟩
    · rw [hst] at hn
      rw [htarget j hn] at ht
      exact hd.placed j id ht hn
  · rw [hst] at hj
    rw [htarget j hj]
    exact h.2 j hj

/-! ## Placing a key among the waiting ones -/

theorem takeWaiting_key_other {d : DestId} {l : List Waiter} {k j : KeyId} {r : Option KeyId} {s : State} (hk : j ≠ k)
    (hl : ∀ w ∈ l, w.key ≠ j) : (takeWaiting d l k r s).1.key j = s.key j := by
  by_cases hlen : l.length ≤ 4
  · rw [takeWaiting_fits hlen, setStanding_waiting_key, if_neg hk]
  · have hne : l ≠ [] := fun hn => hlen (by rw [hn]; exact Nat.zero_le 4)
    rw [takeWaiting_full (Nat.lt_of_not_le hlen) (List.getLast?_eq_some_getLast hne)]
    split
    · rfl
    · rw [dropKey_other (hl _ (List.getLast_mem hne)).symm]
      split
      · rfl
      · rw [setStanding_waiting_key, if_neg hk]

theorem withWaiting_ear (s : State) (d : DestId) (l : List Waiter) :
    (s.withWaiting d l).arbiter d = { s.arbiter d with waiting := l } := (withWaiting_arbiter s d l d).trans (if_pos rfl)

theorem dropKey_arbiter (k : KeyId) (s : State) (d : DestId) : (dropKey k s).arbiter d = s.arbiter d :=
  congrArg (tget · d) (dropKey_touches k s).arbiters

theorem setStanding_arbiter (k : KeyId) (st : Standing) (s : State) (d : DestId) :
    (setStanding k st s).arbiter d = s.arbiter d := congrArg (tget · d) (setStanding_touches k st s).arbiters

/-- R146 to R148: a key placed among the waiting keys leaves the ear in its form, whoever is dropped. -/
theorem takeWaiting_ear {free : KeyId → Prop} {d : DestId} {w : Waiter} {m : List Waiter} {r : Option KeyId} {s : State}
    (h : EarForm free (· = w.key) s.key d (s.arbiter d).current (s.arbiter d).waiting)
    (hc : (s.arbiter d).current ≠ some w.key) (hl : ∀ x ∈ (s.arbiter d).waiting, x.key ≠ w.key)
    (hold : (s.key w.key).Holdable (free w.key) d) (hp : w.high = true ↔ (s.key w.key).priority = .high)
    (hm : m = ranked (s.arbiter d).waiting w ∨ (m = (s.arbiter d).waiting ++ [w] ∧ w.high = false))
    (hr : r = some w.key → (s.key w.key).standing = .outside) (hr' : ∀ j, r = some j → j = w.key) :
    let u := (takeWaiting d m w.key r s).1
    EarForm free (fun _ => False) u.key d (u.arbiter d).current (u.arbiter d).waiting := by
  have hperm : m.Perm (w :: (s.arbiter d).waiting) := by
    rcases hm with rfl | ⟨rfl, -⟩
    · exact EarForm.ranked_perm _ _
    · exact List.perm_append_singleton _ _
  have horder : m.Pairwise (fun a b => b.high = true → a.high = true) := by
    rcases hm with rfl | ⟨rfl, hlow⟩
    · exact EarForm.ranked_order h.order w
    · refine List.pairwise_append.2 ⟨h.order, List.pairwise_singleton _ _, fun a _ b hb hh => ?_⟩
      rw [List.mem_singleton.1 hb, hlow] at hh
      cases hh
  intro u
  by_cases hlen : m.length ≤ 4
  · have hu : u = setStanding w.key .waiting (s.withWaiting d m) := congrArg Prod.fst (takeWaiting_fits hlen)
    have hkey : ∀ j, u.key j = if j = w.key then { s.key w.key with standing := .waiting } else s.key j := fun j => by
      rw [hu, setStanding_waiting_key]
    rw [hu, setStanding_arbiter, withWaiting_ear, ← hu]
    refine h.wait (g := u.key) (fun j hj => hj) rfl hc hl hperm horder hlen (fun j hj => (hkey j).trans (if_neg hj)) ?_ ?_ ?_
    · rw [hkey, if_pos rfl]
      exact hold
    · rw [hkey, if_pos rfl]
    · rw [hkey, if_pos rfl]
      exact hp
  · have hlen4 : (s.arbiter d).waiting.length = 4 := by
      have := hperm.length_eq
      have := h.length
      rw [List.length_cons] at *
      omega
    have hsettled : ∀ v : State, (∀ j, j ≠ w.key → v.key j = s.key j) → (v.key w.key).standing = .outside →
        EarForm free (fun _ => False) v.key d (s.arbiter d).current (s.arbiter d).waiting := fun v hv hst =>
      h.settle hv hc hl hst
    by_cases hlast : m = (s.arbiter d).waiting ++ [w]
    · have hu : u = if r = some w.key then s.withWaiting d (s.arbiter d).waiting
          else dropKey w.key (s.withWaiting d (s.arbiter d).waiting) := by
        have hfull := takeWaiting_full (d := d) (k := w.key) (r := r) (s := s) (w := w) (Nat.lt_of_not_le hlen)
          (by rw [hlast]; exact List.getLast?_concat)
        rw [if_pos rfl, hlast, List.take_left' hlen4, ← hlast] at hfull
        rw [show u = _ from congrArg Prod.fst hfull]
        split <;> rfl
      by_cases hself : r = some w.key
      · rw [if_pos hself] at hu
        rw [hu, withWaiting_ear]
        exact hsettled _ (fun _ _ => rfl) (hr hself)
      · rw [if_neg hself] at hu
        rw [hu, dropKey_arbiter, withWaiting_ear]
        refine hsettled _ (fun j hj => dropKey_other hj _) ?_
        rw [dropKey_key, if_pos rfl]
        rfl
    · have hrank : m = ranked (s.arbiter d).waiting w := hm.resolve_right fun hx => hlast hx.1
      have hlow : ∃ x ∈ (s.arbiter d).waiting, x.high = false := by
        by_contra hno
        have hall : ∀ x ∈ (s.arbiter d).waiting, x.high = true := by simpa using hno
        exact hlast (hrank.trans (ranked_of_high hall w))
      have hne : (s.arbiter d).waiting ≠ [] := fun hn => by rw [hn] at hlen4; cases hlen4
      let last := (s.arbiter d).waiting.getLast hne
      let front := (s.arbiter d).waiting.dropLast
      have hsplit : (s.arbiter d).waiting = front ++ [last] := (List.dropLast_append_getLast hne).symm
      have hlastmem : last ∈ (s.arbiter d).waiting := List.getLast_mem hne
      have hlastlow : last.high = false := by
        obtain ⟨x, hx, hxlow⟩ := hlow
        rw [hsplit] at hx
        rcases List.mem_append.1 hx with hx | hx
        · refine eq_false_of_ne_true fun hh => ?_
          have hord := h.order
          rw [hsplit] at hord
          have := (List.pairwise_append.1 hord).2.2 x hx last (List.mem_singleton_self _) hh
          rw [hxlow] at this
          cases this
        · rw [← List.mem_singleton.1 hx]
          exact hxlow
      have hlk : last.key ≠ w.key := hl last hlastmem
      have hfront4 : (ranked front w).length = 4 := by
        rw [ranked_length, List.length_dropLast, hlen4]
      have htake : m.take 4 = ranked front w := by
        rw [hrank, hsplit, EarForm.ranked_concat_low hlastlow, List.take_left' hfront4]
      have hrne : r ≠ some last.key := fun hx => hlk (hr' _ hx)
      have hu : u = dropKey last.key (setStanding w.key .waiting (s.withWaiting d (ranked front w))) := by
        have hfull := takeWaiting_full (d := d) (k := w.key) (r := r) (s := s) (w := last) (Nat.lt_of_not_le hlen)
          (by rw [hrank, ranked_getLast hlow]; exact List.getLast?_eq_some_getLast hne)
        rw [if_neg hrne, if_neg hlk, htake] at hfull
        exact congrArg Prod.fst hfull
      have hkey : ∀ j, u.key j = if j = last.key then s.dropped last.key
          else if j = w.key then { s.key w.key with standing := .waiting } else s.key j := fun j => by
        rw [hu, dropKey_key, setStanding_waiting_key]
        simp only [State.dropped, setStanding_waiting_key, if_neg hlk]
        rfl
      have hshed : EarForm free (· = w.key) (dropKey last.key s).key d (s.arbiter d).current front := by
        have hnodup := h.nodup
        rw [hsplit, List.map_append] at hnodup
        refine h.shed (k := last.key) (List.dropLast_sublist _) (fun x hx hxk => ?_) (fun x hx hxk => ?_)
          (fun hcl => h.waits_ne hlastmem hcl rfl) (fun j hj => dropKey_other hj s) ?_
        · rw [hsplit] at hx
          rcases List.mem_append.1 hx with hx | hx
          · exact hx
          · exact absurd (congrArg Waiter.key (List.mem_singleton.1 hx)) hxk
        · exact (List.nodup_append.1 hnodup).2.2 x.key (List.mem_map_of_mem hx) last.key List.mem_cons_self hxk
        · rw [dropKey_key, if_pos rfl]
          rfl
      have hself : u.key w.key = { s.key w.key with standing := .waiting } := by
        rw [hkey, if_neg hlk.symm, if_pos rfl]
      rw [show (u.arbiter d) = { s.arbiter d with waiting := ranked front w } by
        rw [hu, dropKey_arbiter, setStanding_arbiter, withWaiting_ear]]
      refine hshed.wait (g := u.key) (fun j hj => hj) rfl hc
        (fun x hx => hl x (by rw [hsplit]; exact List.mem_append_left _ hx)) (EarForm.ranked_perm _ _)
        (EarForm.ranked_order hshed.order w) hfront4.le (fun j hj => ?_) (by rw [hself]; exact hold) (by rw [hself])
        (by rw [hself]; exact hp)
      rw [hkey, dropKey_key, if_neg hj]

end Sys2Proof.Machine
end

section
/-! PROOF. The arbiters keep their form as keys request an ear and leave it, are pressed, released and dropped (R110 to R115,
R142 to R150). -/

namespace Sys2Proof.Machine

/-! ## A request -/

theorem requestArbiter_key_other {k j : KeyId} {d : DestId} (a : SourceId) {s : State} (hk : j ≠ k)
    (hc : (s.arbiter d).current ≠ some j) (hw : ∀ w ∈ (s.arbiter d).waiting, w.key ≠ j) :
    (requestArbiter k a d s).1.key j = s.key j := by
  have hwait : ∀ (high : Bool) (v : State), v.keys = s.keys → v.arbiters = s.arbiters →
      (placeWaiting k d high v).1.key j = s.key j := fun high v hv ha => by
    have harb : v.arbiter d = s.arbiter d := congrArg (tget · d) ha
    have hmem : ∀ x ∈ insertByRank { key := k, high := high } (v.arbiter d).waiting, x.key ≠ j := by
      intro x hx
      have hx' : x = { key := k, high := high } ∨ x ∈ (s.arbiter d).waiting := by
        rw [harb] at hx
        unfold insertByRank at hx
        split at hx
        · exact List.mem_cons.1 ((EarForm.ranked_perm _ _).subset hx)
        · exact (List.mem_append.1 hx).symm.imp_left List.mem_singleton.1
      rcases hx' with rfl | hx'
      · exact hk.symm
      · exact hw x hx'
    exact (takeWaiting_key_other hk hmem).trans (congrArg (tget · j) hv)
  have hr := raise_touches .grantRefused (some d.val) s
  cases hcur : (s.arbiter d).current with
  | none =>
    rw [requestArbiter_free hcur]
    split
    · exact (preempting_key s k a d j).trans (if_neg hk)
    · exact congrArg (tget · j) hr.keys
  | some c =>
    have hcj : j ≠ c := fun h => hc (h ▸ hcur)
    by_cases ho : s.outranks k c
    · rw [requestArbiter_outranks hcur ho]
      split
      · have hmem : ∀ x ∈ ranked ((s.preempting k a d).arbiter d).waiting { key := c, high := false }, x.key ≠ j := by
          intro x hx
          rw [preempting_arbiter] at hx
          rcases List.mem_cons.1 ((EarForm.ranked_perm _ _).subset hx) with rfl | hx
          · exact hcj.symm
          · exact hw x hx
        change (preempt c d (s.preempting k a d)).key j = _
        rw [preempt_eq, takeWaiting_key_other hcj hmem, withoutGrant_key, preempting_key, if_neg hk]
      · exact hwait _ _ hr.keys hr.arbiters
    · rw [requestArbiter_behind hcur ho]
      exact hwait _ _ rfl rfl

/-- A key of standing NONE that requests its ear and waits leaves the ear in its form. -/
theorem placeWaiting_ear {free : KeyId → Prop} {k : KeyId} {d : DestId} {s : State}
    (h : EarForm free (fun _ => False) s.key d (s.arbiter d).current (s.arbiter d).waiting)
    (hold : (s.key k).Holdable (free k) d) (hst : (s.key k).standing = .outside) :
    let u := (placeWaiting k d ((s.key k).priority == .high) s).1
    EarForm free (fun _ => False) u.key d (u.arbiter d).current (u.arbiter d).waiting := by
  obtain ⟨hc, hl⟩ := h.outside_ne hst
  have hloose : EarForm free (· = k) s.key d (s.arbiter d).current (s.arbiter d).waiting :=
    ⟨h.length, h.nodup, h.order, h.waits, h.current, fun j _ => h.placed j id⟩
  refine takeWaiting_ear (w := { key := k, high := (s.key k).priority == .high }) (r := some k) hloose hc hl hold
    beq_iff_eq ?_ (fun _ => hst) fun j hj => (Option.some.inj hj).symm
  unfold insertByRank
  cases hp : (s.key k).priority == .high with
  | true => exact .inl rfl
  | false => exact .inr ⟨rfl, rfl⟩

theorem requestArbiter_ears {free : KeyId → Prop} {k : KeyId} {a : SourceId} {d : DestId} {s : State}
    (h : EarsInv free s) (hold : (s.key k).Holdable (free k) d) (hst : (s.key k).standing = .outside) :
    EarsInv free (requestArbiter k a d s).1 := by
  have hd := h.1 d
  obtain ⟨hnc, hnl⟩ := hd.outside_ne hst
  refine h.of_ear (KeyUnitKept.requestArbiter k a d s) (fun m hm => requestArbiter_arbiter_ne hm k a s) (fun j hj => ?_) ?_
  · refine requestArbiter_key_other a (fun hjk => hj (hjk ▸ hold.2.1)) (fun hc => hj (hd.current j hc).1.2.1) fun w hw hwj => ?_
    exact hj (hwj ▸ (hd.waits w hw).1.2.1)
  · have hwait : ∀ v : State, v.keys = s.keys → v.arbiters = s.arbiters →
        EarForm free (fun _ => False) (placeWaiting k d ((s.key k).priority == .high) v).1.key d
          ((placeWaiting k d ((s.key k).priority == .high) v).1.arbiter d).current
          ((placeWaiting k d ((s.key k).priority == .high) v).1.arbiter d).waiting := fun v hv ha => by
      have hkey : v.key = s.key := funext fun j => congrArg (tget · j) hv
      have harb : v.arbiter d = s.arbiter d := congrArg (tget · d) ha
      rw [← hkey]
      exact placeWaiting_ear (by rw [hkey, harb]; exact hd) (by rw [hkey]; exact hold) (by rw [hkey]; exact hst)
    have hr := raise_touches .grantRefused (some d.val) s
    have hself : (s.preempting k a d).key k = { s.key k with standing := .current } :=
      (preempting_key s k a d k).trans (if_pos rfl)
    cases hcur : (s.arbiter d).current with
    | none =>
      rw [requestArbiter_free hcur]
      rw [hcur] at hd
      split
      · change EarForm free _ (s.preempting k a d).key d ((s.preempting k a d).arbiter d).current
          ((s.preempting k a d).arbiter d).waiting
        rw [preempting_arbiter]
        refine hd.become (fun _ hf => hf.elim) hnl (fun j hj => (preempting_key s k a d j).trans (if_neg hj)) ?_ ?_
        · rw [hself]
          exact hold
        · rw [hself]
      · have hkey : (raise .grantRefused (some d.val) s).key = s.key := funext fun j => congrArg (tget · j) hr.keys
        have harb : (raise .grantRefused (some d.val) s).arbiter d = s.arbiter d := congrArg (tget · d) hr.arbiters
        change EarForm free _ (raise .grantRefused (some d.val) s).key d _ _
        rw [hkey, harb, hcur]
        exact hd
    | some c =>
      by_cases ho : s.outranks k c
      · rw [requestArbiter_outranks hcur ho]
        split
        · have hck : c ≠ k := fun hck => hnc (hck ▸ hcur)
          rw [hcur] at hd
          have hloose : EarForm free (· = c) (s.preempting k a d).key d (some k) (s.arbiter d).waiting :=
            hd.replace hnl (fun i hi => (preempting_key s k a d i).trans (if_neg hi)) (by rw [hself]; exact hold)
              (by rw [hself])
          have hkeyc : (s.preempting k a d).key c = s.key c := (preempting_key s k a d c).trans (if_neg hck)
          have hleft : ((s.preempting k a d).withoutGrant c d).arbiter d = { s.arbiter d with current := some k } :=
            (congrArg (tget · d) (withoutGrant_touches _ c d).arbiters).trans (preempting_arbiter s k a d)
          have hkey : ((s.preempting k a d).withoutGrant c d).key = (s.preempting k a d).key :=
            funext (withoutGrant_key _ c d)
          change EarForm free _ (preempt c d (s.preempting k a d)).key d
            ((preempt c d (s.preempting k a d)).arbiter d).current ((preempt c d (s.preempting k a d)).arbiter d).waiting
          rw [preempt_eq, preempting_arbiter]
          refine takeWaiting_ear (w := { key := c, high := false }) (r := none) (s := (s.preempting k a d).withoutGrant c d)
            ?_ ?_ ?_ ?_ ?_ (.inl (by rw [hleft])) nofun nofun
          · rw [hleft, hkey]
            exact hloose
          · rw [hleft]
            exact fun hc => hck (Option.some.inj hc).symm
          · rw [hleft]
            exact fun x hx => hd.waits_ne hx rfl
          · rw [hkey, hkeyc]
            exact (hd.current c rfl).1
          · rw [hkey, hkeyc, ho.2]
            exact ⟨nofun, nofun⟩
        · exact hwait _ hr.keys hr.arbiters
      · rw [requestArbiter_behind hcur ho]
        exact hwait _ rfl rfl

/-- A request refused leaves the key's own record as it was. -/
theorem requestArbiter_refused_key {free : KeyId → Prop} {k : KeyId} {a : SourceId} {d : DestId} {s : State}
    (h : EarsInv free s) (hst : (s.key k).standing = .outside) (hr : (requestArbiter k a d s).2 = false) :
    (requestArbiter k a d s).1.key k = s.key k := by
  have hd := h.1 d
  obtain ⟨hnc, hnl⟩ := hd.outside_ne hst
  have hraise := raise_touches .grantRefused (some d.val) s
  have hwait : ∀ (high : Bool) (v : State), v.keys = s.keys → v.arbiters = s.arbiters →
      (placeWaiting k d high v).2 = false → (placeWaiting k d high v).1.key k = s.key k := fun high v hv ha hp => by
    have harb : v.arbiter d = s.arbiter d := congrArg (tget · d) ha
    unfold placeWaiting at hp ⊢
    generalize insertByRank { key := k, high := high } (v.arbiter d).waiting = l at hp ⊢
    by_cases hlen : l.length ≤ 4
    · rw [takeWaiting_fits hlen] at hp
      cases hp
    · have hne : l ≠ [] := fun hn => hlen (by rw [hn]; exact Nat.zero_le 4)
      rw [takeWaiting_full (Nat.lt_of_not_le hlen) (List.getLast?_eq_some_getLast hne)] at hp ⊢
      split
      · exact congrArg (tget · k) hv
      · next hx => rw [if_neg hx] at hp; cases hp
  cases hcur : (s.arbiter d).current with
  | none =>
    rw [requestArbiter_free hcur] at hr ⊢
    split
    · next hg => rw [if_pos hg] at hr; cases hr
    · exact congrArg (tget · k) hraise.keys
  | some c =>
    by_cases ho : s.outranks k c
    · rw [requestArbiter_outranks hcur ho] at hr ⊢
      split
      · next hg => rw [if_pos hg] at hr; cases hr
      · next hg =>
        rw [if_neg hg] at hr
        exact hwait _ _ hraise.keys hraise.arbiters hr
    · rw [requestArbiter_behind hcur ho] at hr ⊢
      exact hwait _ _ rfl rfl hr

/-! ## Leaving -/

theorem promote_ear {free : KeyId → Prop} {d : DestId} {l : List Waiter} {s : State}
    (h : EarForm free (fun _ => False) s.key d none l) :
    EarForm free (fun _ => False) (promote d l s).key d ((promote d l s).arbiter d).current
      ((promote d l s).arbiter d).waiting := by
  induction l generalizing s with
  | nil =>
    have ha : (promote d [] s).arbiter d = { current := none, waiting := [] } := State.arbiter_setArbiter_same s d _
    rw [ha]
    exact h
  | cons w ws ih =>
    have hnodup := List.nodup_cons.1 h.nodup
    have hshed : ∀ v : State, (∀ j, v.key j = (dropKey w.key s).key j) →
        EarForm free (fun _ => False) v.key d none ws := fun v hv =>
      h.shed (k := w.key) (List.sublist_cons_self _ _) (fun x hx hxk => (List.mem_cons.1 hx).resolve_left
          fun hxw => hxk (congrArg Waiter.key hxw))
        (fun x hx hxk => hnodup.1 (hxk ▸ List.mem_map_of_mem hx)) nofun
        (fun j hj => (hv j).trans (dropKey_other hj s)) (by rw [hv, dropKey_key, if_pos rfl]; rfl)
    cases hb : s.ownSource w.key with
    | none =>
      rw [promote_sourceless hb]
      exact ih (hshed _ fun _ => rfl)
    | some b =>
      cases hr : (requestGrant w.key b d s).2 with
      | false =>
        rw [promote_refused hb hr]
        exact ih (hshed _ (refusal_key w.key d s))
      | true =>
        have hkey : ∀ j, (promote d (w :: ws) s).key j =
            if j = w.key then { s.key w.key with standing := .current } else s.key j := fun j => by
          have hk : ∀ i, ((requestGrant w.key b d s).1.setArbiter d { current := some w.key, waiting := ws }).key i =
              s.key i := fun i => congrArg (tget · i) (requestGrant_touches w.key b d s).keys
          rw [promote_granted hb hr, setStanding_key, hk, hk]
        have ha : (promote d (w :: ws) s).arbiter d = { current := some w.key, waiting := ws } := by
          rw [promote_granted hb hr, setStanding_arbiter]
          exact State.arbiter_setArbiter_same _ d _
        rw [ha]
        exact h.serve (fun j hj => (hkey j).trans (if_neg hj)) ((hkey w.key).trans (if_pos rfl))

theorem leaveArbiter_homeless {k : KeyId} {s : State} (h : (s.key k).target = none) : leaveArbiter k s = s := by
  unfold leaveArbiter
  rw [h]

/-- R149, R150: a key leaves its ear in its form, its own standing NONE. -/
theorem leaveArbiter_ears {free : KeyId → Prop} {k : KeyId} {s : State} (h : EarsInv free s) :
    EarsInv free (leaveArbiter k s) ∧ ((leaveArbiter k s).key k).standing = .outside := by
  cases ht : (s.key k).target with
  | none =>
    rw [leaveArbiter_homeless ht]
    exact ⟨h, by_contra fun hn => h.2 k hn ht⟩
  | some d =>
    have hd := h.1 d
    have hkept := KeyUnitKept.leaveArbiter k s
    by_cases hc : (s.arbiter d).current = some k
    · have hkey : ∀ j, (setStanding k .outside (s.withoutGrant k d)).key j =
          if j = k then { s.key k with standing := .outside } else s.key j := fun j => by
        rw [setStanding_key, withoutGrant_key, withoutGrant_key]
      rw [hc] at hd
      have hleft : EarForm free (fun _ => False) (setStanding k .outside (s.withoutGrant k d)).key d none
          (s.arbiter d).waiting :=
        hd.leave (fun j hj => (hkey j).trans (if_neg hj)) (by rw [hkey, if_pos rfl])
      have hkw : ∀ w ∈ (s.arbiter d).waiting, w.key ≠ k := fun w hw => hd.waits_ne hw rfl
      rw [leaveArbiter_current ht hc] at hkept ⊢
      refine ⟨h.of_ear hkept (fun m hm => ?_) (fun j hj => ?_) (promote_ear hleft), ?_⟩
      · rw [promote_arbiter_ne hm, setStanding_arbiter]
        exact congrArg (tget · m) (withoutGrant_touches s k d).arbiters
      · have hjw : ∀ w ∈ (s.arbiter d).waiting, w.key ≠ j := fun w hw hwj => hj (hwj ▸ (hd.waits w hw).1.2.1)
        have hjk : j ≠ k := fun hjk => hj (hjk ▸ ht)
        rw [promote_key_other hjw, hkey, if_neg hjk]
      · rw [promote_key_other hkw, hkey, if_pos rfl]
    · rw [leaveArbiter_waiting ht hc] at hkept ⊢
      by_cases hw : ∃ w ∈ (s.arbiter d).waiting, w.key = k
      · rw [if_pos hw] at hkept ⊢
        have hkey : ∀ (l : List Waiter) j, (setStanding k .outside (s.withWaiting d l)).key j =
            if j = k then { s.key k with standing := .outside } else s.key j := fun l j => setStanding_key k .outside _ j
        refine ⟨h.of_ear (d := d) hkept (fun m hm => ?_) (fun j hj => ?_) ?_, by rw [hkey, if_pos rfl]⟩
        · rw [setStanding_arbiter]
          exact (withWaiting_arbiter s d _ m).trans (if_neg hm)
        · have hjk : j ≠ k := fun hjk => hj (hjk ▸ ht)
          rw [hkey, if_neg hjk]
        · rw [setStanding_arbiter, withWaiting_ear]
          refine hd.shed (k := k) List.filter_sublist (fun x hx hxk => List.mem_filter.2 ⟨hx, by simpa using hxk⟩)
            (fun x hx hxk => ?_) hc (fun j hj => (hkey _ j).trans (if_neg hj)) (by rw [hkey, if_pos rfl])
          have := (List.mem_filter.1 hx).2
          simp [hxk] at this
      · rw [if_neg hw]
        refine ⟨h, by_contra fun hn => ?_⟩
        rcases hd.placed k id ht hn with hx | hx
        · exact hc hx
        · exact hw hx

end Sys2Proof.Machine
end

section
/-! PROOF. Presses, releases, loss policies and key cells keep the form of the ears (R142, R143). -/

namespace Sys2Proof.Machine

/-! ## One key rewritten -/

theorem EarsInv.of_keys {free : KeyId → Prop} {s t : State} (h : EarsInv free s) (hk : ∀ k, t.key k = s.key k)
    (ha : ∀ d, t.arbiter d = s.arbiter d) : EarsInv free t := by
  unfold EarsInv
  rw [show t.key = s.key from funext hk]
  simp only [ha]
  exact h

/-- A key rewritten but for what its ear reads. -/
theorem EarsInv.setKey_alike {free : KeyId → Prop} {s : State} {k : KeyId} {r : Key} (h : EarsInv free s)
    (hf : r.function = (s.key k).function) (ht : r.target = (s.key k).target) (hp : r.priority = (s.key k).priority)
    (hst : r.standing = (s.key k).standing) (hs : r.state = (s.key k).state) : EarsInv free (s.setKey k r) := by
  refine h.setKey (fun _ _ hj => hj) ?_
  by_cases ho : (s.key k).standing = .outside
  · exact .inl ⟨hst.trans ho, ho⟩
  · refine .inr ⟨hf, ht, hp, hst, ?_⟩
    rw [hs]
    by_contra hn
    obtain ⟨h1, h2⟩ := not_or.1 hn
    exact ho (h.outside (.inr ⟨eq_false_of_ne_true h1, h2⟩))

theorem EarsInv.handKey {free : KeyId → Prop} {k : KeyId} {s : State} (h : EarsInv free s) : EarsInv free (handKey k s) :=
  h.of_touches (handKey_touches k s)

theorem EarsInv.flushLamps {free : KeyId → Prop} {s : State} (h : EarsInv free s) : EarsInv free (flushLamps s) :=
  h.of_touches (flushLamps_touches s)

/-- A key of standing NONE that enters any state. -/
theorem EarsInv.write_outside {free more : KeyId → Prop} {s : State} {k : KeyId} {r : Key} (h : EarsInv free s)
    (hf : ∀ j, j ≠ k → free j → more j) (ho : (s.key k).standing = .outside) (hr : r.standing = .outside) :
    EarsInv more (Machine.handKey k (s.setKey k r)) := (h.setKey hf (.inl ⟨hr, ho⟩)).handKey

/-! ## What keys acquire and give up -/

theorem acquireGrant_touches_store (k : KeyId) (a : Option SourceId) (b : Option DestId) (s : State) :
    Touches [.entries, .nextSerial, .lampDirty, .events, .notices, .draws] s (acquireGrant k a b s).1 := by
  cases a with
  | none => exact .refl _ s
  | some a =>
    cases b with
    | none => exact .refl _ s
    | some b =>
      cases hr : (requestGrant k a b s).2 with
      | true => rw [acquireGrant_granted hr]; exact (requestGrant_touches k a b s).up
      | false => rw [acquireGrant_refused hr]; exact (raise_touches _ _ s).up

/-- What an action other than a request of an ear writes of the keys and the arbiters: at most its own resolved station. -/
def OwnKeyOnly (k : KeyId) (s t : State) : Prop :=
  (∀ d, t.arbiter d = s.arbiter d) ∧ (∀ j, j ≠ k → t.key j = s.key j) ∧ ∃ x, t.key k = { s.key k with resolved := x }

theorem OwnKeyOnly.of_touches {k : KeyId} {l : List Fld} {s t : State} (h : Touches l s t) (hk : .keys ∉ l := by decide)
    (ha : .arbiters ∉ l := by decide) : OwnKeyOnly k s t :=
  ⟨fun d => congrArg (tget · d) (h.arbiters ha), fun j _ => congrArg (tget · j) (h.keys hk), (s.key k).resolved,
    congrArg (tget · k) (h.keys hk)⟩

theorem OwnKeyOnly.resolve {k : KeyId} {s t : State} (h : OwnKeyOnly k s t) (x : Option StationId) :
    OwnKeyOnly k s (handKey k (t.setKey k { t.key k with resolved := x })) := by
  obtain ⟨ha, hj, y, hy⟩ := h
  refine ⟨ha, fun j hne => ((State.key_setKey t k _ j).trans (if_neg hne)).trans (hj j hne), x, ?_⟩
  rw [handKey_key, State.key_setKey_same, hy]

theorem OwnKeyOnly.trans_touches {k : KeyId} {l : List Fld} {s t u : State} (h : Touches l s t) (hu : OwnKeyOnly k t u)
    (hk : .keys ∉ l := by decide) (ha : .arbiters ∉ l := by decide) : OwnKeyOnly k s u := by
  obtain ⟨h1, h2, x, h3⟩ := hu
  have hkey : ∀ j, t.key j = s.key j := fun j => congrArg (tget · j) (h.keys hk)
  refine ⟨fun d => (h1 d).trans (congrArg (tget · d) (h.arbiters ha)), fun j hj => (h2 j hj).trans (hkey j), x, ?_⟩
  rw [h3, hkey]

theorem OwnKeyOnly.ears {free : KeyId → Prop} {k : KeyId} {s t : State} (h : OwnKeyOnly k s t) (hs : EarsInv free s) :
    EarsInv free t := by
  obtain ⟨ha, hj, x, hx⟩ := h
  have hset := hs.setKey_alike (k := k) (r := { s.key k with resolved := x }) rfl rfl rfl rfl rfl
  refine hset.of_keys (fun j => ?_) ha
  rw [State.key_setKey]
  split
  · next hjk => rw [hjk, hx]
  · next hjk => exact hj j hjk

theorem acquire_own {k : KeyId} {s : State} (hf : (s.key k).function ≠ .ifb) : OwnKeyOnly k s (acquire k s).1 := by
  have hreply : OwnKeyOnly k s (acquireReply k s).1 := by
    cases hl : (s.panel (keyPanel k)).replyList with
    | nil => rw [acquireReply_nil hl]; exact .of_touches (.refl [] s)
    | cons e rest =>
      rw [acquireReply_cons hl]
      dsimp only
      refine .trans_touches (removeCaller_touches (keyPanel k) e.station s) ?_
      split
      · exact (OwnKeyOnly.of_touches (acquireGrant_touches_store k _ _ _)).resolve _
      · exact .of_touches (acquireGrant_touches_store k _ _ _)
  unfold acquire
  cases hfun : (s.key k).function with
  | unassigned => exact .of_touches (.refl [] s)
  | talkStation =>
    dsimp only
    split
    · exact .of_touches (acquireGrant_touches_store k _ _ s)
    · exact .of_touches (.refl [] s)
  | listenStation =>
    dsimp only
    split
    · exact .of_touches (acquireGrant_touches_store k _ _ s)
    · exact .of_touches (.refl [] s)
  | talkParty => exact .of_touches (acquireTalk_touches k s)
  | ifb => exact absurd hfun hf
  | callStation => exact .of_touches (acquireCall_touches k s)
  | reply => exact hreply

theorem surrenderGrant_touches_held (k : KeyId) (s : State) : Touches [.entries, .lampDirty] s (surrenderGrant k s) := by
  unfold surrenderGrant
  split
  · exact depart_touches_held _ _ _ s
  · exact .refl _ s

theorem giveUp_own {k : KeyId} {s : State} (hf : (s.key k).function ≠ .ifb) : OwnKeyOnly k s (giveUp k s) := by
  unfold giveUp
  cases hfun : (s.key k).function with
  | unassigned => exact .of_touches (.refl [] s)
  | talkStation => exact .of_touches (surrenderGrant_touches_held k s)
  | listenStation => exact .of_touches (surrenderGrant_touches_held k s)
  | reply => exact (OwnKeyOnly.of_touches (surrenderGrant_touches_held k s)).resolve none
  | talkParty => exact .of_touches (surrenderTalk_touches k s)
  | ifb => exact absurd hfun hf
  | callStation => exact .of_touches (.refl [] s)

/-- R110, R144: a key of standing NONE acquires; a refusal leaves its standing. -/
theorem acquire_ears {k : KeyId} {s : State} (h : EarsInv (fun _ => False) s) (ho : (s.key k).standing = .outside) :
    EarsInv (· = k) (acquire k s).1 ∧ ((acquire k s).2 = false → ((acquire k s).1.key k).standing = .outside) := by
  have hmore : EarsInv (· = k) s := h.mono fun _ => False.elim
  by_cases hf : (s.key k).function = .ifb
  · cases ht : (s.key k).target with
    | none =>
      have ha : acquire k s = (s, false) := by
        unfold acquire
        rw [hf]
        dsimp only
        unfold acquireIfb
        rw [ht]
      rw [ha]
      exact ⟨hmore, fun _ => ho⟩
    | some d =>
      rw [acquire_ifb hf ht]
      split
      · split
        · exact ⟨requestArbiter_ears hmore ⟨hf, ht, .inr rfl⟩ ho, fun hr => by
            rw [requestArbiter_refused_key hmore ho hr, ho]⟩
        · exact ⟨hmore, fun _ => ho⟩
      · exact ⟨hmore, fun _ => ho⟩
  · have hown := acquire_own hf
    refine ⟨hown.ears hmore, fun _ => ?_⟩
    obtain ⟨-, -, x, hx⟩ := hown
    rw [hx, ho]

theorem giveUp_ears {free : KeyId → Prop} {k : KeyId} {s : State} (h : EarsInv free s) :
    EarsInv free (giveUp k s) ∧ ((giveUp k s).key k).standing = .outside := by
  by_cases hf : (s.key k).function = .ifb
  · rw [giveUp_ifb hf]
    exact leaveArbiter_ears h
  · have hown := giveUp_own hf
    refine ⟨hown.ears h, ?_⟩
    obtain ⟨-, -, x, hx⟩ := hown
    rw [hx]
    exact h.outside (.inl hf)

/-! ## Presses, releases and policies -/

theorem enterByMode_ears {k : KeyId} {s : State} (h : EarsInv (· = k) s) : EarsInv (fun _ => False) (enterByMode k s) := by
  have hon : ∀ (st : KeyState) (timer : Option Count), st.isOn = true →
      EarsInv (fun _ => False) (handKey k (s.setKey k { s.key k with state := st, latchTimer := timer })) :=
    fun st timer hst => (h.setKey (r := { s.key k with state := st, latchTimer := timer }) (fun _ hj hk => hj hk)
      (.inr ⟨rfl, rfl, rfl, rfl, .inl hst⟩)).handKey
  unfold enterByMode
  cases (s.key k).mode with
  | momentary => exact hon .momentaryOn none rfl
  | latching => exact hon .latched none rfl
  | auto => exact hon .pressed _ rfl

theorem enterState_ears {free more : KeyId → Prop} {k : KeyId} (st : KeyState) {s : State} (h : EarsInv free s)
    (hf : ∀ j, j ≠ k → free j → more j) (ho : (s.key k).standing = .outside) : EarsInv more (enterState k st s) :=
  h.write_outside hf ho ho

theorem press_ears {k : KeyId} {s : State} (h : EarsInv (fun _ => False) s) : EarsInv (fun _ => False) (press k s) := by
  by_cases hf : (s.key k).function = .unassigned
  · rw [press_unassigned hf]
    exact h
  by_cases hi : (s.key k).state = .idle
  · have ho := h.outside (k := k) (.inr ⟨by rw [hi]; rfl, id⟩)
    obtain ⟨hu, hrefused⟩ := acquire_ears h ho
    rw [press_idle hf hi]
    split
    · exact enterByMode_ears hu
    · next hno =>
      have hout := hrefused (eq_false_of_ne_true hno)
      have henter : EarsInv (fun _ => False) (enterState k .refusedHeld (acquire k s).1) :=
        enterState_ears _ hu (fun _ hj hk => hj hk) hout
      refine EarsInv.write_outside henter (fun _ _ hj => hj) ?_ ?_
      all_goals
        rw [enterState_key, if_pos rfl]
        exact hout
  by_cases hl : (s.key k).state = .latched
  · rw [press_latched hf hl]
    exact enterState_ears _ (giveUp_ears h).1 (fun _ _ hj => hj) (giveUp_ears h).2
  · rw [press_other hi hl]
    exact h

theorem release_ears {k : KeyId} {s : State} (h : EarsInv (fun _ => False) s) : EarsInv (fun _ => False) (release k s) := by
  obtain ⟨hpressed, hmomentary, hidle, hkept⟩ := release_eq k s
  have hoff : (s.key k).state.isOn = false → (s.key k).standing = .outside := fun hs => h.outside (.inr ⟨hs, id⟩)
  cases hs : (s.key k).state with
  | pressed =>
    rw [hpressed hs]
    exact (h.setKey (r := { s.key k with state := .latched, latchTimer := none }) (fun _ _ hj => hj)
      (.inr ⟨rfl, rfl, rfl, rfl, .inl rfl⟩)).handKey
  | momentaryOn =>
    rw [hmomentary hs]
    exact enterState_ears _ (giveUp_ears h).1 (fun _ _ hj => hj) (giveUp_ears h).2
  | unlatching =>
    rw [hidle (.inl hs)]
    exact enterState_ears _ h (fun _ _ hj => hj) (hoff (by rw [hs]; rfl))
  | refusedHeld =>
    rw [hidle (.inr hs)]
    exact enterState_ears _ h (fun _ _ hj => hj) (hoff (by rw [hs]; rfl))
  | idle => rw [hkept (.inl hs)]; exact h
  | latched => rw [hkept (.inr hs)]; exact h

theorem keyPosition_ears {k : KeyId} {b : Bool} {s : State} (h : EarsInv (fun _ => False) s) :
    EarsInv (fun _ => False) (keyPosition k b s) := by
  have hset := h.setKey_alike (k := k) (r := { s.key k with down := b }) rfl rfl rfl rfl rfl
  unfold keyPosition
  split
  · exact h
  · cases b with
    | true => exact (press_ears hset).flushLamps
    | false => exact (release_ears hset).flushLamps

theorem lossRelease_ears {k : KeyId} {s : State} (h : EarsInv (fun _ => False) s) :
    EarsInv (fun _ => False) (lossRelease k s) := by
  unfold lossRelease
  split
  · exact enterState_ears _ (giveUp_ears h).1 (fun _ _ hj => hj) (giveUp_ears h).2
  · next hoff => exact enterState_ears _ h (fun _ _ hj => hj) (h.outside (.inr ⟨eq_false_of_ne_true hoff, id⟩))

theorem reconcile_ears {p : PanelId} {m : BitVec 32} {s : State} (h : EarsInv (fun _ => False) s) :
    EarsInv (fun _ => False) (reconcile p m s) :=
  foldl_keeps (fun _ _ ht => keyPosition_ears ht) _ s h

theorem applyPolicy_ears {pol : LossPolicy} {p : PanelId} {s : State} (h : EarsInv (fun _ => False) s) :
    EarsInv (fun _ => False) (applyPolicy pol p s) :=
  foldl_keeps (fun t k ht => by
    split
    · exact (lossRelease_ears ht).flushLamps
    · exact ht) _ s h

theorem panelOffline_ears {p : PanelId} {s : State} (h : EarsInv (fun _ => False) s) :
    EarsInv (fun _ => False) (panelOffline p s) :=
  (applyPolicy_ears (h.of_touches (setPanel_touches s p _))).of_touches (raise_touches _ _ _)

theorem keyPortLost_ears {x : PortId} {s : State} (h : EarsInv (fun _ => False) s) :
    EarsInv (fun _ => False) (keyPortLost x s) :=
  foldl_keeps (fun t p ht => by
    split
    · exact panelOffline_ears ht
    · exact ht) _ s h

theorem panelOnline_ears {p : PanelId} {m : BitVec 32} {s : State} (h : EarsInv (fun _ => False) s) :
    EarsInv (fun _ => False) (panelOnline p m s) := by
  unfold panelOnline
  dsimp only
  refine EarsInv.of_touches (EarsInv.of_touches (reconcile_ears ?_) (setPanel_touches _ p _)) (raise_touches _ _ _)
  exact (h.of_touches (setPanel_touches s p _)).of_touches (startSilence_touches p _)

theorem moveTarget_ears {free : KeyId → Prop} {p : PanelId} {e : Encoder} {n : Int} {s : State} (h : EarsInv free s) :
    EarsInv free (moveTarget p e n s) := by
  unfold moveTarget
  split
  · split
    · exact h.of_touches (setDest_touches s _ _)
    · exact h
  · next i _ =>
    let l := stepLevel (s.key (keyIndex p i)).talkLevel n e.minimum e.maximum
    have hkey : EarsInv free (s.setKey (keyIndex p i) { s.key (keyIndex p i) with talkLevel := l }) :=
      h.setKey_alike rfl rfl rfl rfl rfl
    dsimp only
    split
    · next a b _ => exact hkey.of_touches (writeEntryLevel_touches l a b _)
    · exact hkey

theorem turnEncoder_ears {free : KeyId → Prop} {p : PanelId} {i : Fin 4} {n : Int} {s : State} (h : EarsInv free s) :
    EarsInv free (turnEncoder p i n s) := by
  unfold turnEncoder
  dsimp only
  split
  · exact h.of_touches (setPanel_touches s p _)
  · exact moveTarget_ears (h.of_touches (setPanel_touches s p _))

theorem handleKeyCell_ears {x : PortId} {node : Byte} {c : KeyCell} {s : State} (h : EarsInv (fun _ => False) s) :
    EarsInv (fun _ => False) (handleKeyCell x node c s) := by
  unfold handleKeyCell
  split
  · exact h
  · next p _ =>
    have hsil : EarsInv (fun _ => False) (startSilence p s) := h.of_touches (startSilence_touches p s)
    split
    · unfold keyCellAtOnline
      split
      · split
        · split
          · exact keyPosition_ears hsil
          · split
            · exact keyPosition_ears hsil
            · exact hsil
        · exact hsil
      · exact reconcile_ears hsil
      · split
        · exact turnEncoder_ears hsil
        · exact hsil
    · split
      · exact panelOnline_ears h
      · exact h
      · exact h
    · exact h

theorem restKey_ears {free : KeyId → Prop} {k : KeyId} {s : State} (h : EarsInv free s) : EarsInv free (restKey k s) :=
  h.setKey_alike rfl rfl rfl rfl rfl

theorem unconfigure_ears {p : PanelId} {s : State} (h : EarsInv (fun _ => False) s) :
    EarsInv (fun _ => False) (unconfigure p s) := by
  unfold unconfigure
  dsimp only
  refine EarsInv.of_touches (EarsInv.flushLamps ?_) (setPanel_touches _ p _)
  have hempty : EarsInv (fun _ => False) (emptyReplyList p (applyPolicy .dropAll p s)) :=
    (applyPolicy_ears h).of_touches (emptyReplyList_touches p _)
  exact foldl_keeps (P := EarsInv fun _ => False) (fun t k ht => restKey_ears ht) (panelKeys p) _ hempty

end Sys2Proof.Machine
end

section
/-! PROOF. What one release by a loss policy does to its key, to the other keys and to their grants (R105, R115). -/

namespace Sys2Proof.Machine

/-! ## Grants that are not given -/

/-- No entry of the pair records the grant of key k. -/
def State.Ungranted (s : State) (k : KeyId) (a : SourceId) (b : DestId) : Prop :=
  ∀ e ∈ s.entriesOf b, e.source = a → e.holds (.grant k) = false

theorem ungranted_iff {s : State} {k : KeyId} {a : SourceId} {b : DestId} :
    s.Ungranted k a b ↔ ∀ e ∈ s.entriesOf b, e.source = a → k ∉ e.grants := by
  simp [State.Ungranted, Entry.holds]

theorem State.Ungranted.congr {s t : State} {k : KeyId} {a : SourceId} {b : DestId} (h : s.Ungranted k a b)
    (he : t.entries = s.entries) : t.Ungranted k a b := by
  unfold State.Ungranted
  rw [State.entriesOf_congr he]
  exact h

theorem State.Ungranted.of_touches {l : List Fld} {s t : State} {k : KeyId} {a : SourceId} {b : DestId} (h : s.Ungranted k a b)
    (ht : Touches l s t) (he : .entries ∉ l := by decide) : t.Ungranted k a b := h.congr (ht.entries he)

theorem State.Ungranted.map {s : State} {k : KeyId} {a : SourceId} {b : DestId} (h : s.Ungranted k a b) (src : SourceId)
    (d : DestId) (f : Entry → Entry) (hf : ∀ e, (f e).source = e.source)
    (hh : ∀ e, e.holds (.grant k) = false → (f e).holds (.grant k) = false) : (s.mapEntry src d f).Ungranted k a b := by
  intro e he ha
  rw [State.entriesOf_mapEntry] at he
  split at he
  · next hb =>
    subst hb
    obtain ⟨x, hx, rfl⟩ := List.mem_map.1 he
    split at ha
    · next hs =>
      rw [if_pos hs]
      exact hh x (h x hx ((hf x).symm.trans ha))
    · next hs =>
      rw [if_neg hs]
      exact h x hx ha
  · exact h e he ha

theorem State.Ungranted.arrived {s : State} {k : KeyId} {a : SourceId} {b : DestId} (h : s.Ungranted k a b) {g : Holder}
    (hg : g ≠ .grant k) (l : Level) (c : EntryClass) (src : SourceId) (d : DestId) :
    (arrive g l c src d s).1.Ungranted k a b := by
  rcases arrive_cases g l c src d s with ⟨-, -, ha⟩ | ⟨-, -, ha⟩ | ⟨e, -, ⟨-, ha⟩ | ⟨-, -, -, ha⟩ | ⟨-, -, -, ha⟩⟩
  · rw [ha]
    intro e he hea
    rw [entriesOf_createEntry] at he
    split at he
    · next hb =>
      subst hb
      rcases List.mem_append.1 he with he | he
      · exact h e he hea
      · rw [List.mem_singleton.1 he, newEntry_holds]
        exact decide_eq_false hg.symm
    · exact h e he hea
  · rw [ha]; exact h
  · rw [ha]; exact h
  · rw [ha]; exact h
  · refine (h.map src d _ (fun e => Entry.joined_source e g l c) fun e he => ?_).congr ha
    rw [Entry.holds_joined, he, Bool.or_false]
    exact decide_eq_false hg.symm

theorem State.Ungranted.departed {s : State} {k : KeyId} {a : SourceId} {b : DestId} (h : s.Ungranted k a b) (g : Holder)
    (src : SourceId) (d : DestId) : (depart g src d s).Ungranted k a b := by
  rcases depart_cases g src d s with ⟨-, hd⟩ | ⟨e, -, -, hd⟩
  · rw [hd]; exact h
  · refine (h.map src d _ (fun e => Entry.left_source e g) fun e he => ?_).congr hd
    rw [Entry.holds_left, he, Bool.and_false]

theorem State.Ungranted.requested {s : State} {k j : KeyId} {a : SourceId} {b : DestId} (h : s.Ungranted k a b) (hj : j ≠ k)
    (src : SourceId) (d : DestId) : (requestGrant j src d s).1.Ungranted k a b :=
  h.arrived (fun he => hj (Holder.grant.inj he)) _ _ src d

theorem State.Ungranted.changed {s : State} {k : KeyId} {a : SourceId} {b : DestId} (h : s.Ungranted k a b) (p : PartyId)
    (r : Party) : (changeParty p r s).Ungranted k a b := by
  unfold Machine.changeParty
  refine foldl_keeps (P := fun t => State.Ungranted t k a b) (fun t x ht => ?_) _ _ ?_
  · have hx := ht.arrived (g := .party p) nofun r.level .talk x.source x.dest
    unfold requestPair
    dsimp only
    split
    · exact hx
    · exact hx.of_touches (raise_touches _ _ _)
  · exact foldl_keeps (P := fun t => State.Ungranted t k a b) (fun t x ht => ht.departed _ _ _) _ _
      (h.of_touches (setParty_touches s p r))

theorem State.Ungranted.talked {s : State} {k : KeyId} {a : SourceId} {b : DestId} (h : s.Ungranted k a b) (p : PartyId)
    (c : StationId) (on : Bool) : (setTalk p c on s).Ungranted k a b := by
  unfold Machine.setTalk
  split
  · exact h
  · split
    · exact h
    · exact (h.changed p _).of_touches (handTalk_touches _ _ _)

/-! ## What a leaving key does to the others -/

/-- R146 to R149: what may become of a waiting key as others leave: nothing, the ear, or a drop. -/
def Waited (r q : Key) : Prop :=
  q = r ∨ q = { r with standing := .current } ∨
    (q.standing = .outside ∧ q.latchTimer = none ∧ q.down = r.down ∧ (q.state = .idle ∨ q.state = .refusedHeld))

theorem dropped_waited (s : State) (k : KeyId) : Waited (s.key k) (s.dropped k) := by
  have hstate : (s.dropped k).state = if (s.key k).down = true then .refusedHeld else .idle := rfl
  refine .inr (.inr ⟨rfl, rfl, rfl, ?_⟩)
  rw [hstate]
  split
  · exact .inr rfl
  · exact .inl rfl

theorem promote_waited {d : DestId} {l : List Waiter} (hn : (l.map Waiter.key).Nodup) (s : State) (j : KeyId) :
    Waited (s.key j) ((promote d l s).key j) := by
  induction l generalizing s with
  | nil => exact .inl rfl
  | cons w ws ih =>
    obtain ⟨hw, hn⟩ := List.nodup_cons.1 hn
    have hne : ∀ x ∈ ws, x.key ≠ w.key := fun x hx he => hw (he ▸ List.mem_map_of_mem hx)
    have hdrop : ∀ v : State, (∀ i, v.key i = (dropKey w.key s).key i) → Waited (s.key j) ((promote d ws v).key j) := by
      intro v hv
      by_cases hj : j = w.key
      · subst hj
        rw [promote_key_other hne, hv, dropKey_key, if_pos rfl]
        exact dropped_waited s w.key
      · have h := ih hn v
        rw [hv, dropKey_other hj] at h
        exact h
    cases hb : s.ownSource w.key with
    | none =>
      rw [promote_sourceless hb]
      exact hdrop _ fun _ => rfl
    | some b =>
      cases hr : (Machine.requestGrant w.key b d s).2 with
      | false =>
        rw [promote_refused hb hr]
        exact hdrop _ (refusal_key w.key d s)
      | true =>
        have hk : ∀ i, ((Machine.requestGrant w.key b d s).1.setArbiter d { current := some w.key, waiting := ws }).key i =
            s.key i := fun i => congrArg (tget · i) (requestGrant_touches w.key b d s).keys
        rw [promote_granted hb hr, setStanding_key, hk, hk]
        split
        · next hj => rw [hj]; exact .inr (.inl rfl)
        · exact .inl rfl

theorem promote_ungranted {d : DestId} {l : List Waiter} {k : KeyId} (hl : ∀ w ∈ l, w.key ≠ k) {s : State} {a : SourceId}
    {b : DestId} (h : s.Ungranted k a b) : (promote d l s).Ungranted k a b := by
  induction l generalizing s with
  | nil => exact h.of_touches (setArbiter_touches s d _)
  | cons w ws ih =>
    have hw := hl w List.mem_cons_self
    have ih := fun {t : State} => ih (fun x hx => hl x (List.mem_cons_of_mem _ hx)) (s := t)
    cases hb : s.ownSource w.key with
    | none =>
      rw [promote_sourceless hb]
      exact ih (h.of_touches (dropKey_touches w.key s))
    | some c =>
      cases hr : (Machine.requestGrant w.key c d s).2 with
      | false =>
        rw [promote_refused hb hr]
        exact ih (h.of_touches (refusal_touches w.key d s))
      | true =>
        rw [promote_granted hb hr]
        exact ((h.requested hw c d).of_touches (setArbiter_touches _ d _)).of_touches (setStanding_touches _ _ _)

theorem withoutGrant_ungranted {s : State} {k : KeyId} {a : SourceId} {b : DestId} (h : s.Ungranted k a b) (c : KeyId)
    (d : DestId) : (s.withoutGrant c d).Ungranted k a b := by
  unfold State.withoutGrant
  split
  · exact h.departed _ _ _
  · exact h

/-- A key leaves its ear: another key that does not wait keeps its record, and no such key gains a grant. -/
theorem leaveArbiter_others {k j : KeyId} {s : State} (h : EarsInv (fun _ => False) s) (hj : j ≠ k) :
    Waited (s.key j) ((leaveArbiter k s).key j) ∧
      ((s.key j).standing ≠ .waiting → (leaveArbiter k s).key j = s.key j ∧
        ∀ a b, s.Ungranted j a b → (leaveArbiter k s).Ungranted j a b) := by
  cases ht : (s.key k).target with
  | none =>
    rw [leaveArbiter_homeless ht]
    exact ⟨.inl rfl, fun _ => ⟨rfl, fun _ _ => id⟩⟩
  | some d =>
    have hd := h.1 d
    have hstill : (s.key j).standing ≠ .waiting → ∀ w ∈ (s.arbiter d).waiting, w.key ≠ j := fun hn w hw hwj =>
      hn (hwj ▸ (hd.waits w hw).2.1)
    have hout : ∀ v : State, (setStanding k .outside v).key j = v.key j := fun v => by
      rw [setStanding_key, if_neg hj]
    by_cases hc : (s.arbiter d).current = some k
    · rw [leaveArbiter_current ht hc]
      have hkey : (setStanding k .outside (s.withoutGrant k d)).key j = s.key j := by rw [hout, withoutGrant_key]
      refine ⟨?_, fun hn => ⟨?_, fun a b hu => ?_⟩⟩
      · rw [← hkey]
        exact promote_waited hd.nodup _ j
      · rw [promote_key_other (hstill hn), hkey]
      · exact promote_ungranted (hstill hn) ((withoutGrant_ungranted hu k d).of_touches (setStanding_touches _ _ _))
    · rw [leaveArbiter_waiting ht hc]
      split
      · have hkey := hout (s.withWaiting d ((s.arbiter d).waiting.filter fun w => decide (w.key ≠ k)))
        exact ⟨.inl hkey, fun _ => ⟨hkey, fun a b hu =>
          (hu.of_touches (setArbiter_touches s d _)).of_touches (setStanding_touches _ _ _)⟩⟩
      · exact ⟨.inl rfl, fun _ => ⟨rfl, fun _ _ => id⟩⟩

/-! ## Giving up -/

theorem giveUp_others {k j : KeyId} {s : State} (h : EarsInv (fun _ => False) s) (hj : j ≠ k) :
    Waited (s.key j) ((giveUp k s).key j) ∧
      ((s.key j).standing ≠ .waiting → (giveUp k s).key j = s.key j ∧
        ∀ a b, s.Ungranted j a b → (giveUp k s).Ungranted j a b) := by
  by_cases hf : (s.key k).function = .ifb
  · rw [giveUp_ifb hf]
    exact leaveArbiter_others h hj
  · have hkey : (giveUp k s).key j = s.key j := (giveUp_own hf).2.1 j hj
    refine ⟨.inl hkey, fun _ => ⟨hkey, fun a b hu => ?_⟩⟩
    have hgrant : (surrenderGrant k s).Ungranted j a b := by
      unfold surrenderGrant
      split
      · exact hu.departed _ _ _
      · exact hu
    unfold giveUp
    cases hfun : (s.key k).function with
    | unassigned => exact hu
    | talkStation => exact hgrant
    | listenStation => exact hgrant
    | reply => exact (hgrant.of_touches (setKey_touches _ k _)).of_touches (handKey_touches k _)
    | talkParty =>
      dsimp only
      unfold surrenderTalk
      split
      · exact hu
      · split
        · exact hu
        · exact hu.talked _ _ _
    | ifb => exact absurd hfun hf
    | callStation => exact hu

theorem grantPair_ifb {k : KeyId} {s : State} (hf : (s.key k).function = .ifb) {a : SourceId} {b : DestId}
    (h : s.grantPair k = some (a, b)) :
    (s.key k).standing = .current ∧ s.ownSource k = some a ∧ (s.key k).target = some b := by
  unfold State.grantPair at h
  dsimp only at h
  rw [hf] at h
  dsimp only at h
  by_cases hst : (s.key k).standing = .current
  · rw [if_pos hst] at h
    dsimp only at h
    cases hs : s.ownSource k with
    | none => rw [hs] at h; cases h
    | some x =>
      cases ht : (s.key k).target with
      | none => rw [hs, ht] at h; cases h
      | some y =>
        rw [hs, ht] at h
        cases h
        exact ⟨hst, rfl, rfl⟩
  · rw [if_neg hst] at h
    cases h

/-- A key whose function is no ear's holds a grant only in an on state. -/
theorem grantPair_off {k : KeyId} {s : State} (hoff : (s.key k).state.isOn = false)
    (hst : (s.key k).standing ≠ .current) : s.grantPair k = none := by
  unfold State.grantPair
  dsimp only
  rw [hoff, if_neg hst]
  cases (s.key k).function with
  | unassigned | talkParty | callStation | ifb => rfl
  | talkStation | listenStation => cases (s.key k).targetStation <;> rfl
  | reply => cases (s.key k).resolved <;> rfl

theorem grantPair_function {k : KeyId} {s : State} {x : SourceId × DestId} (h : s.grantPair k = some x) :
    (s.key k).function = .talkStation ∨ (s.key k).function = .listenStation ∨ (s.key k).function = .reply ∨
      (s.key k).function = .ifb := by
  unfold State.grantPair at h
  dsimp only at h
  cases hf : (s.key k).function with
  | unassigned | talkParty | callStation => rw [hf] at h; cases h
  | talkStation => exact .inl rfl
  | listenStation => exact .inr (.inl rfl)
  | reply => exact .inr (.inr (.inl rfl))
  | ifb => exact .inr (.inr (.inr rfl))

/-- R115: a key that gives up has no grant left on its pair. -/
theorem giveUp_ungranted {k : KeyId} {s : State} (hs : StoreInv s) (h : EarsInv (fun _ => False) s) {a : SourceId}
    {b : DestId} (hp : s.grantPair k = some (a, b)) : (giveUp k s).Ungranted k a b := by
  have hfree : (depart (.grant k) a b s).Ungranted k a b := fun e he ha => depart_released hs he ha
  have hgrant : (surrenderGrant k s).Ungranted k a b := by
    unfold surrenderGrant
    rw [hp]
    exact hfree
  unfold giveUp
  rcases grantPair_function hp with hf | hf | hf | hf
  · rw [hf]
    exact hgrant
  · rw [hf]
    exact hgrant
  · rw [hf]
    exact (hgrant.of_touches (setKey_touches _ k _)).of_touches (handKey_touches k _)
  · rw [hf]
    obtain ⟨hst, ha, ht⟩ := grantPair_ifb hf hp
    have hd := h.1 b
    have hwait := hd.current_ne hst
    have hc : (s.arbiter b).current = some k :=
      (hd.placed k id ht (by rw [hst]; decide)).resolve_right fun ⟨w, hw, hwk⟩ => hwait w hw hwk
    change (leaveArbiter k s).Ungranted k a b
    rw [leaveArbiter_current ht hc]
    refine promote_ungranted hwait ?_
    unfold State.withoutGrant
    rw [ha]
    exact hfree.of_touches (setStanding_touches k .outside _)

end Sys2Proof.Machine
end

section
/-! PROOF. Loss policies applied: which events they may raise, and what they leave of every key (R104, R105). -/

namespace Sys2Proof.Machine

/-! ## Events that only rise -/

/-- From s to t only events of the kinds K are raised, the others read as before, and the notices keep within their
queue. -/
structure EventsRise (K : EventKind → Prop) (s t : State) : Prop where
  kinds : ∀ k, t.event k = s.event k ∨ (K k ∧ (t.event k).isSet = true)
  notices : s.notices.length ≤ 8 → t.notices.length ≤ 8

theorem EventsRise.refl (K : EventKind → Prop) (s : State) : EventsRise K s s := ⟨fun _ => .inl rfl, id⟩

theorem EventsRise.trans {K : EventKind → Prop} {s t u : State} (h : EventsRise K s t) (g : EventsRise K t u) :
    EventsRise K s u :=
  ⟨fun k => by
    rcases g.kinds k with hg | hg
    · rw [hg]
      exact h.kinds k
    · exact .inr hg, fun hn => g.notices (h.notices hn)⟩

theorem EventsRise.mono {K L : EventKind → Prop} {s t : State} (h : EventsRise K s t) (hL : ∀ k, K k → L k) :
    EventsRise L s t := ⟨fun k => (h.kinds k).imp_right fun ⟨hk, hs⟩ => ⟨hL k hk, hs⟩, h.notices⟩

theorem EventsRise.of_events {K : EventKind → Prop} {s t : State} (h : t.events = s.events)
    (hn : s.notices.length ≤ 8 → t.notices.length ≤ 8) : EventsRise K s t :=
  ⟨fun k => .inl (congrArg (fun e => tget e k.number) h), hn⟩

theorem EventsRise.of_touches {K : EventKind → Prop} {l : List Fld} {s t : State} (h : Touches l s t)
    (hl : .events ∉ l := by decide) (hn : .notices ∉ l := by decide) : EventsRise K s t :=
  .of_events (h.events hl) fun h8 => by rw [h.notices hn]; exact h8

theorem offerNotice_length (n : Notice) {s : State} (h : s.notices.length ≤ 8) : (s.offerNotice n).notices.length ≤ 8 := by
  unfold State.offerNotice
  split
  · next hl =>
    change (s.notices ++ [n]).length ≤ 8
    rw [List.length_append]
    exact hl
  · exact h

theorem raise_notices_length (k : EventKind) (i : Option Nat) {s : State} (h : s.notices.length ≤ 8) :
    (raise k i s).notices.length ≤ 8 := by
  unfold raise
  dsimp only
  split
  · split
    · exact offerNotice_length _ (s := s.setEvent k _) h
    · exact offerNotice_length _ (s := s.setEvent k _) h
  · exact h

theorem EventsRise.raise {K : EventKind → Prop} {k : EventKind} (hk : K k) (i : Option Nat) (s : State) :
    EventsRise K s (raise k i s) :=
  ⟨fun j => by
    by_cases hj : j = k
    · subst hj
      rw [raise_event]
      exact .inr ⟨hk, rfl⟩
    · exact .inl (raise_event_ne k i s hj), raise_notices_length k i⟩

theorem EventsRise.keeps {K : EventKind → Prop} {s t : State} (h : EventsRise K s t) {k : EventKind}
    (hs : (s.event k).isSet = true) : (t.event k).isSet = true := by
  rcases h.kinds k with hk | ⟨-, hk⟩
  · rw [hk]
    exact hs
  · exact hk

theorem EventsRise.foldl {α : Type} {K : EventKind → Prop} {f : State → α → State} (h : ∀ t x, EventsRise K t (f t x))
    (l : List α) (s : State) : EventsRise K s (l.foldl f s) :=
  foldl_keeps (P := EventsRise K s) (fun t x ht => ht.trans (h t x)) l s (.refl K s)

/-- The one kind that a store without room raises. -/
abbrev StoreRefusal (k : EventKind) : Prop := k = .grantRefused

theorem promote_rises (d : DestId) (l : List Waiter) (s : State) : EventsRise StoreRefusal s (promote d l s) := by
  induction l generalizing s with
  | nil => exact .of_touches (setArbiter_touches s d _)
  | cons w ws ih =>
    cases hb : s.ownSource w.key with
    | none =>
      rw [promote_sourceless hb]
      exact (EventsRise.of_touches (dropKey_touches w.key s)).trans (ih _)
    | some b =>
      cases hr : (requestGrant w.key b d s).2 with
      | false =>
        rw [promote_refused hb hr]
        exact ((EventsRise.raise (K := StoreRefusal) (k := .grantRefused) rfl _ s).trans (.of_touches (dropKey_touches w.key _))).trans (ih _)
      | true =>
        rw [promote_granted hb hr]
        exact ((EventsRise.of_touches (requestGrant_touches _ b d s)).trans (.of_touches (setArbiter_touches _ d _))).trans
          (.of_touches (setStanding_touches _ _ _))

theorem leaveArbiter_rises (k : KeyId) (s : State) : EventsRise StoreRefusal s (leaveArbiter k s) := by
  cases ht : (s.key k).target with
  | none => rw [leaveArbiter_homeless ht]; exact .refl _ s
  | some d =>
    by_cases hc : (s.arbiter d).current = some k
    · rw [leaveArbiter_current ht hc]
      exact ((EventsRise.of_touches (withoutGrant_touches s k d)).trans (.of_touches (setStanding_touches k _ _))).trans
        (promote_rises d _ _)
    · rw [leaveArbiter_waiting ht hc]
      split
      · exact (EventsRise.of_touches (setArbiter_touches s d _)).trans (.of_touches (setStanding_touches k _ _))
      · exact .refl _ s

theorem changeParty_rises (p : PartyId) (r : Party) (s : State) : EventsRise StoreRefusal s (changeParty p r s) := by
  unfold changeParty
  refine EventsRise.trans ?_ (EventsRise.foldl (fun t x => ?_) _ _)
  · exact (EventsRise.of_touches (setParty_touches s p r)).trans (.of_touches (withdrawPairs_touches p _ _))
  · have ha := EventsRise.of_touches (K := StoreRefusal) (arrive_touches (.party p) r.level .talk x.source x.dest t)
    unfold requestPair
    dsimp only
    split
    · exact ha
    · exact ha.trans (.raise (K := StoreRefusal) (k := .grantRefused) rfl _ _)

theorem setTalk_rises (p : PartyId) (c : StationId) (on : Bool) (s : State) : EventsRise StoreRefusal s (setTalk p c on s) := by
  unfold setTalk
  split
  · exact .refl _ s
  · split
    · exact .refl _ s
    · exact (changeParty_rises p _ s).trans (.of_touches (handTalk_touches p c _))

theorem giveUp_rises (k : KeyId) (s : State) : EventsRise StoreRefusal s (giveUp k s) := by
  by_cases hf : (s.key k).function = .ifb
  · rw [giveUp_ifb hf]
    exact leaveArbiter_rises k s
  have hgrant : EventsRise StoreRefusal s (surrenderGrant k s) := .of_touches (surrenderGrant_touches_held k s)
  unfold giveUp
  cases hfun : (s.key k).function with
  | unassigned => exact .refl _ s
  | talkStation => exact hgrant
  | listenStation => exact hgrant
  | reply => exact (hgrant.trans (.of_touches (setKey_touches _ k _))).trans (.of_touches (handKey_touches k _))
  | talkParty =>
    dsimp only
    unfold surrenderTalk
    split
    · exact .refl _ s
    · split
      · exact .refl _ s
      · exact setTalk_rises _ _ _ s
  | ifb => exact absurd hfun hf
  | callStation => exact .refl _ s

theorem lossRelease_rises (k : KeyId) (s : State) : EventsRise StoreRefusal s (lossRelease k s) := by
  unfold lossRelease
  split
  · exact (giveUp_rises k s).trans (.of_touches (enterState_touches k _ _))
  · exact .of_touches (enterState_touches k _ s)

theorem applyPolicy_rises (pol : LossPolicy) (p : PanelId) (s : State) : EventsRise StoreRefusal s (applyPolicy pol p s) :=
  .foldl (fun t k => by
    split
    · exact (lossRelease_rises k t).trans (.of_touches (flushLamps_touches _))
    · exact .refl _ t) _ s

/-! ## One release -/

/-- R105: key k is done with: IDLE, its latch window stopped, its flag kept, at no ear, without the grant it had in s. -/
def KeyDone (s t : State) (k : KeyId) : Prop :=
  (t.key k).state = .idle ∧ (t.key k).latchTimer = none ∧ (t.key k).down = (s.key k).down ∧
    (t.key k).standing = .outside ∧ ∀ a b, s.grantPair k = some (a, b) → t.Ungranted k a b

/-- Key k has not had its turn: it is as in s, or it waited in s for an ear. -/
def KeyUnturned (s t : State) (k : KeyId) : Prop :=
  Waited (s.key k) (t.key k) ∧ ((s.key k).standing ≠ .waiting → t.key k = s.key k)

/-- The keys, panels and stations read the same grants. -/
def Grounded (s t : State) : Prop :=
  (∀ p, (t.panel p).ownStation = (s.panel p).ownStation) ∧ t.stations = s.stations ∧ t.taps = s.taps

theorem Grounded.refl (s : State) : Grounded s s := ⟨fun _ => rfl, rfl, rfl⟩

theorem Grounded.trans {s t u : State} (h : Grounded s t) (g : Grounded t u) : Grounded s u :=
  ⟨fun p => (g.1 p).trans (h.1 p), g.2.1.trans h.2.1, g.2.2.trans h.2.2⟩

theorem Grounded.of_kept {s t : State} (h : KeyUnitKept s t) (hst : t.stations = s.stations) (ht : t.taps = s.taps) :
    Grounded s t := ⟨fun p => by rw [h.panels p], hst, ht⟩

theorem Grounded.grantPair {s t : State} (h : Grounded s t) {k : KeyId} (hk : t.key k = s.key k) :
    t.grantPair k = s.grantPair k := by
  obtain ⟨hown, hst, -⟩ := h
  have hstation : ∀ x, t.station x = s.station x := fun x => congrArg (tget · x) hst
  have ho : t.ownStation k = s.ownStation k := hown _
  simp only [State.grantPair, State.talkPair, State.listenPair, State.ownSource, State.ownDest, ho, hstation, hk]

theorem lossRelease_key_self {k : KeyId} {s : State} :
    ((lossRelease k s).key k).state = .idle ∧ ((lossRelease k s).key k).latchTimer = none ∧
      ((lossRelease k s).key k).down = (s.key k).down := by
  have hdown : ((giveUp k s).key k).down = (s.key k).down := by rw [(KeyUnitKept.giveUp k s).keys k]
  unfold lossRelease
  split
  · rw [enterState_key, if_pos rfl]
    exact ⟨rfl, rfl, hdown⟩
  · rw [enterState_key, if_pos rfl]
    exact ⟨rfl, rfl, rfl⟩

theorem lossRelease_outside {k : KeyId} {s : State} (h : EarsInv (fun _ => False) s) :
    ((lossRelease k s).key k).standing = .outside := by
  unfold lossRelease
  split
  · rw [enterState_key, if_pos rfl]
    exact (giveUp_ears h).2
  · next hoff =>
    rw [enterState_key, if_pos rfl]
    exact h.outside (.inr ⟨eq_false_of_ne_true hoff, id⟩)

theorem lossRelease_others {k j : KeyId} {s : State} (h : EarsInv (fun _ => False) s) (hj : j ≠ k) :
    Waited (s.key j) ((lossRelease k s).key j) ∧
      ((s.key j).standing ≠ .waiting → (lossRelease k s).key j = s.key j ∧
        ∀ a b, s.Ungranted j a b → (lossRelease k s).Ungranted j a b) := by
  have henter : ∀ v : State, (enterState k .idle v).key j = v.key j := fun v => (enterState_key k .idle v j).trans (if_neg hj)
  unfold lossRelease
  split
  · obtain ⟨hw, hn⟩ := giveUp_others h hj
    rw [henter]
    exact ⟨hw, fun hs => ⟨(hn hs).1, fun a b hu => ((hn hs).2 a b hu).of_touches (enterState_touches k _ _)⟩⟩
  · rw [henter]
    exact ⟨.inl rfl, fun _ => ⟨rfl, fun a b hu => hu.of_touches (enterState_touches k _ _)⟩⟩

theorem lossRelease_ungranted {k : KeyId} {s : State} (hs : StoreInv s) (h : EarsInv (fun _ => False) s) {a : SourceId}
    {b : DestId} (hp : s.grantPair k = some (a, b)) : (lossRelease k s).Ungranted k a b := by
  unfold lossRelease
  split
  · exact (giveUp_ungranted hs h hp).of_touches (enterState_touches k _ _)
  · next hoff =>
    have hout := h.outside (k := k) (.inr ⟨eq_false_of_ne_true hoff, id⟩)
    rw [grantPair_off (eq_false_of_ne_true hoff) (by rw [hout]; decide)] at hp
    cases hp

/-! ## Releases in a row -/

/-- From s to t keys have been released, each that is done for a cause: it was due, or it waited in s for an ear. -/
structure Releasing (due : KeyId → Prop) (s t : State) : Prop where
  store : StoreInv t
  ears : EarsInv (fun _ => False) t
  ground : Grounded s t
  each : ∀ k, KeyUnturned s t k ∨ (KeyDone s t k ∧ (due k ∨ (s.key k).standing = .waiting))

namespace Releasing

variable {due : KeyId → Prop} {s t : State}

theorem start (hs : StoreInv s) (he : ArbiterInv s) : Releasing due s s :=
  ⟨hs, arbiterInv_iff.1 he, .refl s, fun _ => .inl ⟨.inl rfl, fun _ => rfl⟩⟩

/-- A change that leaves keys, arbiters, entries, stations, taps and the panels' own stations as they are. -/
theorem quiet (h : Releasing due s t) {u : State} (hstore : StoreInv u) (hk : ∀ k, u.key k = t.key k)
    (ha : ∀ d, u.arbiter d = t.arbiter d) (he : u.entries = t.entries) (hg : Grounded t u) :
    Releasing due s u ∧ ∀ k, KeyDone s t k → KeyDone s u k := by
  have hdone : ∀ k, KeyDone s t k → KeyDone s u k := fun k ⟨h1, h2, h3, h4, h5⟩ => by
    refine ⟨?_, ?_, ?_, ?_, fun a b hp => (h5 a b hp).congr he⟩ <;> rw [hk]
    · exact h1
    · exact h2
    · exact h3
    · exact h4
  refine ⟨⟨hstore, h.ears.of_keys hk ha, h.ground.trans hg, fun k => ?_⟩, hdone⟩
  refine (h.each k).imp (fun hu => ?_) fun ⟨hd, hc⟩ => ⟨hdone k hd, hc⟩
  unfold KeyUnturned
  rw [hk]
  exact hu

theorem of_touches (h : Releasing due s t) {l : List Fld} {u : State} (ht : Touches l t u)
    (hl : [Fld.keys, .arbiters, .entries, .nextSerial, .stations, .taps].all (fun f => !l.contains f) = true)
    (hp : ∀ p, (u.panel p).ownStation = (t.panel p).ownStation) :
    Releasing due s u ∧ ∀ k, KeyDone s t k → KeyDone s u k := by
  have hn : ∀ f ∈ [Fld.keys, .arbiters, .entries, .nextSerial, .stations, .taps], f ∉ l := fun f hf hm => by
    have := List.all_eq_true.1 hl f hf
    rw [List.contains_iff_mem.2 hm] at this
    cases this
  have he := ht.entries (hn _ (by decide))
  exact h.quiet (StoreInv.of_same he (ht.nextSerial (hn _ (by decide))) h.store)
    (fun k => congrArg (tget · k) (ht.keys (hn _ (by decide))))
    (fun d => congrArg (tget · d) (ht.arbiters (hn _ (by decide)))) he
    ⟨hp, ht.stations (hn _ (by decide)), ht.taps (hn _ (by decide))⟩

theorem flushLamps (h : Releasing due s t) :
    Releasing due s (flushLamps t) ∧ ∀ k, KeyDone s t k → KeyDone s (flushLamps t) k :=
  h.of_touches (flushLamps_touches t) (by decide) fun p => by rw [flushLamps_panels t p]

/-- A key that waited in s had no grant. -/
theorem waited_ungranted (he : EarsInv (fun _ => False) s) {k : KeyId} (hw : (s.key k).standing = .waiting) :
    s.grantPair k = none := by
  by_contra hn
  obtain ⟨⟨a, b⟩, hp⟩ := Option.ne_none_iff_exists'.1 hn
  have hf : (s.key k).function = .ifb := by
    by_contra hf
    have := he.outside (.inl hf)
    rw [hw] at this
    cases this
  have := (grantPair_ifb hf hp).1
  rw [hw] at this
  cases this

/-- One key released that was due, or that waited in s. -/
theorem release (hs : EarsInv (fun _ => False) s) (h : Releasing due s t) {k : KeyId} (hidle : (t.key k).state ≠ .idle)
    (hc : due k ∨ (s.key k).standing = .waiting) :
    Releasing due s (lossRelease k t) ∧ KeyDone s (lossRelease k t) k ∧
      ∀ j, KeyDone s t j → KeyDone s (lossRelease k t) j := by
  have hturn : KeyUnturned s t k := (h.each k).resolve_right fun hd => hidle hd.1.1
  have hkept := KeyUnitKept.lossRelease k t
  have htouch := lossRelease_touches k t
  have hself : KeyDone s (lossRelease k t) k := by
    obtain ⟨h1, h2, h3⟩ := lossRelease_key_self (k := k) (s := t)
    have hdown : (t.key k).down = (s.key k).down := by
      rcases hturn.1 with hw | hw | hw
      · rw [hw]
      · rw [hw]
      · exact hw.2.2.1
    refine ⟨h1, h2, h3.trans hdown, lossRelease_outside h.ears, fun a b hp => ?_⟩
    have hnw : (s.key k).standing ≠ .waiting := fun hw => by
      rw [waited_ungranted hs hw] at hp
      cases hp
    exact lossRelease_ungranted h.store h.ears ((h.ground.grantPair (hturn.2 hnw)).trans hp)
  have hdone : ∀ j, KeyDone s t j → KeyDone s (lossRelease k t) j := fun j hj => by
    by_cases hjk : j = k
    · rw [hjk]
      exact hself
    · obtain ⟨-, hn⟩ := lossRelease_others h.ears hjk
      obtain ⟨h1, h2, h3, h4, h5⟩ := hj
      obtain ⟨hkey, hun⟩ := hn (by rw [h4]; decide)
      refine ⟨?_, ?_, ?_, ?_, fun a b hp => hun a b (h5 a b hp)⟩ <;> rw [hkey]
      · exact h1
      · exact h2
      · exact h3
      · exact h4
  refine ⟨⟨StoreClosed.lossRelease storeInv_storeClosed k t h.store, lossRelease_ears h.ears,
    h.ground.trans (.of_kept hkept htouch.stations htouch.taps), fun j => ?_⟩, hself, hdone⟩
  by_cases hjk : j = k
  · rw [hjk]
    exact .inr ⟨hself, hc⟩
  · refine (h.each j).imp (fun hu => ?_) fun ⟨hd, hcause⟩ => ⟨hdone j hd, hcause⟩
    obtain ⟨hw, hn⟩ := lossRelease_others h.ears hjk
    refine ⟨?_, fun hns => ?_⟩
    · rcases hu.1 with he | he | he
      · rw [← he]
        exact hw
      · rw [(hn (by rw [he]; exact nofun)).1]
        exact .inr (.inl he)
      · rw [(hn (by rw [he.1]; exact nofun)).1]
        exact .inr (.inr he)
    · have hst := hu.2 hns
      rw [(hn (by rw [hst]; exact hns)).1, hst]

/-- R105: the turn of one key of a panel with the policy given. -/
theorem turn (hs : EarsInv (fun _ => False) s) (h : Releasing due s t) (pol : LossPolicy) {k : KeyId}
    (hdue : pol.releases (s.key k).state = true → due k) :
    let u := if pol.releases (t.key k).state then Machine.flushLamps (lossRelease k t) else t
    Releasing due s u ∧ (pol.releases (s.key k).state = true → KeyDone s u k) ∧
      ∀ j, KeyDone s t j → KeyDone s u j := by
  intro u
  by_cases hr : pol.releases (t.key k).state = true
  · have hidle : (t.key k).state ≠ .idle := fun hi => by
      rw [hi] at hr
      cases pol <;> cases hr
    have hturn : KeyUnturned s t k := (h.each k).resolve_right fun hd => hidle hd.1.1
    have hcause : due k ∨ (s.key k).standing = .waiting := by
      by_cases hw : (s.key k).standing = .waiting
      · exact .inr hw
      · rw [hturn.2 hw] at hr
        exact .inl (hdue hr)
    have hu : u = Machine.flushLamps (lossRelease k t) := if_pos hr
    rw [hu]
    obtain ⟨h1, h2, h3⟩ := h.release hs hidle hcause
    obtain ⟨g1, g2⟩ := h1.flushLamps
    exact ⟨g1, fun _ => g2 k h2, fun j hj => g2 j (h3 j hj)⟩
  · have hu : u = t := if_neg hr
    rw [hu]
    refine ⟨h, fun hsr => ?_, fun _ => id⟩
    rcases h.each k with ⟨hw, hkept⟩ | ⟨hd, -⟩
    · rcases hw with he | he | ⟨h1, h2, h3, h4⟩
      · rw [he] at hr
        exact absurd hsr hr
      · rw [he] at hr
        exact absurd hsr hr
      · have hwait : (s.key k).standing = .waiting := by
          by_contra hn
          rw [hkept hn] at hr
          exact hr hsr
        refine ⟨h4.resolve_right fun hh => hr ?_, h2, h3, h1, fun a b hp => ?_⟩
        · rw [hh]
          cases pol
          · rfl
          · rfl
          · cases hsr
        · rw [waited_ungranted hs hwait] at hp
          cases hp
    · exact hd

/-- R105: a loss policy applied to a panel. -/
theorem policy (hs : EarsInv (fun _ => False) s) (h : Releasing due s t) (pol : LossPolicy) {p : PanelId}
    (hdue : ∀ k, keyPanel k = p → pol.releases (s.key k).state = true → due k) :
    Releasing due s (applyPolicy pol p t) ∧
      (∀ k, keyPanel k = p → pol.releases (s.key k).state = true → KeyDone s (applyPolicy pol p t) k) ∧
      ∀ j, KeyDone s t j → KeyDone s (applyPolicy pol p t) j := by
  have hfold : ∀ (l : List KeyId) (t : State), (∀ k ∈ l, keyPanel k = p) → Releasing due s t →
      let u := l.foldl (fun t k => if pol.releases (t.key k).state then Machine.flushLamps (lossRelease k t) else t) t
      Releasing due s u ∧ (∀ k ∈ l, pol.releases (s.key k).state = true → KeyDone s u k) ∧
        ∀ j, KeyDone s t j → KeyDone s u j := by
    intro l
    induction l with
    | nil => exact fun t _ h => ⟨h, nofun, fun _ => id⟩
    | cons k l ih =>
      intro t hl h
      obtain ⟨h1, h2, h3⟩ := h.turn hs pol (hdue k (hl k List.mem_cons_self))
      obtain ⟨g1, g2, g3⟩ := ih _ (fun j hj => hl j (List.mem_cons_of_mem _ hj)) h1
      refine ⟨g1, fun j hj hr => ?_, fun j hj => g3 j (h3 j hj)⟩
      rcases List.mem_cons.1 hj with rfl | hj
      · exact g3 j (h2 hr)
      · exact g2 j hj hr
  obtain ⟨h1, h2, h3⟩ := hfold (panelKeys p) t (fun k hk => mem_panelKeys.1 hk) h
  exact ⟨h1, fun k hk => h2 k (mem_panelKeys.2 hk), h3⟩

end Releasing

end Sys2Proof.Machine
end

section
/-! PROOF. Panels going OFFLINE and coming ONLINE, and their encoders (R103 to R105, R107, R121, R122). -/

namespace Sys2Proof.Machine

/-! ## Records outside a list of fields -/

theorem Touches.key {l : List Fld} {s t : State} (h : Touches l s t) (k : KeyId) (hl : Fld.keys ∉ l := by decide) :
    t.key k = s.key k := congrArg (tget · k) (h.keys hl)

theorem Touches.panel {l : List Fld} {s t : State} (h : Touches l s t) (p : PanelId)
    (hl : Fld.panels ∉ l := by decide) : t.panel p = s.panel p := congrArg (tget · p) (h.panels hl)

theorem Touches.arbiter {l : List Fld} {s t : State} (h : Touches l s t) (d : DestId)
    (hl : Fld.arbiters ∉ l := by decide) : t.arbiter d = s.arbiter d := congrArg (tget · d) (h.arbiters hl)

theorem Touches.event {l : List Fld} {s t : State} (h : Touches l s t) (k : EventKind)
    (hl : Fld.events ∉ l := by decide) : t.event k = s.event k := congrArg (tget · k.number) (h.events hl)

theorem Touches.circuit {l : List Fld} {s t : State} (h : Touches l s t) (c : CircuitId)
    (hl : Fld.circuits ∉ l := by decide) : t.circuit c = s.circuit c := congrArg (tget · c) (h.circuits hl)

theorem Touches.dest {l : List Fld} {s t : State} (h : Touches l s t) (d : DestId)
    (hl : Fld.dests ∉ l := by decide) : t.dest d = s.dest d := congrArg (tget · d) (h.dests hl)

theorem Touches.station {l : List Fld} {s t : State} (h : Touches l s t) (c : StationId)
    (hl : Fld.stations ∉ l := by decide) : t.station c = s.station c := congrArg (tget · c) (h.stations hl)

/-! ## A key's position, and a panel's key map -/

namespace KeyUnitKept

theorem enterByMode (k : KeyId) (s : State) : KeyUnitKept s (enterByMode k s) := by
  unfold Machine.enterByMode
  split
  · exact enterState k _ s
  · exact enterState k _ s
  · exact writeKey rfl

theorem press (k : KeyId) (s : State) : KeyUnitKept s (press k s) := by
  unfold Machine.press
  split
  · exact refl s
  · split
    · dsimp only
      split
      · exact (acquire k s).trans (enterByMode k _)
      · exact ((acquire k s).trans (enterState k _ _)).trans (startWink k _)
    · exact (giveUp k s).trans (enterState k _ _)
    all_goals exact refl s

theorem release (k : KeyId) (s : State) : KeyUnitKept s (release k s) := by
  unfold Machine.release
  split
  · exact enterState k _ s
  · exact (giveUp k s).trans (enterState k _ _)
  · exact enterState k _ s
  · exact enterState k _ s
  all_goals exact refl s

theorem position_same {k : KeyId} {b : Bool} {s : State} (h : (s.key k).down = b) :
    KeyUnitKept (s.setKey k { s.key k with down := b }) s where
  keys j := by
    rw [State.key_setKey]
    split
    · next hj =>
      subst hj h
      rfl
    · rfl
  panels _ := rfl

/-- Key k's position moves its flag; the rest is the key unit's work. -/
theorem keyPosition (k : KeyId) (b : Bool) (s : State) :
    KeyUnitKept (s.setKey k { s.key k with down := b }) (keyPosition k b s) := by
  by_cases hd : (s.key k).down = b
  · rw [keyPosition_same hd]
    exact position_same hd
  · cases b with
    | false =>
      rw [keyPosition_up (eq_true_of_ne_false hd)]
      exact (release k _).trans (flushLamps _)
    | true =>
      rw [keyPosition_down (eq_false_of_ne_true hd)]
      exact (press k _).trans (flushLamps _)

end KeyUnitKept

theorem keyPosition_flag (k : KeyId) (b : Bool) (s : State) (j : KeyId) :
    ((keyPosition k b s).key j).down = if j = k then b else (s.key j).down := by
  rw [(KeyUnitKept.keyPosition k b s).keys j]
  change ((s.setKey k { s.key k with down := b }).key j).down = _
  rw [State.key_setKey]
  split
  · rfl
  · rfl

theorem keyPosition_panel (k : KeyId) (b : Bool) (s : State) (p : PanelId) :
    PanelMoved (s.panel p) ((keyPosition k b s).panel p) := (KeyUnitKept.keyPosition k b s).panels p

theorem reconcile_panel (p : PanelId) (m : BitVec 32) (s : State) (q : PanelId) :
    PanelMoved (s.panel q) ((reconcile p m s).panel q) :=
  foldl_keeps (P := fun t : State => PanelMoved (s.panel q) (t.panel q))
    (fun t n h => h.trans (keyPosition_panel (keyIndex p n) (m.getLsbD n.val) t q)) _ s rfl

/-- A map puts every flag of its panel where the map has it. -/
theorem reconcile_flag (p : PanelId) (m : BitVec 32) (s : State) (n : Fin 32) :
    ((reconcile p m s).key (keyIndex p n)).down = m.getLsbD n.val := by
  have hfold : ∀ (l : List (Fin 32)) (t : State),
      n ∈ l ∨ (t.key (keyIndex p n)).down = m.getLsbD n.val →
      ((l.foldl (fun t i => keyPosition (keyIndex p i) (m.getLsbD i.val) t) t).key (keyIndex p n)).down =
        m.getLsbD n.val := by
    intro l
    induction l with
    | nil => exact fun t h => h.resolve_left nofun
    | cons i l ih =>
      intro t h
      refine ih _ ?_
      by_cases hi : n = i
      · right
        rw [keyPosition_flag, if_pos (by rw [hi]), hi]
      · refine (h.imp_left fun hm => (List.mem_cons.1 hm).resolve_left hi).imp_right fun hd => ?_
        rw [keyPosition_flag, if_neg fun he => hi (keyIndex_inj.1 he).2]
        exact hd
  exact hfold _ s (.inl (List.mem_finRange n))

theorem panelOnline_online (p : PanelId) (map : BitVec 32) (s : State) :
    let t := panelOnline p map s
    (t.panel p).online = .online ∧ (t.panel p).silenceTimer = some (s.timing.sample + 48000) ∧
      (∀ i, (tget (t.panel p).encoders i).residue = 0) ∧ (t.panel p).lampPending = BitVec.allOnes 32 ∧
      (t.panel p).cadencePending = true ∧ (∀ n, (t.key (keyIndex p n)).down = map.getLsbD n.val) ∧
      (t.event .panelOnline).isSet = true ∧ (t.event .panelOnline).inst = some p.val := by
  let s0 := s.setPanel p
    { s.panel p with online := .online, encoders := (s.panel p).encoders.map fun e => { e with residue := 0 } }
  let s1 := startSilence p s0
  let s2 := reconcile p map s1
  let s3 := s2.setPanel p { s2.panel p with lampPending := BitVec.allOnes 32, cadencePending := true }
  intro t
  have ht : t = raise .panelOnline (some p.val) s3 := rfl
  have hraise := raise_touches .panelOnline (some p.val) s3
  have hp0 : s0.panel p = { s.panel p with
      online := .online, encoders := (s.panel p).encoders.map fun e => { e with residue := 0 } } :=
    State.panel_setPanel_same s p _
  have hp1 : s1.panel p = { s0.panel p with silenceTimer := some (s0.after (ofMs silenceMs)) } :=
    State.panel_setPanel_same s0 p _
  have hp2 : PanelMoved (s1.panel p) (s2.panel p) := reconcile_panel p map s1 p
  have hp3 : s3.panel p = { s2.panel p with lampPending := BitVec.allOnes 32, cadencePending := true } :=
    State.panel_setPanel_same s2 p _
  have hp : t.panel p = s3.panel p := hraise.panel p
  have hk : ∀ k, t.key k = s2.key k := fun k => (hraise.key k).trans ((setPanel_touches s2 p _).key k)
  refine ⟨?_, ?_, fun i => ?_, ?_, ?_, fun n => ?_, ?_, ?_⟩
  · rw [hp, hp3, hp2, hp1, hp0]
  · rw [hp, hp3, hp2, hp1]
    rfl
  · rw [hp, hp3, hp2, hp1, hp0]
    simp [tget]
  · rw [hp, hp3]
  · rw [hp, hp3]
  · rw [hk]
    exact reconcile_flag p map s1 n
  · rw [ht, raise_event]
    rfl
  · rw [ht, raise_event]
    rfl

end Sys2Proof.Machine
end

section
/-! PROOF. The turns of an encoder (R121, R122), and the settling of PanelPresence. -/

namespace Sys2Proof.Machine

/-! ## Encoders -/

theorem stepLevel_val (l lo hi : Level) (n : Int) :
    ((stepLevel l n lo hi).val : Int) = max (lo.val : Int) (min (hi.val : Int) ((l.val : Int) + n)) := by
  have hlo := lo.isLt
  have hhi := hi.isLt
  change ((min (max (lo.val : Int) (min (hi.val : Int) ((l.val : Int) + n))).toNat 159 : Nat) : Int) = _
  omega

theorem writeEntryLevel_entriesOf (l : Level) (a : SourceId) (b : DestId) (s : State) (d : DestId) :
    (writeEntryLevel l a b s).entriesOf d =
      if d = b then (s.entriesOf b).map fun x => if x.source = a then { x with level := if l = 0 then 1 else l } else x
      else s.entriesOf d := by
  unfold writeEntryLevel
  rw [State.entriesOf_mapEntry, storeLevel_eq]
  simp only [beq_iff_eq]

theorem moveTarget_station {p : PanelId} {e : Encoder} (n : Int) {s : State} (he : e.target = none) :
    moveTarget p e n s =
      match (s.station (s.panel p).ownStation).dest with
      | some d =>
        s.setDest d { s.dest d with outputLevel := stepLevel (s.dest d).outputLevel n e.minimum e.maximum }
      | none => s := by
  unfold moveTarget
  simp only [he] <;> rfl

/-- The talk level of key k written as l. -/
def State.withTalkLevel (s : State) (k : KeyId) (l : Level) : State := s.setKey k { s.key k with talkLevel := l }

theorem withTalkLevel_grantPair (s : State) (k : KeyId) (l : Level) :
    (s.withTalkLevel k l).grantPair k = s.grantPair k := by
  have hk : (s.withTalkLevel k l).key k = { s.key k with talkLevel := l } := State.key_setKey_same s k _
  simp only [State.grantPair, hk]
  rfl

theorem moveTarget_key {p : PanelId} {e : Encoder} (n : Int) {s : State} {m : Fin 32} (he : e.target = some m) :
    let k := keyIndex p m
    let l := stepLevel (s.key k).talkLevel n e.minimum e.maximum
    moveTarget p e n s =
      match s.grantPair k with
      | some (a, b) => writeEntryLevel l a b (s.withTalkLevel k l)
      | none => s.withTalkLevel k l := by
  intro k l
  rw [← withTalkLevel_grantPair s k l]
  unfold moveTarget
  rw [he]
  rfl

/-- The whole steps that a turn of an encoder makes. -/
def Encoder.stepsOf (e : Encoder) (delta : Int) : Int := Int.tdiv (e.residue + delta) e.mode.counts

/-- What a turn leaves of its encoder. -/
def Encoder.turned (e : Encoder) (delta : Int) : Encoder :=
  { e with residue := e.residue + delta - e.stepsOf delta * e.mode.counts }

/-- Panel p with the turn of encoder i counted. -/
def State.counted (s : State) (p : PanelId) (i : Fin 4) (delta : Int) : State :=
  s.setPanel p
    { s.panel p with encoders := tset (s.panel p).encoders i ((tget (s.panel p).encoders i).turned delta) }

theorem turnEncoder_eq (p : PanelId) (i : Fin 4) (delta : Int) (s : State) :
    turnEncoder p i delta s =
      let e := tget (s.panel p).encoders i
      if e.stepsOf delta = 0 then s.counted p i delta else moveTarget p e (e.stepsOf delta) (s.counted p i delta) := rfl

theorem counted_touches (s : State) (p : PanelId) (i : Fin 4) (delta : Int) :
    Touches [.panels] s (s.counted p i delta) := setPanel_touches s p _

theorem counted_panel (s : State) (p : PanelId) (i : Fin 4) (delta : Int) (q : PanelId) :
    (s.counted p i delta).panel q =
      if q = p then
        { s.panel p with encoders := tset (s.panel p).encoders i ((tget (s.panel p).encoders i).turned delta) }
      else s.panel q := State.panel_setPanel s p _ q

theorem counted_grantPair (s : State) (p : PanelId) (i : Fin 4) (delta : Int) (k : KeyId) :
    (s.counted p i delta).grantPair k = s.grantPair k := by
  have hown : ∀ q, ((s.counted p i delta).panel q).ownStation = (s.panel q).ownStation := fun q => by
    rw [counted_panel]
    split
    · next h => rw [h]
    · rfl
  exact Grounded.grantPair ⟨hown, rfl, rfl⟩ rfl

theorem moveTarget_panels (p : PanelId) (e : Encoder) (n : Int) (s : State) : (moveTarget p e n s).panels = s.panels := by
  unfold moveTarget
  split
  · split
    · exact (setDest_touches s _ _).panels
    · rfl
  · dsimp only
    split
    · exact (writeEntryLevel_touches _ _ _ _).panels.trans (setKey_touches s _ _).panels
    · exact (setKey_touches s _ _).panels

theorem turnEncoder_panel (p : PanelId) (i : Fin 4) (delta : Int) (s : State) (q : PanelId) :
    (turnEncoder p i delta s).panel q = (s.counted p i delta).panel q := by
  rw [turnEncoder_eq]
  dsimp only
  split
  · rfl
  · exact congrArg (tget · q) (moveTarget_panels p _ _ _)

/-- R121: an encoder whose target is the own station moves the output level of its destination. -/
theorem moveTarget_station_moves {p : PanelId} {e : Encoder} (n : Int) {s : State} (he : e.target = none) :
    let t := moveTarget p e n s
    Touches [.dests] s t ∧ ((s.station (s.panel p).ownStation).dest = none → t.dests = s.dests) ∧
      ∀ d, (s.station (s.panel p).ownStation).dest = some d →
        (∀ m, m ≠ d → t.dest m = s.dest m) ∧
          t.dest d = { s.dest d with outputLevel := stepLevel (s.dest d).outputLevel n e.minimum e.maximum } := by
  intro t
  have ht : t = _ := moveTarget_station n he
  cases hd : (s.station (s.panel p).ownStation).dest with
  | none =>
    rw [hd] at ht
    rw [ht]
    exact ⟨.refl _ _, fun _ => rfl, nofun⟩
  | some d =>
    rw [hd] at ht
    rw [ht]
    refine ⟨setDest_touches s d _, nofun, fun m hm => ?_⟩
    cases hm
    exact ⟨fun m hm => (State.dest_setDest s d _ m).trans (if_neg hm), State.dest_setDest_same s d _⟩

/-- R121, R122: an encoder whose target is a key moves its talk level, and with it the level of the entry of its grant. -/
theorem moveTarget_key_moves {p : PanelId} {e : Encoder} (n : Int) {s : State} {m : Fin 32} (he : e.target = some m) :
    let k := keyIndex p m
    let l := stepLevel (s.key k).talkLevel n e.minimum e.maximum
    let t := moveTarget p e n s
    Touches [.keys, .entries] s t ∧ (∀ j, j ≠ k → t.key j = s.key j) ∧
      t.key k = { s.key k with talkLevel := l } ∧ (s.grantPair k = none → t.entries = s.entries) ∧
      ∀ a b, s.grantPair k = some (a, b) →
        (∀ d, d ≠ b → t.entriesOf d = s.entriesOf d) ∧
          t.entriesOf b = (s.entriesOf b).map fun x =>
            if x.source = a then { x with level := if l = 0 then 1 else l } else x := by
  intro k l t
  have ht : t = _ := moveTarget_key n he
  let u := s.withTalkLevel k l
  have hu : Touches [.keys] s u := setKey_touches s k _
  have hown : u.key k = { s.key k with talkLevel := l } := State.key_setKey_same s k _
  have hother : ∀ j, j ≠ k → u.key j = s.key j := fun j hj => (State.key_setKey s k _ j).trans (if_neg hj)
  cases hg : s.grantPair k with
  | none =>
    have htu : t = u := by rw [ht, hg]
    rw [htu]
    exact ⟨hu.up, hother, hown, fun _ => hu.entries, nofun⟩
  | some x =>
    obtain ⟨a, b⟩ := x
    have htu : t = writeEntryLevel l a b u := by rw [ht, hg]
    have hw := writeEntryLevel_touches l a b u
    rw [htu]
    refine ⟨hu.up.trans hw.up, fun j hj => (hw.key j).trans (hother j hj), (hw.key k).trans hown, nofun, fun c d hcd => ?_⟩
    cases hcd
    have hent : ∀ d, u.entriesOf d = s.entriesOf d := State.entriesOf_congr hu.entries
    refine ⟨fun d hd => ?_, ?_⟩
    · rw [writeEntryLevel_entriesOf, if_neg hd, hent]
    · rw [writeEntryLevel_entriesOf, if_pos rfl, hent]

/-- R121, R122: a turn of an encoder. -/
theorem turnEncoder_turns (p : PanelId) (i : Fin 4) (delta : Int) (s : State) :
    let e := tget (s.panel p).encoders i
    let steps := e.stepsOf delta
    let moved := fun (l l' : Level) =>
      (l'.val : Int) = max (e.minimum.val : Int) (min (e.maximum.val : Int) ((l.val : Int) + steps))
    let t := turnEncoder p i delta s
    t.panel p = { s.panel p with encoders := tset (s.panel p).encoders i (e.turned delta) } ∧
      (∀ q, q ≠ p → t.panel q = s.panel q) ∧
      (steps = 0 → Touches [.panels] s t) ∧
      (steps ≠ 0 → e.target = none →
        Touches [.panels, .dests] s t ∧
        ((s.station (s.panel p).ownStation).dest = none → t.dests = s.dests) ∧
        ∀ d, (s.station (s.panel p).ownStation).dest = some d →
          (∀ m, m ≠ d → t.dest m = s.dest m) ∧
          ∃ l, moved (s.dest d).outputLevel l ∧ t.dest d = { s.dest d with outputLevel := l }) ∧
      (steps ≠ 0 → ∀ n, e.target = some n →
        Touches [.panels, .keys, .entries] s t ∧ (∀ j, j ≠ keyIndex p n → t.key j = s.key j) ∧
        ∃ l, moved (s.key (keyIndex p n)).talkLevel l ∧
          t.key (keyIndex p n) = { s.key (keyIndex p n) with talkLevel := l } ∧
          (s.grantPair (keyIndex p n) = none → t.entries = s.entries) ∧
          ∀ a b, s.grantPair (keyIndex p n) = some (a, b) →
            (∀ d, d ≠ b → t.entriesOf d = s.entriesOf d) ∧
            t.entriesOf b = (s.entriesOf b).map fun x =>
              if x.source = a then { x with level := if l = 0 then 1 else l } else x) := by
  intro e steps moved t
  let u := s.counted p i delta
  have hu := counted_touches s p i delta
  have ht : t = if steps = 0 then u else moveTarget p e steps u := turnEncoder_eq p i delta s
  refine ⟨?_, fun q hq => ?_, fun h0 => ?_, fun h0 he => ?_, fun h0 n he => ?_⟩
  · exact (turnEncoder_panel p i delta s p).trans ((counted_panel s p i delta p).trans (if_pos rfl))
  · exact (turnEncoder_panel p i delta s q).trans ((counted_panel s p i delta q).trans (if_neg hq))
  · rw [ht, if_pos h0]
    exact hu
  · rw [ht, if_neg h0]
    have hstation : (u.station (u.panel p).ownStation).dest = (s.station (s.panel p).ownStation).dest := by
      rw [counted_panel, if_pos rfl, hu.station]
    obtain ⟨h1, h2, h3⟩ := moveTarget_station_moves (p := p) steps (s := u) he
    rw [hstation] at h2 h3
    refine ⟨hu.up.trans h1.up, fun hd => (h2 hd).trans hu.dests, fun d hd => ?_⟩
    obtain ⟨h4, h5⟩ := h3 d hd
    refine ⟨fun m hm => (h4 m hm).trans (hu.dest m), _, stepLevel_val _ _ _ _, ?_⟩
    rw [h5, hu.dest]
  · rw [ht, if_neg h0]
    obtain ⟨h1, h2, h3, h4, h5⟩ := moveTarget_key_moves (p := p) steps (s := u) he
    rw [counted_grantPair, hu.key] at *
    refine ⟨hu.up.trans h1.up, fun j hj => (h2 j hj).trans (hu.key j), _, stepLevel_val _ _ _ _, h3,
      fun hg => (h4 hg).trans hu.entries, fun a b hg => ?_⟩
    obtain ⟨h6, h7⟩ := h5 a b hg
    have hent : ∀ d, u.entriesOf d = s.entriesOf d := State.entriesOf_congr hu.entries
    exact ⟨fun d hd => (h6 d hd).trans (hent d), by rw [h7, hent]⟩

/-! ## Going OFFLINE -/

theorem panelOffline_eq (p : PanelId) (s : State) :
    panelOffline p s =
      raise .panelOffline (some p.val)
        (applyPolicy (s.panel p).lossPolicy p
          (s.setPanel p { s.panel p with online := .offline, silenceTimer := none })) := rfl

theorem applyPolicy_keepAll (p : PanelId) (s : State) : applyPolicy .keepAll p s = s := by
  unfold applyPolicy
  induction panelKeys p with
  | nil => rfl
  | cons k l ih => exact ih

/-- A panel written with its own station kept changes no grant. -/
theorem setPanel_grounded {s : State} {p : PanelId} {r : Panel} (h : r.ownStation = (s.panel p).ownStation) :
    Grounded s (s.setPanel p r) :=
  ⟨fun q => by
    rw [State.panel_setPanel]
    split
    · next hq => rw [hq]; exact h
    · rfl, rfl, rfl⟩

/-- R105: the states that a loss policy releases. -/
theorem releases_iff (pol : LossPolicy) (st : KeyState) :
    pol.releases st = true ↔ st ≠ .idle ∧ (pol = .dropAll ∨ (pol = .keepLatched ∧ st ≠ .latched)) := by
  cases pol <;> cases st <;> decide

/-- A key that is done for is released. -/
theorem Releasing.released {due : KeyId → Prop} {s t : State} (h : Releasing due s t) {k : KeyId} (hk : KeyDone s t k) :
    KeyReleased s t k := by
  obtain ⟨h1, h2, h3, h4, h5⟩ := hk
  exact ⟨h1, h2, h3, h4, h.ears.nowhere h4, fun a b hg => ungranted_iff.1 (h5 a b hg)⟩

/-- A key that is not due and does not wait is as it was. -/
theorem Releasing.unreleased {due : KeyId → Prop} {s t : State} (h : Releasing due s t) {k : KeyId} (hk : ¬due k)
    (hw : (s.key k).standing ≠ .waiting) : t.key k = s.key k :=
  (h.each k).elim (fun hu => hu.2 hw) fun hd => (hd.2.elim hk hw).elim

theorem Releasing.takenOffline {due : KeyId → Prop} {s t : State} (hs : EarsInv (fun _ => False) s)
    (h : Releasing due s t) {p : PanelId}
    (hdue : ∀ k, keyPanel k = p → (t.panel p).lossPolicy.releases (s.key k).state = true → due k) :
    Releasing due s (panelOffline p t) ∧
      (∀ k, keyPanel k = p → (t.panel p).lossPolicy.releases (s.key k).state = true →
        KeyDone s (panelOffline p t) k) ∧
      ∀ j, KeyDone s t j → KeyDone s (panelOffline p t) j := by
  obtain ⟨h1, k1⟩ := h.quiet (u := t.setPanel p { t.panel p with online := .offline, silenceTimer := none })
    (StoreInv.of_same rfl rfl h.store) (fun _ => rfl) (fun _ => rfl) rfl (setPanel_grounded rfl)
  obtain ⟨h2, d2, k2⟩ := h1.policy hs (t.panel p).lossPolicy hdue
  obtain ⟨h3, k3⟩ := h2.of_touches (raise_touches .panelOffline (some p.val) _) (by decide)
    fun q => congrArg Panel.ownStation ((raise_touches .panelOffline (some p.val) _).panel q)
  rw [panelOffline_eq]
  exact ⟨h3, fun k hk hr => k3 k (d2 k hk hr), fun j hj => k3 j (k2 j (k1 j hj))⟩

theorem panelOffline_panel (p : PanelId) (s : State) (q : PanelId) :
    PanelMoved (if q = p then { s.panel p with online := .offline, silenceTimer := none } else s.panel q)
      ((panelOffline p s).panel q) := by
  rw [panelOffline_eq, (raise_touches _ _ _).panel q]
  have h := (KeyUnitKept.applyPolicy (s.panel p).lossPolicy p
    (s.setPanel p { s.panel p with online := .offline, silenceTimer := none })).panels q
  rw [State.panel_setPanel] at h
  exact h

/-- Settles O48. -/
theorem panelPresence : Obligations.PanelPresence := by
  refine ⟨?_, panelOnline_online, fun p i delta s => ?_⟩
  case refine_2 =>
    intro e c
    have hc : c = (e.mode.counts : Int) := by
      dsimp only [c]
      cases e.mode <;> rfl
    clear_value c
    subst hc
    exact turnEncoder_turns p i delta s
  intro p s ha hset hon hdue u
  let s1 := s.setPanel p { s.panel p with online := .offline, silenceTimer := none }
  have hu1 : Touches keyFields s1 u := applyPolicy_touches _ p s1
  have hb : u.timing.atBoundary = false := by
    rw [hu1.timing, (setPanel_touches s p _).timing]
    exact hset.2
  have hpanel := panelOffline_panel p s p
  rw [if_pos rfl] at hpanel
  refine ⟨panelOffline p s, event_taken (f := panelOffline p) ha ?_, raise_raised _ _ _ hb,
    raise_touches_settled _ _ hb, ?_, ?_, fun hk => ?_, fun hs he k => ?_⟩
  · unfold State.silenceDue
    rw [hon, hdue]
    rfl
  · rw [hpanel]
  · rw [hpanel]
  · change Touches [.panels] s (applyPolicy (s.panel p).lossPolicy p s1)
    rw [hk, applyPolicy_keepAll]
    exact setPanel_touches s p _
  · intro released
    have hears := arbiterInv_iff.1 he
    obtain ⟨hr, hd, -⟩ := (Releasing.start (due := fun k => keyPanel k = p ∧
        (s.panel p).lossPolicy.releases (s.key k).state = true) hs he).takenOffline hears
      (p := p) fun k hk hrel => ⟨hk, hrel⟩
    exact ⟨fun ⟨hk, hc⟩ => hr.released (hd k hk ((releases_iff _ _).2 hc)),
      fun hn hw => hr.unreleased (fun ⟨hk, hc⟩ => hn ⟨hk, (releases_iff _ _).1 hc⟩) hw⟩

end Sys2Proof.Machine
end

section
/-! PROOF. What the loss of ports does to the panels and their keys (R11, R104, R105). -/

namespace Sys2Proof.Machine

/-! ## Ports lost in a row -/

/-- The panels that are gone are OFFLINE with their timers stopped; of the others only reply lists and pending lamps may
differ. -/
def PanelsGone (gone : PanelId → Prop) (s t : State) : Prop :=
  ∀ p,
    (gone p → PanelMoved { s.panel p with online := .offline, silenceTimer := none } (t.panel p) ∧
      (t.event .panelOffline).isSet = true) ∧
    (¬gone p → PanelMoved (s.panel p) (t.panel p))

/-- From s to t panels have gone OFFLINE with their policies applied; due says which keys all of them release. -/
structure PanelsLost (due : KeyId → Prop) (gone : PanelId → Prop) (s t : State) : Prop where
  panels : PanelsGone gone s t
  keys : StoreInv s → ArbiterInv s →
    Releasing due s t ∧ ∀ k, gone (keyPanel k) → s.PolicyReleases k → KeyDone s t k

/-- No event's set flag is cleared. -/
def FlagsKept (s t : State) : Prop := ∀ k, (s.event k).isSet = true → (t.event k).isSet = true

theorem EventsRise.flagsKept {K : EventKind → Prop} {s t : State} (h : EventsRise K s t) : FlagsKept s t :=
  fun _ => h.keeps

theorem FlagsKept.trans {s t u : State} (h : FlagsKept s t) (g : FlagsKept t u) : FlagsKept s u :=
  fun k hk => g k (h k hk)

theorem FlagsKept.of_touches {l : List Fld} {s t : State} (h : Touches l s t) (hl : .events ∉ l := by decide) :
    FlagsKept s t := fun k hk => by rw [h.event k hl]; exact hk

/-- A panel that is ONLINE on port x. -/
def State.onlineOn (s : State) (x : PortId) (p : PanelId) : Prop :=
  (s.panel p).configured = true ∧ (s.panel p).online = .online ∧ (s.panel p).port = x

theorem policyReleases_iff (s : State) (k : KeyId) :
    s.PolicyReleases k ↔ (s.panel (keyPanel k)).lossPolicy.releases (s.key k).state = true :=
  (releases_iff _ _).symm

theorem PanelsButLamps.moved {s t : State} (h : PanelsButLamps s t) (p : PanelId) :
    PanelMoved (s.panel p) (t.panel p) := by
  unfold PanelMoved
  rw [h p]

namespace PanelsLost

variable {due : KeyId → Prop} {gone : PanelId → Prop} {s t u : State}

theorem start (due : KeyId → Prop) (s : State) : PanelsLost due (fun _ => False) s s where
  panels _ := ⟨False.elim, fun _ => rfl⟩
  keys hs he := ⟨.start hs he, nofun⟩

theorem congr (h : PanelsLost due gone s t) {gone' : PanelId → Prop} (hg : ∀ p, gone' p ↔ gone p) :
    PanelsLost due gone' s t where
  panels p := ⟨fun hp => (h.panels p).1 ((hg p).1 hp), fun hp => (h.panels p).2 fun h' => hp ((hg p).2 h')⟩
  keys hs he := ⟨(h.keys hs he).1, fun k hk => (h.keys hs he).2 k ((hg _).1 hk)⟩

/-- A change that leaves keys, ears, entries, stations and taps, and of the panels all but reply lists and lamps. -/
theorem quiet (h : PanelsLost due gone s t) {l : List Fld} (ht : Touches l t u)
    (hl : [Fld.keys, .arbiters, .entries, .nextSerial, .stations, .taps].all (fun f => !l.contains f) = true)
    (hp : ∀ p, PanelMoved (t.panel p) (u.panel p)) (he : FlagsKept t u) : PanelsLost due gone s u where
  panels p := ⟨fun hg => ⟨((h.panels p).1 hg).1.trans (hp p), he _ ((h.panels p).1 hg).2⟩,
    fun hg => ((h.panels p).2 hg).trans (hp p)⟩
  keys hs hi := by
    obtain ⟨hr, hd⟩ := h.keys hs hi
    obtain ⟨hr', hd'⟩ := hr.of_touches ht hl fun p => by rw [hp p]
    exact ⟨hr', fun k hk hpol => hd' k (hd k hk hpol)⟩

/-- A change that leaves the panels, too. -/
theorem of_touches (h : PanelsLost due gone s t) {l : List Fld} (ht : Touches l t u)
    (hl : [Fld.keys, .arbiters, .entries, .nextSerial, .stations, .taps, .panels].all (fun f => !l.contains f) = true)
    (he : FlagsKept t u) : PanelsLost due gone s u := by
  have hp : Fld.panels ∉ l := fun hm => by
    have := List.all_eq_true.1 hl .panels (by decide)
    rw [List.contains_iff_mem.2 hm] at this
    cases this
  refine h.quiet ht (List.all_eq_true.2 fun f hf => List.all_eq_true.1 hl f ?_) (fun p => ?_) he
  · simp only [List.mem_cons, List.not_mem_nil, or_false] at hf ⊢
    tauto
  · rw [ht.panel p hp]
    rfl

theorem panelOffline_rises (p : PanelId) (s : State) :
    EventsRise (fun k => k = .grantRefused ∨ k = .panelOffline) s (panelOffline p s) := by
  rw [panelOffline_eq]
  exact ((EventsRise.of_touches (setPanel_touches s p _)).trans ((applyPolicy_rises _ p _).mono fun _ => .inl)).trans
    (.raise (K := fun k => k = .grantRefused ∨ k = .panelOffline) (k := .panelOffline) (.inr rfl) _ _)

/-- One panel more. -/
theorem offline (h : PanelsLost due gone s t) {p : PanelId} (hg : ¬gone p)
    (hdue : ∀ k, keyPanel k = p → s.PolicyReleases k → due k) :
    PanelsLost due (fun q => gone q ∨ q = p) s (panelOffline p t) := by
  have hev := (panelOffline_rises p t).flagsKept
  have hp : PanelMoved (s.panel p) (t.panel p) := (h.panels p).2 hg
  have hpol : (t.panel p).lossPolicy = (s.panel p).lossPolicy := by rw [hp]
  refine ⟨fun q => ⟨fun hq => ⟨?_, ?_⟩, fun hq => ?_⟩, fun hs he => ?_⟩
  · have hmoved := panelOffline_panel p t q
    by_cases hqp : q = p
    · subst hqp
      rw [if_pos rfl] at hmoved
      refine PanelMoved.trans ?_ hmoved
      rw [hp]
      rfl
    · rw [if_neg hqp] at hmoved
      exact ((h.panels q).1 (hq.resolve_right hqp)).1.trans hmoved
  · rw [panelOffline_eq, raise_event]
    rfl
  · obtain ⟨hq, hqp⟩ := not_or.1 hq
    have hmoved := panelOffline_panel p t q
    rw [if_neg hqp] at hmoved
    exact ((h.panels q).2 hq).trans hmoved
  · obtain ⟨hr, hd⟩ := h.keys hs he
    have hrel : ∀ k, keyPanel k = p → ((t.panel p).lossPolicy.releases (s.key k).state = true ↔ s.PolicyReleases k) :=
      fun k hk => by rw [policyReleases_iff, hpol, hk]
    obtain ⟨h1, h2, h3⟩ := hr.takenOffline (arbiterInv_iff.1 he) (p := p) fun k hk hkr => hdue k hk ((hrel k hk).1 hkr)
    refine ⟨h1, fun k hk hkr => ?_⟩
    rcases hk with hk | hk
    · exact h3 k (hd k hk hkr)
    · exact h2 k hk ((hrel k hk).2 hkr)

/-- R11: the key unit's part in the loss of a port. -/
theorem keyPortLost (h : PanelsLost due gone s t) {x : PortId}
    (hdue : ∀ k, s.onlineOn x (keyPanel k) → s.PolicyReleases k → due k) :
    PanelsLost due (fun p => gone p ∨ s.onlineOn x p) s (keyPortLost x t) := by
  have hfold : ∀ (l : List PanelId) (gone : PanelId → Prop) (t : State), PanelsLost due gone s t →
      PanelsLost due (fun p => gone p ∨ (p ∈ l ∧ s.onlineOn x p)) s
        (l.foldl (fun t p =>
          if (t.panel p).configured && (t.panel p).port == x && (t.panel p).online == .online then panelOffline p t
          else t) t) := by
    intro l
    induction l with
    | nil => exact fun gone t h => h.congr fun p => by simp
    | cons p l ih =>
      intro gone t h
      rw [List.foldl_cons]
      by_cases hg : gone p
      · have hoff : (t.panel p).online = .offline := by rw [((h.panels p).1 hg).1]
        rw [if_neg (by rw [hoff]; simp)]
        refine (ih gone t h).congr fun q => ?_
        by_cases hqp : q = p
        · subst hqp
          exact ⟨fun _ => .inl hg, fun _ => .inl hg⟩
        · simp only [List.mem_cons, hqp, false_or]
      · have hp : PanelMoved (s.panel p) (t.panel p) := (h.panels p).2 hg
        have hcond : ((t.panel p).configured && (t.panel p).port == x && (t.panel p).online == .online) = true ↔
            s.onlineOn x p := by
          rw [hp]
          simp only [Bool.and_eq_true, beq_iff_eq, State.onlineOn]
          tauto
        by_cases hon : s.onlineOn x p
        · rw [if_pos (hcond.2 hon)]
          refine (ih _ _ (h.offline hg fun k hk => hdue k (hk ▸ hon))).congr fun q => ?_
          by_cases hqp : q = p
          · subst hqp
            exact ⟨fun _ => .inl (.inr rfl), fun _ => .inr ⟨List.mem_cons_self, hon⟩⟩
          · simp only [List.mem_cons, hqp, false_or, or_false]
        · rw [if_neg fun hc => hon (hcond.1 hc)]
          refine (ih _ _ h).congr fun q => ?_
          by_cases hqp : q = p
          · subst hqp
            simp only [hon, and_false, or_false]
          · simp only [List.mem_cons, hqp, false_or]
  refine (hfold (allOf 48) gone t h).congr fun p => ?_
  simp only [allOf, List.mem_finRange, true_and]

end PanelsLost

end Sys2Proof.Machine
end

section
/-! PROOF. What the loss of one port's link does (R11, R12, R18, R104, R172). -/

namespace Sys2Proof.Machine

/-! ## The loss in two parts -/

/-- Port x emptied, and the host's queues with it where it is the management port. -/
def State.cutOff (s : State) (x : PortId) (st : PortState) : State :=
  let s1 := s.setPort x ((s.port x).emptied st)
  if s1.straps.mgmt = x then hostLost s1 else s1

/-- The loss of port x but for what it does to the reference. -/
def State.unlinked (s : State) (x : PortId) (st : PortState) : State :=
  fieldPortLost x (keyPortLost x (raise .portDown (some x.val) (s.cutOff x st)))

theorem losePort_eq (x : PortId) (st : PortState) (s : State) :
    losePort x st s = referenceGone (.port x) (s.unlinked x st) := rfl

theorem cutOff_touches (s : State) (x : PortId) (st : PortState) :
    Touches [.ports, .orders, .replies, .notices, .block] s (s.cutOff x st) := by
  unfold State.cutOff
  dsimp only
  split
  · exact (setPort_touches s x _).up.trans (hostLost_touches _).up
  · exact (setPort_touches s x _).up

abbrev unlinkFields : List Fld :=
  [.ports, .orders, .replies, .notices, .block, .events, .draws, .keys, .panels, .arbiters, .parties, .entries, .nextSerial,
    .lampDirty, .circuits, .probeQueues]

theorem unlinked_touches (s : State) (x : PortId) (st : PortState) : Touches unlinkFields s (s.unlinked x st) := by
  unfold State.unlinked
  refine Touches.trans ?_ (fieldPortLost_touches _ _).up
  refine Touches.trans ?_ (keyPortLost_touches _ _).up
  exact (cutOff_touches s x st).up.trans (raise_touches _ _ _).up

/-! ## Its events -/

theorem cutOff_rises {K : EventKind → Prop} (s : State) (x : PortId) (st : PortState) : EventsRise K s (s.cutOff x st) := by
  refine .of_events (cutOff_touches s x st).events fun h => ?_
  unfold State.cutOff
  dsimp only
  split
  · exact Nat.zero_le _
  · exact h

/-- The kinds that the loss of a link may raise beside REFERENCE_LOST. -/
abbrev LinkLoss (k : EventKind) : Prop := k = .portDown ∨ k = .panelOffline ∨ k = .grantRefused

theorem keyPortLost_rises (x : PortId) (s : State) : EventsRise LinkLoss s (keyPortLost x s) :=
  .foldl (fun t p => by
    split
    · exact (PanelsLost.panelOffline_rises p t).mono fun _ h => .inr h.symm
    · exact .refl _ t) _ s

theorem unlinked_rises (s : State) (x : PortId) (st : PortState) : EventsRise LinkLoss s (s.unlinked x st) := by
  unfold State.unlinked
  refine EventsRise.trans ?_ (.of_touches (fieldPortLost_touches x _))
  refine EventsRise.trans ?_ (keyPortLost_rises x _)
  exact (cutOff_rises s x st).trans
    (.raise (K := LinkLoss) (k := .portDown) (.inl rfl) _ _)

theorem unlinked_portDown (s : State) (x : PortId) (st : PortState) : ((s.unlinked x st).event .portDown).isSet = true := by
  have h : EventsRise LinkLoss (raise .portDown (some x.val) (s.cutOff x st)) (s.unlinked x st) :=
    (keyPortLost_rises x _).trans (.of_touches (fieldPortLost_touches x _))
  refine h.keeps ?_
  rw [raise_event]
  rfl

theorem raise_rises_retimed (i : Option Nat) (tm : Timing) (s : State) :
    EventsRise (· = .referenceLost) s (raise .referenceLost i { s with timing := tm }) :=
  EventsRise.trans (t := { s with timing := tm }) (.of_events rfl id) (.raise (K := (· = .referenceLost)) (k := .referenceLost) rfl i _)

theorem referenceGone_rises (r : RefSource) (s : State) : EventsRise (· = .referenceLost) s (referenceGone r s) := by
  by_cases h : s.timing.selected = r
  · by_cases hr : r = .internal
    · have : referenceGone r s = s := by simp [referenceGone, hr]
      rw [this]
      exact .refl _ s
    · rw [referenceGone_of_selected h hr]
      exact raise_rises_retimed none _ s
  · rw [referenceGone_of_ne h]
    exact .refl _ s

theorem losePort_flags (x : PortId) (st : PortState) (s : State) : FlagsKept s (losePort x st s) := by
  rw [losePort_eq]
  exact (unlinked_rises s x st).flagsKept.trans (referenceGone_rises _ _).flagsKept

theorem losePort_portDown (x : PortId) (st : PortState) (s : State) :
    ((losePort x st s).event .portDown).isSet = true := by
  rw [losePort_eq]
  exact (referenceGone_rises _ _).keeps (unlinked_portDown s x st)

/-! ## The reference -/

/-- R18: the loss of the selected reference. -/
theorem losePort_selected {x : PortId} {st : PortState} {s : State} (h : s.timing.selected = .port x) :
    ((losePort x st s).timing.active = .internal ∧ (losePort x st s).timing.pending = none ∧
        (losePort x st s).timing.selected = s.timing.selected ∧
        (losePort x st s).timing.refclkPresent = s.timing.refclkPresent ∧
        (losePort x st s).timing.realigning = s.timing.realigning) ∧
      ((losePort x st s).event .referenceLost).isSet = true ∧ ((losePort x st s).event .referenceLost).inst = none := by
  have hu : (s.unlinked x st).timing = s.timing := (unlinked_touches s x st).timing
  have ht := (losePort_eq x st s).trans (referenceGone_of_selected (by rw [hu]; exact h) nofun)
  rw [ht, raise_timing, raise_event, hu]
  exact ⟨⟨rfl, rfl, rfl, rfl, rfl⟩, rfl, rfl⟩

theorem losePort_unselected {x : PortId} {st : PortState} {s : State} (h : s.timing.selected ≠ .port x) :
    (losePort x st s).timing = s.timing ∧ EventsRise LinkLoss s (losePort x st s) := by
  have hu : (s.unlinked x st).timing = s.timing := (unlinked_touches s x st).timing
  rw [losePort_eq, referenceGone_of_ne (by rw [hu]; exact h)]
  exact ⟨hu, unlinked_rises s x st⟩

/-! ## The host, the circuits and the panels -/

theorem losePort_host {x : PortId} {st : PortState} {s : State} (h : s.straps.mgmt = x) :
    (losePort x st s).orders = [] ∧ (losePort x st s).replies = [] ∧ (losePort x st s).block = none := by
  have hcut : s.cutOff x st = hostLost (s.setPort x ((s.port x).emptied st)) := if_pos h
  have ht : Touches (.notices :: .reference :: keyFields ++ [.circuits, .probeQueues]) (s.cutOff x st) (losePort x st s) := by
    rw [losePort_eq]
    refine Touches.trans ?_ (referenceGone_touches _ _).up
    refine Touches.trans ?_ (fieldPortLost_touches _ _).up
    exact (raise_touches _ _ _).up.trans (keyPortLost_touches _ _).up
  exact ⟨by rw [ht.orders, hcut]; rfl, by rw [ht.replies, hcut]; rfl, by rw [ht.block, hcut]; rfl⟩

/-- The state in which the field unit takes the loss has the circuits and stations as they were. -/
theorem keyPortLost_touches_cutOff (x : PortId) (st : PortState) (s : State) :
    Touches (.ports :: .orders :: .replies :: .notices :: .block :: keyFields) s
      (keyPortLost x (raise .portDown (some x.val) (s.cutOff x st))) :=
  ((cutOff_touches s x st).up.trans (raise_touches _ _ _).up).trans (keyPortLost_touches _ _).up

theorem losePort_circuits (x : PortId) (st : PortState) (s : State) :
    Touches [.reference, .events, .notices, .draws] (s.unlinked x st) (losePort x st s) := by
  rw [losePort_eq]
  exact referenceGone_touches _ _

theorem losePort_circuit_lost {x : PortId} {st : PortState} {s : State} {c : CircuitId} (h : s.LosesLink x (s.circuit c)) :
    (losePort x st s).circuit c = { s.circuit c with state := .linkLost, intervalTimer := none, outstanding := [] } ∧
      ∀ y, c ∉ (losePort x st s).probeQueue y := by
  have hk := keyPortLost_touches_cutOff x st s
  have ht := losePort_circuits x st s
  have hl := fieldPortLost_lost (x := x) (s := keyPortLost x (raise .portDown (some x.val) (s.cutOff x st))) (c := c)
    (by rw [hk.circuit]; exact (OnPort.congr hk.stations).2 h)
  rw [hk.circuit] at hl
  refine ⟨(ht.circuit c).trans hl.1, fun y => ?_⟩
  rw [show (losePort x st s).probeQueue y = (s.unlinked x st).probeQueue y from congrArg (tget · y) ht.probeQueues]
  exact hl.2 y

theorem losePort_circuit_kept {x : PortId} {st : PortState} {s : State} {c : CircuitId} (h : ¬s.LosesLink x (s.circuit c)) :
    (losePort x st s).circuit c = s.circuit c ∧
      ∀ y, c ∈ (losePort x st s).probeQueue y ↔ c ∈ s.probeQueue y := by
  have hk := keyPortLost_touches_cutOff x st s
  have ht := losePort_circuits x st s
  have hl := fieldPortLost_kept (x := x) (s := keyPortLost x (raise .portDown (some x.val) (s.cutOff x st))) (c := c)
    (by rw [hk.circuit]; exact fun hn => h ((OnPort.congr hk.stations).1 hn))
  rw [hk.circuit] at hl
  refine ⟨(ht.circuit c).trans hl.1, fun y => ?_⟩
  rw [show (losePort x st s).probeQueue y = (s.unlinked x st).probeQueue y from congrArg (tget · y) ht.probeQueues]
  refine (hl.2 y).trans (Iff.of_eq ?_)
  rw [show (keyPortLost x (raise .portDown (some x.val) (s.cutOff x st))).probeQueue y = s.probeQueue y from
    congrArg (tget · y) hk.probeQueues]

theorem PanelsLost.losePort {due : KeyId → Prop} {gone : PanelId → Prop} {s t : State} (h : PanelsLost due gone s t)
    {x : PortId} (st : PortState) (hdue : ∀ k, s.onlineOn x (keyPanel k) → s.PolicyReleases k → due k) :
    PanelsLost due (fun p => gone p ∨ s.onlineOn x p) s (Machine.losePort x st t) := by
  have h1 := h.of_touches (cutOff_touches t x st) (by decide) (.of_touches (cutOff_touches t x st))
  have h2 := h1.of_touches (raise_touches .portDown (some x.val) (t.cutOff x st)) (by decide)
    (EventsRise.raise (K := fun _ => True) trivial _ _).flagsKept
  have h3 := h2.keyPortLost hdue
  have h4 := h3.of_touches (fieldPortLost_touches x _) (by decide) (.of_touches (fieldPortLost_touches x _))
  rw [losePort_eq]
  exact h4.of_touches (referenceGone_touches _ _) (by decide) (referenceGone_rises _ _).flagsKept

/-- The ports' loss as the statements have it. -/
theorem PanelsLost.follow {due : KeyId → Prop} {gone : PanelId → Prop} {s t : State} {lost : PortId → Prop}
    (h : PanelsLost due gone s t)
    (hg : ∀ p, gone p ↔ (s.panel p).configured = true ∧ (s.panel p).online = .online ∧ lost (s.panel p).port)
    (hdue : ∀ k, due k → gone (keyPanel k) ∧ s.PolicyReleases k) : PanelsFollow s t lost := by
  refine ⟨fun p => ⟨fun hp => ?_, fun hp => ?_⟩, fun hs he k => ?_⟩
  · obtain ⟨hm, hev⟩ := (h.panels p).1 ((hg p).2 hp)
    exact ⟨by rw [hm], by rw [hm], hev⟩
  · have hm := (h.panels p).2 fun hn => hp ((hg p).1 hn)
    exact ⟨by rw [hm], by rw [hm]⟩
  · obtain ⟨hr, hd⟩ := h.keys hs he
    refine ⟨fun ⟨hk, hpol⟩ => hr.released (hd k ((hg _).2 hk) hpol), fun hn hw => ?_⟩
    rw [hr.unreleased (fun hk => hn ⟨(hg _).1 (hdue k hk).1, (hdue k hk).2⟩) hw]

end Sys2Proof.Machine
end

section
/-! PROOF. Writes of PORT 0..3 (R13 with R11, R12, R18, R104, R172). -/

namespace Sys2Proof.Machine

/-! ## The write itself -/

/-- Port x with its outgoing width written. -/
def State.widened (s : State) (x : PortId) (w : Width) : State := s.setPort x { s.port x with width := w }

theorem widened_port (s : State) (x : PortId) (w : Width) (y : PortId) :
    (s.widened x w).port y = if y = x then { s.port x with width := w } else s.port y := State.port_setPort s x _ y

theorem Port.updated_eq {r : Port} {l : List FieldValue} {e : Bool} {w : Width} (he : boolField l 1 r.enabled = some e)
    (hw : widthField l 2 r.width = some w) : r.updated l = some { r with enabled := e, width := w } := by
  unfold Port.updated
  rw [he, hw]

theorem writePort_enable {x : PortId} {l : List FieldValue} {s : State} {w : Width} (hl : isYes l 1 = true)
    (hw : widthField l 2 (s.port x).width = some w) : writePort x l s = (enablePort x (s.widened x w), .ok) := by
  have hlook : l.lookup 1 = some 1 := by simpa [isYes] using hl
  have he : boolField l 1 (s.port x).enabled = some true := by simp [boolField, hlook]
  have hn := names_of_lookup hlook
  rcases writePort_cases x l s with ⟨h, -⟩ | ⟨r, hr, ⟨-, hoff, -⟩ | ⟨-, h⟩⟩
  · rw [Port.updated_eq he hw] at h
    cases h
  · rw [Port.updated_eq he hw] at hr
    cases hr
    cases hoff
  · rw [Port.updated_eq he hw] at hr
    cases hr
    rw [h, if_pos hn]
    rfl

theorem writePort_disable {x : PortId} {l : List FieldValue} {s : State} {w : Width} (hl : isNo l 1 = true)
    (hw : widthField l 2 (s.port x).width = some w) :
    writePort x l s = if s.straps.mgmt = x then (s, .inUse) else (disablePort x (s.widened x w), .ok) := by
  have hlook : l.lookup 1 = some 0 := by simpa [isNo] using hl
  have he : boolField l 1 (s.port x).enabled = some false := by simp [boolField, hlook]
  have hn := names_of_lookup hlook
  rcases writePort_cases x l s with ⟨h, -⟩ | ⟨r, hr, ⟨-, -, hm, h⟩ | ⟨hc, h⟩⟩
  · rw [Port.updated_eq he hw] at h
    cases h
  · rw [h, if_pos hm]
  · rw [Port.updated_eq he hw] at hr
    cases hr
    rw [h, if_pos hn, if_neg fun hm => hc ⟨hn, rfl, hm⟩]
    rfl

theorem writePort_width {x : PortId} {l : List FieldValue} {s : State} {w : Width} (hl : names l 1 = false)
    (hw : widthField l 2 (s.port x).width = some w) : writePort x l s = (s.widened x w, .ok) := by
  have hlook : l.lookup 1 = none := by
    by_contra hc
    obtain ⟨v, hv⟩ := Option.ne_none_iff_exists'.1 hc
    rw [names_of_lookup hv] at hl
    cases hl
  have he : boolField l 1 (s.port x).enabled = some (s.port x).enabled := by simp [boolField, hlook]
  rcases writePort_cases x l s with ⟨h, -⟩ | ⟨r, hr, ⟨hn, -⟩ | ⟨-, h⟩⟩
  · rw [Port.updated_eq he hw] at h
    cases h
  · rw [hl] at hn
    cases hn
  · rw [Port.updated_eq he hw] at hr
    cases hr
    rw [h, if_neg (by rw [hl]; decide)]
    rfl

theorem writePort_refused {x : PortId} {l : List FieldValue} {s : State} (hw : widthField l 2 (s.port x).width = none) :
    writePort x l s = (s, .badValue) := by
  have hnone : (s.port x).updated l = none := by
    unfold Port.updated
    rw [hw]
    cases boolField l 1 (s.port x).enabled <;> rfl
  rcases writePort_cases x l s with ⟨-, h⟩ | ⟨r, hr, -⟩
  · exact h
  · rw [hnone] at hr
    cases hr

theorem enablePort_port (x : PortId) (s : State) (y : PortId) :
    (enablePort x s).port y =
      if y = x then
        (if (s.port x).state = .disabled then
          { s.port x with enabled := true, state := .down, lockCount := 0, missCount := 0, lastSeq := none }
        else { s.port x with enabled := true })
      else s.port y := State.port_setPort s x _ y

/-- Port x marked as not enabled. -/
def State.barred (s : State) (x : PortId) : State := s.setPort x { s.port x with enabled := false }

theorem barred_port (s : State) (x : PortId) (y : PortId) :
    (s.barred x).port y = if y = x then { s.port x with enabled := false } else s.port y := State.port_setPort s x _ y

theorem disablePort_eq (x : PortId) (s : State) :
    disablePort x s =
      if (s.port x).state.carries = true then losePort x .disabled (s.barred x)
      else (s.barred x).setPort x (((s.barred x).port x).emptied .disabled) := rfl

theorem disablePort_port (x : PortId) (s : State) (y : PortId) :
    (disablePort x s).port y = if y = x then ({ s.port x with enabled := false } : Port).emptied .disabled else s.port y := by
  have hempty : ∀ v, (s.barred x).port x = v → v.emptied .disabled = ({ s.port x with enabled := false } : Port).emptied .disabled →
      (if y = x then v.emptied .disabled else (s.barred x).port y) =
        if y = x then ({ s.port x with enabled := false } : Port).emptied .disabled else s.port y := fun v hv he => by
    by_cases hy : y = x
    · rw [if_pos hy, if_pos hy, he]
    · rw [if_neg hy, if_neg hy, barred_port, if_neg hy]
  have hx : (s.barred x).port x = { s.port x with enabled := false } := (barred_port s x x).trans (if_pos rfl)
  rw [disablePort_eq]
  split
  · exact (losePort_port x .disabled (s.barred x) y).trans (hempty _ rfl (by rw [hx]))
  · exact (State.port_setPort (s.barred x) x _ y).trans (hempty _ rfl (by rw [hx]))

end Sys2Proof.Machine
end

section
/-! PROOF. PORT_ENABLE, PORT_DISABLE and OUTGOING_WIDTH_WRITE settled. -/

namespace Sys2Proof.Machine

/-- A circuit that probes, on a port of a list. -/
theorem losesLink_circuitOn {s : State} {x : PortId} {r : Circuit} :
    s.LosesLink x r ↔ r.Probes ∧ s.CircuitOn r (fun y => y = x) := Iff.rfl

/-- R13, R11, R18, R104, R172: what the disable of a port in UP or HOLDOVER leaves. -/
theorem disable_lost {s v t : State} {x : PortId} (hv : Touches [.orders, .lastUnit, .unitTaken, .ports] s v)
    (ht : Touches [.replies, .draws, .panels, .lampDirty] (losePort x .disabled v) t)
    (hp : PanelsButLamps (losePort x .disabled v) t) :
    (t.event .portDown).isSet = true ∧ PanelsFollow s t (fun y => y = x) ∧
      (∀ c,
        let r := s.circuit c
        let lost : Prop := r.Probes ∧ s.CircuitOn r (fun y => y = x)
        (lost → t.circuit c = { r with state := .linkLost, intervalTimer := none, outstanding := [] } ∧
          ∀ y, c ∉ t.probeQueue y) ∧
        (¬lost → t.circuit c = r ∧ ∀ y, c ∈ t.probeQueue y ↔ c ∈ s.probeQueue y)) ∧
      t.timing.selected = s.timing.selected ∧
      (s.timing.selected = .port x →
        t.timing.active = .internal ∧ t.timing.pending = none ∧ (t.event .referenceLost).isSet = true ∧
          (t.event .referenceLost).inst = none) ∧
      (s.timing.selected ≠ .port x →
        t.timing.active = s.timing.active ∧ t.timing.pending = s.timing.pending ∧
          t.event .referenceLost = s.event .referenceLost) := by
  have hfollow : PanelsFollow s t (fun y => y = x) := by
    have h1 := (PanelsLost.start (fun k => s.onlineOn x (keyPanel k) ∧ s.PolicyReleases k) s).of_touches hv (by decide)
      (.of_touches hv)
    have h2 := (h1.losePort (x := x) .disabled fun k hk hpol => ⟨hk, hpol⟩).quiet ht (by decide)
      hp.moved (.of_touches ht)
    exact h2.follow (fun p => by rw [false_or]; rfl) fun k hk => ⟨.inr hk.1, hk.2⟩
  have hlink : ∀ r, v.LosesLink x r ↔ s.LosesLink x r := fun r => OnPort.congr hv.stations
  have hqueue : ∀ y, t.probeQueue y = (losePort x .disabled v).probeQueue y := fun y => congrArg (tget · y) ht.probeQueues
  have hsel : v.timing.selected = s.timing.selected := congrArg Timing.selected hv.timing
  refine ⟨?_, hfollow, fun c => ⟨fun hl => ?_, fun hl => ?_⟩, ?_, fun h => ?_, fun h => ?_⟩
  · rw [ht.event]
    exact losePort_portDown x .disabled v
  · obtain ⟨h1, h2⟩ := losePort_circuit_lost (st := .disabled)
      ((hlink (v.circuit c)).2 (by rw [hv.circuit]; exact losesLink_circuitOn.2 hl))
    exact ⟨(ht.circuit c).trans (h1.trans (by rw [hv.circuit])), fun y => by rw [hqueue]; exact h2 y⟩
  · obtain ⟨h1, h2⟩ := losePort_circuit_kept (st := .disabled)
      (fun hn => hl (losesLink_circuitOn.1 (by
        have := (hlink (v.circuit c)).1 hn
        rw [hv.circuit] at this
        exact this)))
    refine ⟨(ht.circuit c).trans (h1.trans (hv.circuit c)), fun y => ?_⟩
    rw [hqueue]
    refine (h2 y).trans (Iff.of_eq ?_)
    rw [show v.probeQueue y = s.probeQueue y from congrArg (tget · y) hv.probeQueues]
  · rw [ht.timing]
    by_cases h : v.timing.selected = .port x
    · exact (losePort_selected (st := .disabled) h).1.2.2.1.trans hsel
    · rw [(losePort_unselected (st := .disabled) h).1, hsel]
  · rw [ht.timing, ht.event]
    obtain ⟨⟨h1, h2, -⟩, h3, h4⟩ := losePort_selected (st := .disabled) (hsel.trans h)
    exact ⟨h1, h2, h3, h4⟩
  · rw [ht.timing, ht.event]
    obtain ⟨h1, h2⟩ := losePort_unselected (x := x) (st := .disabled) (s := v) (by rw [hsel]; exact h)
    rw [h1, hv.timing]
    refine ⟨rfl, rfl, ?_⟩
    exact ((h2.kinds .referenceLost).resolve_right fun hh => by simp [LinkLoss] at hh).trans (hv.event _)

/-- The state a write of port x works on once the width is written: its port has it, and nothing else is new. -/
structure Widened (s a : State) (x : PortId) (v : Width) : Prop where
  touches : Touches [.orders, .lastUnit, .unitTaken, .ports] s a
  port : ∀ y, a.port y = if y = x then { s.port x with width := v } else s.port y

theorem widened_takeHead (s : State) (x : PortId) (v : Width) : Widened s ((takeHead s).widened x v) x v := by
  have htake := takeHead_touches s
  have hport : ∀ y, (takeHead s).port y = s.port y := fun y => congrArg (tget · y) htake.ports
  refine ⟨htake.up.trans (setPort_touches _ x _).up, fun y => ?_⟩
  rw [widened_port, hport, hport]

/-- R13: the port that an enable leaves. -/
theorem Widened.enabled {s a t : State} {x : PortId} {v : Width} (h : Widened s a x v)
    (ht : t.ports = (enablePort x a).ports) :
    (∀ y, y ≠ x → t.port y = s.port y) ∧ (t.port x).width = v ∧ (t.port x).enabled = true ∧
      (t.port x).state = if (s.port x).state = .disabled then .down else (s.port x).state := by
  have hpt : ∀ y, t.port y = (enablePort x a).port y := fun y => congrArg (tget · y) ht
  refine ⟨fun y hy => ?_, ?_⟩
  · rw [hpt, enablePort_port, if_neg hy, h.port, if_neg hy]
  · rw [hpt, enablePort_port, if_pos rfl, h.port, if_pos rfl]
    dsimp only
    split
    · exact ⟨rfl, rfl, rfl⟩
    · exact ⟨rfl, rfl, rfl⟩

/-- R13: the port that a disable leaves. -/
theorem Widened.disabled {s a t : State} {x : PortId} {v : Width} (h : Widened s a x v)
    (ht : t.ports = (disablePort x a).ports) :
    (t.port x).width = v ∧ (t.port x).enabled = false ∧ (t.port x).state = .disabled ∧ (t.port x).lastSeq = none ∧
      (∀ i, (tget (t.port x).buffer i).stamp = none) ∧ ∀ y, y ≠ x → t.port y = s.port y := by
  have hpt : ∀ y, t.port y = (disablePort x a).port y := fun y => congrArg (tget · y) ht
  have hx : t.port x = ({ s.port x with width := v, enabled := false } : Port).emptied .disabled := by
    rw [hpt, disablePort_port, if_pos rfl, h.port, if_pos rfl]
  refine ⟨?_, ?_, ?_, ?_, fun i => ?_, fun y hy => ?_⟩
  · rw [hx]; rfl
  · rw [hx]; rfl
  · rw [hx]; rfl
  · rw [hx]; rfl
  · rw [hx]
    simp [Port.emptied, tget, BufferPosition.empty]
  · rw [hpt, disablePort_port, if_neg hy, h.port, if_neg hy]

theorem Widened.disable_carrying {s a : State} {x : PortId} {v : Width} (h : Widened s a x v)
    (hc : (s.port x).state.carries = true) : disablePort x a = losePort x .disabled (a.barred x) := by
  rw [disablePort_eq, if_pos]
  rw [h.port, if_pos rfl]
  exact hc

theorem Widened.disable_idle {s a : State} {x : PortId} {v : Width} (h : Widened s a x v)
    (hc : (s.port x).state.carries ≠ true) : Touches [.ports] a (disablePort x a) := by
  rw [disablePort_eq, if_neg]
  · exact (setPort_touches _ x _).trans (setPort_touches _ x _)
  · rw [h.port, if_pos rfl]
    exact hc

/-- Settles O35. -/
theorem portWritesTakeEffect : Obligations.PortWritesTakeEffect := by
  intro tag index mask values x s hs hi l w
  have hidx : ∀ v, writePort x l (takeHead s) = v → writeRecord .port index.toNat l (takeHead s) = v := fun v hv => by
    have hne : index.toNat ≠ 4 := by
      have := x.isLt
      omega
    refine Eq.trans ?_ hv
    unfold writeRecord
    exact (if_neg hne).trans (atIndex_val hi _ _)
  have htake := takeHead_touches s
  have hport : ∀ y, (takeHead s).port y = s.port y := fun y => congrArg (tget · y) htake.ports
  have hwidth : ∀ v, w = v → widthField l 2 ((takeHead s).port x).width = v := fun v hv => by rw [hport]; exact hv
  refine ⟨fun hrow hw => ?_, fun hrow hw => ⟨fun hm => ?_, fun hm => ?_⟩, fun hrow hn hw => ?_, fun hrow hw => ?_⟩
  · obtain ⟨v, hv⟩ := Option.ne_none_iff_exists'.1 hw
    have hrec := hidx _ (writePort_enable (Bool.and_eq_true_iff.1 hrow).2 (hwidth _ hv))
    have ha := widened_takeHead s x v
    have hset : Touches [.ports] (takeHead s) ((takeHead s).widened x v) := setPort_touches _ x _
    generalize (takeHead s).widened x v = a at hrec ha hset
    obtain ⟨t, ht, hans, h1⟩ := row_wrote_quiet hs hrow hrec (hset.trans (enablePort_touches x a)) (by decide)
    obtain ⟨g1, g2, g3⟩ := ha.enabled h1.ports
    exact ⟨t, ht, hans, g1, (congrArg some g2).trans hv.symm, g3⟩
  · obtain ⟨v, hv⟩ := Option.ne_none_iff_exists'.1 hw
    exact row_refused hs hrow
      (hidx _ ((writePort_disable (Bool.and_eq_true_iff.1 hrow).2 (hwidth _ hv)).trans (if_pos hm)))
  · obtain ⟨v, hv⟩ := Option.ne_none_iff_exists'.1 hw
    have hrec := hidx _ ((writePort_disable (Bool.and_eq_true_iff.1 hrow).2 (hwidth _ hv)).trans (if_neg hm))
    have ha := widened_takeHead s x v
    have hset : Touches [.ports] (takeHead s) ((takeHead s).widened x v) := setPort_touches _ x _
    generalize (takeHead s).widened x v = a at hrec ha hset
    by_cases hc : (s.port x).state.carries = true
    · obtain ⟨t, ht, hans, h1, h2⟩ := row_wrote (l := lossFields) hs hrow hrec
        (hset.up.trans (disablePort_touches x a).up)
      obtain ⟨p1, p2, p3, p4, p5, p6⟩ := ha.disabled h1.ports
      rw [ha.disable_carrying hc] at h1 h2
      refine ⟨t, ht, hans, (congrArg some p1).trans hv.symm, p2, p3, p4, p5, p6,
        fun _ => disable_lost (ha.touches.trans (setPort_touches a x _).up) h1 h2, fun hn => ?_⟩
      rw [hc] at hn
      cases hn
    · have hu := hset.trans (ha.disable_idle hc)
      obtain ⟨t, ht, hans, h1⟩ := row_wrote_quiet hs hrow hrec hu (by decide)
      obtain ⟨p1, p2, p3, p4, p5, p6⟩ := ha.disabled h1.ports
      exact ⟨t, ht, hans.mono (by decide), (congrArg some p1).trans hv.symm, p2, p3, p4, p5, p6, fun hn => absurd hn hc,
        fun _ => (htake.up.trans hu.up).trans h1.up⟩
  · obtain ⟨v, hv⟩ := Option.ne_none_iff_exists'.1 hw
    have hrec := hidx _ (writePort_width hn (hwidth _ hv))
    obtain ⟨t, ht, hans, h1⟩ := row_wrote_quiet hs hrow hrec (setPort_touches _ x _) (by decide)
    have hpt : ∀ y, t.port y = if y = x then { s.port x with width := v } else s.port y := fun y =>
      (congrArg (tget · y) h1.ports : t.port y = _).trans ((widened_takeHead s x v).port y)
    refine ⟨t, ht, hans, fun y hy => (hpt y).trans (if_neg hy), fun v' hv' => ?_⟩
    rw [hv] at hv'
    cases hv'
    exact (hpt x).trans (if_pos rfl)
  · exact row_refused hs hrow (hidx _ (writePort_refused (hwidth _ hw)))

end Sys2Proof.Machine
end

section
/-! PROOF. What a write of a panel's fields leaves of its record, and how it is checked (R31, R100, R101). -/

namespace Sys2Proof.Machine

/-! ## The fields' values -/

/-- The code of an encoder's target: 0 for the own station, else one more than the key's number. -/
def targetCode (n : Option (Fin 32)) : Nat :=
  match n with
  | some n => n.val + 1
  | none => 0

theorem encoderTargets_nodup : encoderTargets.Nodup :=
  List.nodup_cons.2 ⟨by simp, (List.nodup_finRange 32).map (Option.some_injective _)⟩

theorem codeIn_getElem {α : Type} [DecidableEq α] {l : List α} (h : l.Nodup) (m : Nat) (hm : m < l.length) :
    codeIn l l[m] = m := h.idxOf_getElem m hm

theorem encoderTargets_code (n : Option (Fin 32)) : codeIn encoderTargets n = targetCode n := by
  have hget : ∀ m (hm : m < encoderTargets.length), encoderTargets[m] = n → codeIn encoderTargets n = m :=
    fun m hm h => h ▸ codeIn_getElem encoderTargets_nodup m hm
  have hlen : encoderTargets.length = 33 := by simp [encoderTargets, allOf]
  cases n with
  | none => exact hget 0 (by omega) rfl
  | some i =>
    refine hget (i.val + 1) (by omega) ?_
    simp [encoderTargets, allOf]

theorem Encoder.updated_fields {e q : Encoder} {l : List FieldValue} {i : Nat} (h : e.updated l i = some q) :
    enumField l (8 + i) encoderModes e.mode = some q.mode ∧ enumField l (12 + i) encoderTargets e.target = some q.target ∧
      q.residue = if names l (8 + i) = true ∨ names l (12 + i) = true then 0 else e.residue := by
  unfold Encoder.updated at h
  split at h
  · next hm ht =>
    cases h
    exact ⟨hm, ht, by simp only [Bool.or_eq_true]⟩
  · cases h

theorem Encoder.updated_values {e q : Encoder} {l : List FieldValue} {i : Nat} (h : e.updated l i = some q) :
    [EncoderMode.x1, .x2, .x4].idxOf q.mode = numberOf l (8 + i) ([EncoderMode.x1, .x2, .x4].idxOf e.mode) ∧
      targetCode q.target = numberOf l (12 + i) (targetCode e.target) ∧
      q.minimum.val = levelOf l (16 + i) e.minimum ∧ q.maximum.val = levelOf l (20 + i) e.maximum ∧
      q.residue = if names l (8 + i) = true ∨ names l (12 + i) = true then 0 else e.residue := by
  obtain ⟨hm, ht, hr⟩ := Encoder.updated_fields h
  obtain ⟨hmin, hmax⟩ := Encoder.updated_limits h
  refine ⟨enumField_value (by decide) hm, ?_, ?_, ?_, hr⟩
  · rw [← encoderTargets_code, ← encoderTargets_code]
    exact enumField_value encoderTargets_nodup ht
  · rw [hmin]
    exact levelField_value ..
  · rw [hmax]
    exact levelField_value ..

theorem Panel.updated_fields {r q : Panel} {l : List FieldValue} (h : r.updated l = some q) :
    boolField l 0 r.configured = some q.configured ∧ indexField l 1 r.port = some q.port ∧
      (∃ n, numberField l 2 r.node.toNat 63 = some n ∧ q.node = BitVec.ofNat 6 n) ∧
      indexField l 3 r.ownStation = some q.ownStation ∧ enumField l 4 lossPolicies r.lossPolicy = some q.lossPolicy ∧
      q = { r with
        configured := q.configured, port := q.port, node := q.node, ownStation := q.ownStation
        lossPolicy := q.lossPolicy, latchWindow := timeField l 5 r.latchWindow 10 100 1000
        replyExpiry := timeField l 6 r.replyExpiry 1 2 60, encoders := q.encoders } := by
  unfold Panel.updated at h
  split at h
  · next hc hp hn ho hpol =>
    split at h
    · cases h
      exact ⟨hc, hp, ⟨_, hn, rfl⟩, ho, hpol, rfl⟩
    · cases h
  · cases h

theorem Encoder.updated_eq_none (e : Encoder) (l : List FieldValue) (i : Nat) :
    (e.updated l i).isNone = true ↔ Exceeds l (8 + i) 2 ∨ Exceeds l (12 + i) 32 := by
  rw [Encoder.updated_isNone, Bool.or_eq_true, enumField_isNone_iff _ _ _ _ (by decide),
    enumField_isNone_iff _ _ _ _ (by simp [encoderTargets])]
  rw [show encoderTargets.length - 1 = 32 from by simp [encoderTargets, allOf]]
  rfl

theorem Panel.updated_eq_none (r : Panel) (l : List FieldValue) :
    r.updated l = none ↔
      Exceeds l 0 1 ∨ Exceeds l 1 3 ∨ Exceeds l 2 63 ∨ Exceeds l 3 191 ∨ Exceeds l 4 2 ∨
        ∃ i < 4, Exceeds l (8 + i) 2 ∨ Exceeds l (12 + i) 32 := by
  rw [← Option.isNone_iff_eq_none, Panel.updated_isNone]
  simp only [Bool.or_eq_true, boolField_isNone_iff, indexField_isNone_iff, numberField_isNone_iff,
    enumField_isNone_iff l 4 lossPolicies r.lossPolicy (by decide), Encoder.updated_eq_none]
  have hlt : (∃ i < 4, Exceeds l (8 + i) 2 ∨ Exceeds l (12 + i) 32) ↔
      (((Exceeds l (8 + 0) 2 ∨ Exceeds l (12 + 0) 32) ∨ Exceeds l (8 + 1) 2 ∨ Exceeds l (12 + 1) 32) ∨
        Exceeds l (8 + 2) 2 ∨ Exceeds l (12 + 2) 32) ∨ Exceeds l (8 + 3) 2 ∨ Exceeds l (12 + 3) 32 := by
    constructor
    · rintro ⟨i, hi, h⟩
      interval_cases i
      · exact .inl (.inl (.inl h))
      · exact .inl (.inl (.inr h))
      · exact .inl (.inr h)
      · exact .inr h
    · rintro (((h | h) | h) | h)
      · exact ⟨0, by decide, h⟩
      · exact ⟨1, by decide, h⟩
      · exact ⟨2, by decide, h⟩
      · exact ⟨3, by decide, h⟩
  rw [hlt]
  simp only [or_assoc]
  rfl

/-- R100, R101: the record that a write of a panel leaves, field by field. -/
theorem Panel.updated_values {r q : Panel} {l : List FieldValue} (h : r.updated l = some q) :
    q = { r with
        configured := q.configured, port := q.port, node := q.node, ownStation := q.ownStation
        lossPolicy := q.lossPolicy, latchWindow := q.latchWindow, replyExpiry := q.replyExpiry, encoders := q.encoders } ∧
      (q.configured = true ↔ numberOf l 0 (if r.configured then 1 else 0) = 1) ∧
      q.port.val = numberOf l 1 r.port.val ∧ q.node.toNat = numberOf l 2 r.node.toNat ∧
      q.ownStation.val = numberOf l 3 r.ownStation.val ∧
      [LossPolicy.keepLatched, .dropAll, .keepAll].idxOf q.lossPolicy =
        numberOf l 4 ([LossPolicy.keepLatched, .dropAll, .keepAll].idxOf r.lossPolicy) ∧
      q.latchWindow = timeOf l 5 r.latchWindow 10 100 1000 ∧ q.replyExpiry = timeOf l 6 r.replyExpiry 1 2 60 := by
  obtain ⟨hc, hp, ⟨n, hn, hnode⟩, ho, hpol, hform⟩ := Panel.updated_fields h
  have hn63 : n ≤ 63 := numberField_le hn (by have := r.node.isLt; omega)
  have hnval : q.node.toNat = n := by
    rw [hnode, BitVec.toNat_ofNat]
    exact Nat.mod_eq_of_lt (by omega)
  have hlatch : q.latchWindow = timeField l 5 r.latchWindow 10 100 1000 := by rw [hform]
  have hexpiry : q.replyExpiry = timeField l 6 r.replyExpiry 1 2 60 := by rw [hform]
  refine ⟨?_, boolField_value hc, indexField_value hp, hnval.trans (numberField_value hn), indexField_value ho,
    enumField_value (by decide) hpol, ?_, ?_⟩
  · rw [hlatch, hexpiry]
    exact hform
  · rw [hlatch]
    exact timeField_value ..
  · rw [hexpiry]
    exact timeField_value ..

/-! ## The checks -/

/-- R100: the write names the panel's port, node or station. -/
def namesPlace (l : List FieldValue) : Prop := names l 1 = true ∨ names l 2 = true ∨ names l 3 = true

/-- R101: an encoder whose maximum is below its minimum. -/
def Panel.Crossed (r : Panel) : Prop := ∃ i, (tget r.encoders i).maximum < (tget r.encoders i).minimum

/-- R100: the panel is in use for the fields named. -/
def State.panelUsed (s : State) (p : PanelId) (l : List FieldValue) : Prop :=
  ((s.panel p).online = .online ∧ (names l 0 = true ∨ namesPlace l)) ∨
    ((s.panel p).online = .offline ∧ namesPlace l ∧ ∃ k, keyPanel k = p ∧ (s.key k).state.isOn = true)

/-- R100: another configured panel of the same port and node. -/
def State.panelDouble (s : State) (p : PanelId) (r : Panel) : Prop :=
  r.configured = true ∧ ∃ q, q ≠ p ∧ (s.panel q).configured = true ∧ (s.panel q).port = r.port ∧ (s.panel q).node = r.node

theorem crossed_iff (r : Panel) : (r.encoders.toList.any fun e => decide (e.maximum < e.minimum)) = true ↔ r.Crossed := by
  simp only [List.any_eq_true, decide_eq_true_eq, Vector.mem_toList_iff, Vector.mem_iff_getElem, Panel.Crossed, tget]
  constructor
  · rintro ⟨e, ⟨i, hi, rfl⟩, h⟩
    exact ⟨⟨i, hi⟩, h⟩
  · rintro ⟨i, h⟩
    exact ⟨_, ⟨i.val, i.isLt, rfl⟩, h⟩

open Classical in
theorem panelCheck_eq (s : State) (p : PanelId) (r : Panel) (l : List FieldValue) :
    s.panelCheck p r l =
      if r.Crossed then .badValue else if s.panelUsed p l then .inUse else if s.panelDouble p r then .duplicate else .ok := by
  have hplace : (names l 1 || names l 2 || names l 3) = true ↔ namesPlace l := by
    simp only [Bool.or_eq_true, namesPlace, or_assoc]
  have hon : ((panelKeys p).any fun k => (s.key k).state.isOn) = true ↔ ∃ k, keyPanel k = p ∧ (s.key k).state.isOn = true := by
    simp only [List.any_eq_true, mem_panelKeys]
  have hdouble : (r.configured = true ∧ ((allOf 48).any fun q =>
      q != p && (s.panel q).configured && (s.panel q).port == r.port && (s.panel q).node == r.node) = true) ↔
        s.panelDouble p r := by
    simp only [List.any_eq_true, Bool.and_eq_true, bne_iff_ne, beq_iff_eq, State.panelDouble, allOf, List.mem_finRange,
      true_and, and_assoc]
  unfold State.panelCheck
  by_cases hc : r.Crossed
  · rw [if_pos hc]
    exact if_pos ((crossed_iff r).2 hc)
  rw [if_neg hc]
  refine (if_neg fun h => hc ((crossed_iff r).1 h)).trans ?_
  by_cases hu : s.panelUsed p l
  · rw [if_pos hu]
    rcases hu with ⟨h1, h2⟩ | ⟨h1, h2, h3⟩
    · refine if_pos ⟨h1, ?_⟩
      rw [Bool.or_eq_true]
      exact h2.imp_right hplace.2
    · refine (if_neg fun h => ?_).trans (if_pos ⟨h1, hplace.2 h2, hon.2 h3⟩)
      rw [h1] at h
      cases h.1
  rw [if_neg hu]
  refine (if_neg fun ⟨h1, h2⟩ => hu (.inl ⟨h1, (Bool.or_eq_true_iff.1 h2).imp_right hplace.1⟩)).trans
    ((if_neg fun ⟨h1, h2, h3⟩ => hu (.inr ⟨h1, hplace.1 h2, hon.1 h3⟩)).trans ?_)
  by_cases hd : s.panelDouble p r
  · rw [if_pos hd]
    exact if_pos (hdouble.2 hd)
  · rw [if_neg hd]
    exact if_neg fun h => hd (hdouble.1 h)

end Sys2Proof.Machine
end

section
/-! PROOF. A loss policy does not read the panels' records but for their own stations (R100, R105): what it does to the
store, the keys, the arbiters, the parties and the events is the same beside other panel records. -/

namespace Sys2Proof.Machine

/-! ## States that differ in panel records and in the keys handed to the lamp unit -/

/-- t is s but for its panel records, whose own stations are those of s, and for the keys handed to the lamp unit. -/
structure Beside (s t : State) : Prop where
  rest : ∃ P D, t = { s with panels := P, lampDirty := D }
  own : ∀ p, (t.panel p).ownStation = (s.panel p).ownStation

namespace Beside

variable {s t : State}

theorem refl (s : State) : Beside s s := ⟨⟨s.panels, s.lampDirty, rfl⟩, fun _ => rfl⟩

/-- A change that writes other fields alike. -/
theorem map {f g : State → State} (h : Beside s t)
    (hf : ∀ P D, ∃ D', g { s with panels := P, lampDirty := D } = { f s with panels := P, lampDirty := D' })
    (hp : (f s).panels = s.panels) : Beside (f s) (g t) := by
  obtain ⟨⟨P, D, rfl⟩, hown⟩ := h
  obtain ⟨D', hg⟩ := hf P D
  rw [hg]
  exact ⟨⟨P, D', rfl⟩, fun p => (hown p).trans (congrArg (fun v => (tget v p).ownStation) hp.symm)⟩

theorem key (h : Beside s t) (k : KeyId) : t.key k = s.key k := by obtain ⟨⟨P, D, rfl⟩, -⟩ := h; rfl

theorem arbiter (h : Beside s t) (d : DestId) : t.arbiter d = s.arbiter d := by obtain ⟨⟨P, D, rfl⟩, -⟩ := h; rfl

theorem party (h : Beside s t) (p : PartyId) : t.party p = s.party p := by obtain ⟨⟨P, D, rfl⟩, -⟩ := h; rfl

theorem station (h : Beside s t) (x : StationId) : t.station x = s.station x := by obtain ⟨⟨P, D, rfl⟩, -⟩ := h; rfl

theorem findEntry (h : Beside s t) (a : SourceId) (d : DestId) : t.findEntry a d = s.findEntry a d := by
  obtain ⟨⟨P, D, rfl⟩, -⟩ := h; rfl

theorem hasRoom (h : Beside s t) (d : DestId) (n : Nat) : t.hasRoom d n = s.hasRoom d n := by
  obtain ⟨⟨P, D, rfl⟩, -⟩ := h; rfl

theorem satisfied (h : Beside s t) (r : Party) : t.satisfied r = s.satisfied r := by obtain ⟨⟨P, D, rfl⟩, -⟩ := h; rfl

theorem ownStation (h : Beside s t) (k : KeyId) : t.ownStation k = s.ownStation k := h.own _

theorem ownSource (h : Beside s t) (k : KeyId) : t.ownSource k = s.ownSource k := by
  unfold State.ownSource
  rw [h.ownStation, h.station]

theorem ownDest (h : Beside s t) (k : KeyId) : t.ownDest k = s.ownDest k := by
  unfold State.ownDest
  rw [h.ownStation, h.station]

theorem grantPair (h : Beside s t) (k : KeyId) : t.grantPair k = s.grantPair k := by
  unfold State.grantPair State.talkPair State.listenPair
  simp only [h.key, h.ownSource, h.ownDest, h.station]

theorem talkHeldElsewhere (h : Beside s t) (k : KeyId) (p : PartyId) :
    t.talkHeldElsewhere k p = s.talkHeldElsewhere k p := by
  unfold State.talkHeldElsewhere
  simp only [h.ownStation, h.key, h.own]

/-! ## The operations -/

theorem handKeys (h : Beside s t) (l m : List KeyId) : Beside (handKeys l s) (handKeys m t) :=
  h.map (f := Machine.handKeys l) (g := Machine.handKeys m) (fun _ _ => ⟨_, rfl⟩) rfl

theorem handKey (h : Beside s t) (k : KeyId) : Beside (handKey k s) (handKey k t) := h.handKeys _ _

theorem setKey (h : Beside s t) (k : KeyId) (r : Key) : Beside (s.setKey k r) (t.setKey k r) :=
  h.map (f := fun s => s.setKey k r) (g := fun s => s.setKey k r) (fun _ D => ⟨D, rfl⟩) rfl

theorem setArbiter (h : Beside s t) (d : DestId) (r : Arbiter) : Beside (s.setArbiter d r) (t.setArbiter d r) :=
  h.map (f := fun s => s.setArbiter d r) (g := fun s => s.setArbiter d r) (fun _ D => ⟨D, rfl⟩) rfl

theorem setParty (h : Beside s t) (p : PartyId) (r : Party) : Beside (s.setParty p r) (t.setParty p r) :=
  h.map (f := fun s => s.setParty p r) (g := fun s => s.setParty p r) (fun _ D => ⟨D, rfl⟩) rfl

theorem mapEntry (h : Beside s t) (a : SourceId) (d : DestId) (f : Entry → Entry) :
    Beside (s.mapEntry a d f) (t.mapEntry a d f) :=
  h.map (f := fun s => s.mapEntry a d f) (g := fun s => s.mapEntry a d f) (fun _ D => ⟨D, rfl⟩) rfl

theorem createEntry (h : Beside s t) (g : Holder) (l : Level) (c : EntryClass) (a : SourceId) (d : DestId) :
    Beside (createEntry g l c a d s) (createEntry g l c a d t) :=
  h.map (f := Machine.createEntry g l c a d) (g := Machine.createEntry g l c a d) (fun _ _ => ⟨_, rfl⟩) rfl

theorem raise (h : Beside s t) (k : EventKind) (i : Option Nat) : Beside (raise k i s) (raise k i t) := by
  refine h.map (f := Machine.raise k i) (g := Machine.raise k i) (fun P D => ⟨D, ?_⟩) (raise_touches k i s).panels
  let u : State := { s with panels := P, lampDirty := D }
  have hoffer : ∀ n, (u.setEvent k ((s.event k).raised i)).offerNotice n =
      { (s.setEvent k ((s.event k).raised i)).offerNotice n with panels := P, lampDirty := D } := fun n => by
    unfold State.offerNotice
    by_cases hl : s.notices.length < Config.noticeCap
    · exact (if_pos hl).trans (by rw [if_pos (by exact hl)]; rfl)
    · exact (if_neg hl).trans (by rw [if_neg (by exact hl)]; rfl)
  have hraise : ∀ v : State, Machine.raise k i v =
      if !(v.event k).isSet && (v.event k).enable && (v.event k).route.notices then
        (if v.timing.atBoundary then
          ((v.setEvent k ((v.event k).raised i)).offerNotice { kind := k, inst := i, period := v.noticePeriod }).drawn
        else (v.setEvent k ((v.event k).raised i)).offerNotice { kind := k, inst := i, period := v.noticePeriod })
      else v.setEvent k ((v.event k).raised i) := fun _ => rfl
  rw [hraise, hraise s]
  change (if !(s.event k).isSet && (s.event k).enable && (s.event k).route.notices then
      (if s.timing.atBoundary then
        ((u.setEvent k ((s.event k).raised i)).offerNotice { kind := k, inst := i, period := s.noticePeriod }).drawn
      else (u.setEvent k ((s.event k).raised i)).offerNotice { kind := k, inst := i, period := s.noticePeriod })
    else u.setEvent k ((s.event k).raised i)) = _
  rw [hoffer]
  split
  · split
    · rfl
    · rfl
  · rfl

theorem handEntry (h : Beside s t) (a : SourceId) (d : DestId) : Beside (handEntry a d s) (handEntry a d t) :=
  h.handKeys _ _

theorem arrive (h : Beside s t) (g : Holder) (l : Level) (c : EntryClass) (a : SourceId) (d : DestId) :
    Beside (arrive g l c a d s).1 (arrive g l c a d t).1 ∧ (Machine.arrive g l c a d t).2 = (Machine.arrive g l c a d s).2 := by
  unfold Machine.arrive
  rw [h.findEntry, h.hasRoom]
  split
  · split
    · exact ⟨h.createEntry g l c a d, rfl⟩
    · exact ⟨h, rfl⟩
  · split
    · exact ⟨h, rfl⟩
    · split
      · exact ⟨h, rfl⟩
      · refine ⟨?_, rfl⟩
        dsimp only
        split
        · exact (h.mapEntry a d _).handEntry a d
        · exact h.mapEntry a d _

theorem depart (h : Beside s t) (g : Holder) (a : SourceId) (d : DestId) :
    Beside (depart g a d s) (depart g a d t) := by
  unfold Machine.depart
  rw [h.findEntry]
  split
  · exact h
  · split
    · dsimp only
      split
      · exact (h.mapEntry a d _).handEntry a d
      · exact h.mapEntry a d _
    · exact h

theorem requestGrant (h : Beside s t) (k : KeyId) (a : SourceId) (d : DestId) :
    Beside (requestGrant k a d s).1 (requestGrant k a d t).1 ∧
      (Machine.requestGrant k a d t).2 = (Machine.requestGrant k a d s).2 := by
  unfold Machine.requestGrant
  rw [h.key]
  exact h.arrive _ _ _ a d

/-! ## The arbiters -/

theorem writeKey (h : Beside s t) (k : KeyId) (f : Key → Key) :
    Beside (Machine.handKey k (s.setKey k (f (s.key k)))) (Machine.handKey k (t.setKey k (f (t.key k)))) := by
  rw [h.key]
  exact (h.setKey k _).handKey k

theorem setStanding (h : Beside s t) (k : KeyId) (st : Standing) : Beside (setStanding k st s) (setStanding k st t) :=
  h.writeKey k fun r => { r with standing := st }

theorem startWink (h : Beside s t) (k : KeyId) : Beside (startWink k s) (startWink k t) := by
  have ha : t.after (ofMs winkMs) = s.after (ofMs winkMs) := by obtain ⟨⟨P, D, rfl⟩, -⟩ := h; rfl
  unfold Machine.startWink
  rw [ha]
  exact h.writeKey k fun r => { r with winkTimer := some (s.after (ofMs winkMs)) }

theorem dropKey (h : Beside s t) (k : KeyId) : Beside (dropKey k s) (dropKey k t) :=
  ((h.setStanding k .outside).startWink k).writeKey k fun r =>
    { r with latchTimer := none, state := if r.down then .refusedHeld else .idle }

theorem promote (d : DestId) (l : List Waiter) : ∀ {s t : State}, Beside s t → Beside (promote d l s) (promote d l t) := by
  induction l with
  | nil => exact fun h => h.setArbiter d _
  | cons w ws ih =>
    intro s t h
    unfold Machine.promote
    rw [h.ownSource]
    split
    · exact ih (h.dropKey w.key)
    · next a _ =>
      obtain ⟨h1, h2⟩ := h.requestGrant w.key a d
      dsimp only
      rw [h2]
      split
      · exact (h1.setArbiter d _).setStanding w.key .current
      · exact ih ((h1.raise _ _).dropKey w.key)

theorem withoutGrant (h : Beside s t) (k : KeyId) (d : DestId) : Beside (s.withoutGrant k d) (t.withoutGrant k d) := by
  unfold State.withoutGrant
  rw [h.ownSource]
  split
  · exact h.depart _ _ d
  · exact h

theorem leaveArbiter (h : Beside s t) (k : KeyId) : Beside (leaveArbiter k s) (leaveArbiter k t) := by
  unfold Machine.leaveArbiter
  rw [h.key]
  split
  · exact h
  · next d _ =>
    rw [h.arbiter]
    split
    · have h2 := (h.withoutGrant k d).setStanding k .outside
      change Beside
        (Machine.promote d ((Machine.setStanding k .outside (s.withoutGrant k d)).arbiter d).waiting
          (Machine.setStanding k .outside (s.withoutGrant k d)))
        (Machine.promote d ((Machine.setStanding k .outside (t.withoutGrant k d)).arbiter d).waiting
          (Machine.setStanding k .outside (t.withoutGrant k d)))
      rw [h2.arbiter]
      exact promote d _ h2
    · split
      · unfold waitingLeaves
        rw [h.arbiter]
        exact (h.setArbiter d _).setStanding k .outside
      · exact h

/-! ## The parties -/

theorem foldl {α : Type} {f g : State → α → State} (hf : ∀ {s t : State} x, Beside s t → Beside (f s x) (g t x))
    (l : List α) : ∀ {s t : State}, Beside s t → Beside (l.foldl f s) (l.foldl g t) := by
  induction l with
  | nil => exact id
  | cons x l ih => exact fun h => ih (hf x h)

theorem requestPair (h : Beside s t) (p : PartyId) (l : Level) (x : MemberPair) :
    Beside (requestPair p l s x) (requestPair p l t x) := by
  obtain ⟨h1, h2⟩ := h.arrive (.party p) l .talk x.source x.dest
  unfold Machine.requestPair
  dsimp only
  rw [h2]
  split
  · exact h1
  · exact h1.raise _ _

theorem changeParty (h : Beside s t) (p : PartyId) (r : Party) : Beside (changeParty p r s) (changeParty p r t) := by
  unfold Machine.changeParty withdrawPairs
  dsimp only
  rw [h.party, h.satisfied, h.satisfied]
  exact foldl (fun x h => h.requestPair p r.level x) _ (foldl (f := fun t (x : MemberPair) => Machine.depart (.party p) x.source x.dest t)
    (g := fun t (x : MemberPair) => Machine.depart (.party p) x.source x.dest t) (fun x h => h.depart _ _ _) _ (h.setParty p r))

theorem setTalk (h : Beside s t) (p : PartyId) (c : StationId) (on : Bool) : Beside (setTalk p c on s) (setTalk p c on t) := by
  unfold Machine.setTalk
  rw [h.party]
  split
  · exact h
  · split
    · exact h
    · exact (h.changeParty p _).handKeys _ _

/-! ## A key released, and a loss policy -/

theorem giveUp (h : Beside s t) (k : KeyId) : Beside (giveUp k s) (giveUp k t) := by
  have hgrant : Beside (surrenderGrant k s) (surrenderGrant k t) := by
    unfold surrenderGrant
    rw [h.grantPair]
    split
    · exact h.depart _ _ _
    · exact h
  unfold Machine.giveUp
  rw [h.key]
  split
  · exact h
  · exact hgrant
  · exact hgrant
  · exact hgrant.writeKey k fun r => { r with resolved := none }
  · unfold surrenderTalk
    rw [h.key]
    split
    · exact h
    · rw [h.talkHeldElsewhere, h.ownStation]
      split
      · exact h
      · exact h.setTalk _ _ _
  · exact h.leaveArbiter k
  · exact h

theorem lossRelease (h : Beside s t) (k : KeyId) : Beside (lossRelease k s) (lossRelease k t) := by
  unfold Machine.lossRelease
  rw [h.key]
  split
  · exact (h.giveUp k).writeKey k fun r => { r with state := .idle, latchTimer := none }
  · exact h.writeKey k fun r => { r with state := .idle, latchTimer := none }

theorem flushLamps_eq (s : State) : flushLamps s = { s with panels := (flushLamps s).panels, lampDirty := [] } := by
  have hfold : ∃ P, s.lampDirty.foldl (fun t k => markLamp k t) s = { s with panels := P } :=
    foldl_keeps (P := fun u : State => ∃ P, u = { s with panels := P }) (fun u k hu => by
      obtain ⟨P, rfl⟩ := hu
      unfold markLamp
      split
      · exact ⟨P, rfl⟩
      · exact ⟨_, rfl⟩) _ s ⟨s.panels, rfl⟩
  obtain ⟨P, hP⟩ := hfold
  unfold Machine.flushLamps
  rw [hP]

theorem flushLamps (h : Beside s t) : Beside (flushLamps s) (flushLamps t) := by
  have hs := flushLamps_eq s
  have ht := flushLamps_eq t
  refine ⟨⟨(Machine.flushLamps t).panels, [], ?_⟩, fun p => ?_⟩
  · obtain ⟨⟨P, D, rfl⟩, -⟩ := h
    rw [hs]
    exact ht
  · rw [flushLamps_panels t p, flushLamps_panels s p]
    exact h.own p

theorem applyPolicy (h : Beside s t) (pol : LossPolicy) (p : PanelId) : Beside (applyPolicy pol p s) (applyPolicy pol p t) :=
  foldl (fun {s t} k h => by
    rw [h.key]
    split
    · exact (h.lossRelease k).flushLamps
    · exact h) _ h

end Beside

end Sys2Proof.Machine
end

section
/-! PROOF. A panel unconfigured (R100, R105). -/

namespace Sys2Proof.Machine

/-! ## What a release leaves of the panels -/

theorem giveUp_panels (k : KeyId) (s : State) : (giveUp k s).panels = s.panels := by
  have hgrant : (surrenderGrant k s).panels = s.panels := (surrenderGrant_touches_held k s).panels
  unfold giveUp
  split
  · rfl
  · exact hgrant
  · exact hgrant
  · exact ((handKey_touches k _).panels.trans (setKey_touches _ k _).panels).trans hgrant
  · exact (surrenderTalk_touches k s).panels
  · exact (leaveArbiter_touches k s).panels
  · rfl

theorem lossRelease_panels (k : KeyId) (s : State) : (lossRelease k s).panels = s.panels := by
  unfold lossRelease
  split
  · exact (enterState_touches k .idle _).panels.trans (giveUp_panels k s)
  · exact (enterState_touches k .idle s).panels

theorem applyPolicy_panels (pol : LossPolicy) (p : PanelId) (s : State) : PanelsButLamps s (applyPolicy pol p s) :=
  foldl_keeps (P := PanelsButLamps s) (fun t k h => by
    split
    · exact h.trans (.trans (.of_panels (lossRelease_panels k t)) (flushLamps_panels _))
    · exact h) _ s (.of_panels rfl)

/-- With no key of the panel in an on state a loss policy gives nothing up. -/
theorem applyPolicy_off {pol : LossPolicy} {p : PanelId} {s : State}
    (h : ∀ k, keyPanel k = p → (s.key k).state.isOn = false) :
    Touches [.keys, .panels, .lampDirty] s (applyPolicy pol p s) := by
  have hfold : ∀ (l : List KeyId) (t : State), (∀ k ∈ l, keyPanel k = p) →
      (∀ k, keyPanel k = p → (t.key k).state.isOn = false) →
      Touches [.keys, .panels, .lampDirty] t
        (l.foldl (fun t k => if pol.releases (t.key k).state then flushLamps (lossRelease k t) else t) t) := by
    intro l
    induction l with
    | nil => exact fun t _ _ => .refl _ t
    | cons k l ih =>
      intro t hl ht
      rw [List.foldl_cons]
      have hrest : ∀ j ∈ l, keyPanel j = p := fun j hj => hl j (List.mem_cons_of_mem _ hj)
      split
      · have hoff : lossRelease k t = enterState k .idle t :=
          if_neg (by rw [ht k (hl k List.mem_cons_self)]; decide)
        have hu := (enterState_touches k .idle t).up.trans (flushLamps_touches (enterState k .idle t)).up
          (l := [.keys, .panels, .lampDirty])
        rw [hoff]
        refine hu.trans (ih _ hrest fun j hj => ?_)
        rw [(flushLamps_touches _).key j, enterState_key]
        split
        · rfl
        · exact ht j hj
      · exact ih t hrest ht
  exact hfold _ s (fun k hk => mem_panelKeys.1 hk) h

/-! ## The keys at rest -/

/-- A key's flag and timers put back, and its lamp OFF. -/
def Key.rested (r : Key) : Key := { r with down := false, winkTimer := none, latchTimer := none, lastLamp := .off }

@[simp] theorem Key.rested_state (r : Key) : r.rested.state = r.state := rfl

@[simp] theorem Key.rested_standing (r : Key) : r.rested.standing = r.standing := rfl

theorem restKeys_key (l : List KeyId) (s : State) (k : KeyId) :
    ((l.foldl (fun t k => restKey k t) s).key k) = if k ∈ l then (s.key k).rested else s.key k := by
  induction l generalizing s with
  | nil => simp
  | cons j l ih =>
    have hj : (restKey j s).key k = if k = j then (s.key j).rested else s.key k := State.key_setKey s j _ k
    rw [List.foldl_cons, ih, hj]
    by_cases hkj : k = j
    · subst hkj
      by_cases hl : k ∈ l
      · simp [hl, Key.rested]
      · simp [hl]
    · simp [hkj]

theorem restKeys_touches (l : List KeyId) (s : State) : Touches [.keys] s (l.foldl (fun t k => restKey k t) s) :=
  .foldl (fun t k => setKey_touches t k _) l s

/-! ## The panel unconfigured -/

/-- The panel's keys released and at rest, its reply list empty. -/
def State.emptiedPanel (s : State) (p : PanelId) : State :=
  flushLamps ((panelKeys p).foldl (fun t k => restKey k t) (emptyReplyList p (applyPolicy .dropAll p s)))

theorem unconfigure_eq (p : PanelId) (s : State) :
    unconfigure p s =
      (s.emptiedPanel p).setPanel p
        { (s.emptiedPanel p).panel p with
            configured := false, online := .unconfigured, silenceTimer := none, lampPending := 0
            cadencePending := false } := rfl

theorem emptiedPanel_touches (s : State) (p : PanelId) :
    Touches [.keys, .panels, .lampDirty] (applyPolicy .dropAll p s) (s.emptiedPanel p) :=
  ((emptyReplyList_touches p _).up.trans (restKeys_touches _ _).up).trans (flushLamps_touches _).up

theorem emptiedPanel_key (s : State) (p : PanelId) (k : KeyId) :
    (s.emptiedPanel p).key k =
      if keyPanel k = p then ((applyPolicy .dropAll p s).key k).rested else (applyPolicy .dropAll p s).key k := by
  unfold State.emptiedPanel
  rw [(flushLamps_touches _).key k, restKeys_key, (emptyReplyList_touches p _).key k]
  simp only [mem_panelKeys]

theorem emptiedPanel_panel (s : State) (p q : PanelId) :
    (s.emptiedPanel p).panel q =
      { s.panel q with
          replyList := if q = p then [] else (s.panel q).replyList
          lampPending := ((s.emptiedPanel p).panel q).lampPending } := by
  let u := applyPolicy .dropAll p s
  let v := (panelKeys p).foldl (fun t k => restKey k t) (emptyReplyList p u)
  have hv : v.panel q = if q = p then { u.panel p with replyList := [] } else u.panel q :=
    ((restKeys_touches _ _).panel q).trans
      (((handReply_touches p _).panel q).trans (State.panel_setPanel u p { u.panel p with replyList := [] } q))
  have hu : PanelsButLamps s u := applyPolicy_panels .dropAll p s
  have hw : (s.emptiedPanel p).panel q = _ := flushLamps_panels v q
  rw [hw, hv]
  by_cases hq : q = p
  · rw [if_pos hq, if_pos hq, hu p, hq]
  · rw [if_neg hq, if_neg hq, hu q]

theorem unconfigure_touches_rest (p : PanelId) (s : State) :
    Touches [.keys, .panels, .lampDirty] (applyPolicy .dropAll p s) (unconfigure p s) := by
  rw [unconfigure_eq]
  exact (emptiedPanel_touches s p).trans (setPanel_touches _ p _).up

theorem unconfigure_key (p : PanelId) (s : State) (k : KeyId) :
    (unconfigure p s).key k =
      if keyPanel k = p then ((applyPolicy .dropAll p s).key k).rested else (applyPolicy .dropAll p s).key k := by
  rw [unconfigure_eq, (setPanel_touches _ p _).key k]
  exact emptiedPanel_key s p k

theorem unconfigure_panel (p : PanelId) (s : State) (q : PanelId) :
    (unconfigure p s).panel q =
      if q = p then
        { s.panel p with
            configured := false, online := .unconfigured, replyList := [], silenceTimer := none, lampPending := 0
            cadencePending := false }
      else { s.panel q with lampPending := ((unconfigure p s).panel q).lampPending } := by
  have hset : (unconfigure p s).panel q = _ :=
    (congrArg (fun v : State => v.panel q) (unconfigure_eq p s)).trans (State.panel_setPanel (s.emptiedPanel p) p _ q)
  by_cases hq : q = p
  · rw [hset, if_pos hq, if_pos hq, emptiedPanel_panel, if_pos rfl]
  · have hkept : (unconfigure p s).panel q = (s.emptiedPanel p).panel q := hset.trans (if_neg hq)
    rw [if_neg hq, hkept]
    have h := emptiedPanel_panel s p q
    rw [if_neg hq] at h
    exact h

theorem unconfigure_settled (p : PanelId) (s : State) : (unconfigure p s).lampDirty = [] := rfl

/-- R105: DROP_ALL leaves every key of the panel IDLE, at no ear and without its grant. -/
theorem applyPolicy_dropAll {p : PanelId} {s : State} (hs : StoreInv s) (he : ArbiterInv s) {k : KeyId}
    (hk : keyPanel k = p) :
    ((applyPolicy .dropAll p s).key k).state = .idle ∧ ((applyPolicy .dropAll p s).key k).standing = .outside ∧
      (∀ d, ((applyPolicy .dropAll p s).arbiter d).current ≠ some k ∧
        ∀ w ∈ ((applyPolicy .dropAll p s).arbiter d).waiting, w.key ≠ k) ∧
      ∀ a b, s.grantPair k = some (a, b) → (applyPolicy .dropAll p s).Ungranted k a b := by
  have hears := arbiterInv_iff.1 he
  obtain ⟨hr, hd, -⟩ := (Releasing.start (due := fun k => keyPanel k = p ∧ (s.key k).state ≠ .idle) hs he).policy hears
    .dropAll (p := p) fun k hk hrel => ⟨hk, ((releases_iff _ _).1 hrel).1⟩
  by_cases hi : (s.key k).state = .idle
  · have hout : (s.key k).standing = .outside := hears.outside (.inr ⟨by rw [hi]; rfl, id⟩)
    have hsame : (applyPolicy .dropAll p s).key k = s.key k := hr.unreleased (fun h => h.2 hi) (by rw [hout]; exact nofun)
    have hstand : ((applyPolicy .dropAll p s).key k).standing = .outside := by rw [hsame]; exact hout
    refine ⟨by rw [hsame]; exact hi, hstand, hr.ears.nowhere hstand, fun a b hg => ?_⟩
    rw [grantPair_off (by rw [hi]; rfl) (by rw [hout]; exact nofun)] at hg
    cases hg
  · obtain ⟨h1, -, -, h4, h5⟩ := hd k hk ((releases_iff _ _).2 ⟨hi, .inl rfl⟩)
    exact ⟨h1, h4, hr.ears.nowhere h4, h5⟩

/-- R100, R105: every key of a panel unconfigured is IDLE, at no ear and without its grant. -/
theorem unconfigure_released {p : PanelId} {s : State} (hs : StoreInv s) (he : ArbiterInv s) {k : KeyId}
    (hk : keyPanel k = p) :
    ((unconfigure p s).key k).state = .idle ∧ ((unconfigure p s).key k).standing = .outside ∧
      (∀ d, ((unconfigure p s).arbiter d).current ≠ some k ∧
        ∀ w ∈ ((unconfigure p s).arbiter d).waiting, w.key ≠ k) ∧
      ∀ a b, s.grantPair k = some (a, b) → (unconfigure p s).Ungranted k a b := by
  obtain ⟨h1, h2, h3, h4⟩ := applyPolicy_dropAll hs he hk
  have hut := unconfigure_touches_rest p s
  have hkey := (unconfigure_key p s k).trans (if_pos hk)
  refine ⟨by rw [hkey, Key.rested_state, h1], by rw [hkey, Key.rested_standing, h2], fun d => ?_, fun a b hg => (h4 a b hg).of_touches hut⟩
  rw [hut.arbiter]
  exact h3 d

end Sys2Proof.Machine
end

section
/-! PROOF. PANEL_CONFIGURE, PANEL_UNCONFIGURE and PANEL_SETTINGS_WRITE settled (R100, R101). -/

namespace Sys2Proof.Machine

/-! ## The panels that a row's last work leaves as its write does -/

/-- A panel none of whose keys the write handed on keeps the record the write left. -/
theorem row_panel_kept {tn : TableName} {isRow : Nat → List FieldValue → Bool} {tag : Byte} {index : BitVec 16}
    {mask : BitVec 32} {values : List Byte} {s u t : State} {r : Result}
    (hs : WriteReady s tn tag index mask values) (hr : isRow index.toNat (writtenValues tn index mask values) = true)
    (hw : writeRecord tn index.toNat (writtenValues tn index mask values) (takeHead s) = (u, r))
    (ht : writeRow tn isRow tag index mask values s = .next t) {q : PanelId} (hq : ∀ k ∈ u.lampDirty, keyPanel k ≠ q) :
    t.panel q = u.panel q := by
  rw [writeRow_taken hr, order_taken hs.1.1, writeUnit_of_ok hs.2.1 hs.2.2, hw] at ht
  obtain ⟨v, hv, rfl⟩ : ∃ v, Touches [.replies, .draws] u v ∧ flushLamps v = t :=
    ⟨_, reply_touches _ _ _ _ _ _, by injection ht⟩
  exact (flushLamps_panel_other (by rw [hv.lampDirty]; exact hq)).trans (hv.panel q)

/-! ## The record stored -/

theorem storePanel_panel (p : PanelId) (r : Panel) (l : List FieldValue) (s : State) (q : PanelId) :
    (storePanel p r l s).panel q = if q = p then { r with configured := (s.panel p).configured } else s.panel q := by
  have h := State.panel_setPanel s p { r with configured := (s.panel p).configured } q
  unfold storePanel
  dsimp only
  split
  · exact ((handPanel_touches p _).panel q).trans h
  · exact h

theorem storePanel_dirty {p : PanelId} {r : Panel} {l : List FieldValue} {s : State} (hs : s.lampDirty = []) :
    ∀ k ∈ (storePanel p r l s).lampDirty, keyPanel k = p := by
  intro k hk
  unfold storePanel at hk
  dsimp only at hk
  split at hk
  · have hd : (handPanel p (s.setPanel p { r with configured := (s.panel p).configured })).lampDirty = panelKeys p := by
      change s.lampDirty ++ panelKeys p = _
      rw [hs]
      rfl
    rw [hd] at hk
    exact mem_panelKeys.1 hk
  · rw [(setPanel_touches s p _).lampDirty, hs] at hk
    cases hk

theorem writePanel_ok {p : PanelId} {l : List FieldValue} {s : State} {r : Panel}
    (hr : (s.panel p).updated l = some r) (hc : s.panelCheck p r l = .ok) :
    writePanel p l s = (configurePanel p (s.panel p).configured r.configured (storePanel p r l s), .ok) := by
  unfold writePanel; rw [hr]; dsimp only; rw [hc]

theorem writePanel_refused {p : PanelId} {l : List FieldValue} {s : State} {r : Panel} {e : Result}
    (hr : (s.panel p).updated l = some r) (hc : s.panelCheck p r l = e) (he : e ≠ .ok) : writePanel p l s = (s, e) := by
  unfold writePanel; rw [hr]; dsimp only; rw [hc]
  cases e with
  | ok => exact absurd rfl he
  | _ => rfl

theorem writePanel_unread {p : PanelId} {l : List FieldValue} {s : State} (hr : (s.panel p).updated l = none) :
    writePanel p l s = (s, .badValue) := by
  unfold writePanel; rw [hr]

/-- A field that the write does not name keeps its value. -/
theorem Panel.updated_station {r q : Panel} {l : List FieldValue} (h : r.updated l = some q) (hn : names l 3 = false) :
    q.ownStation = r.ownStation := by
  obtain ⟨-, -, -, ho, -⟩ := Panel.updated_fields h
  unfold indexField at ho
  cases hl : l.lookup 3 with
  | none =>
    simp only [hl, Option.some.injEq] at ho
    exact ho.symm
  | some v =>
    rw [names_of_lookup hl] at hn
    cases hn

theorem isOn_cases (st : KeyState) : st.isOn = true ↔ st = .pressed ∨ st = .momentaryOn ∨ st = .latched := by
  cases st <;> decide

/-! ## The panel unconfigured -/

theorem storePanel_eq (p : PanelId) (r : Panel) (l : List FieldValue) (s : State) :
    ∃ P D, storePanel p r l s = { s with panels := P, lampDirty := D } := by
  unfold storePanel
  dsimp only
  split
  · exact ⟨_, _, rfl⟩
  · exact ⟨_, _, rfl⟩

theorem Beside.fields {s t : State} (h : Beside s t) :
    t.entries = s.entries ∧ t.parties = s.parties ∧ t.arbiters = s.arbiters ∧ t.events = s.events := by
  obtain ⟨⟨P, D, rfl⟩, -⟩ := h
  exact ⟨rfl, rfl, rfl, rfl⟩

/-- What the unconfiguring of a panel reads of the write that stored its record. -/
theorem storePanel_unconfigured {p : PanelId} {r : Panel} {l : List FieldValue} {s : State}
    (hr : (s.panel p).updated l = some r) (hu : ¬s.panelUsed p l) (hon : (s.panel p).online ≠ .unconfigured)
    (hname : names l 0 = true) :
    let a := storePanel p r l s
    let u := applyPolicy .dropAll p a
    let v := applyPolicy .dropAll p s
    (u.entries = v.entries ∧ u.parties = v.parties ∧ u.arbiters = v.arbiters ∧ u.events = v.events) ∧
      (ArbiterInv s → ∀ k, keyPanel k = p → ∀ x, s.grantPair k = some x → a.grantPair k = some x) := by
  intro a u v
  have ha : Touches [.panels, .lampDirty] s a := storePanel_touches p r l s
  have hoff : (s.panel p).online = .offline := by
    cases h : (s.panel p).online with
    | unconfigured => exact absurd h hon
    | offline => rfl
    | online => exact absurd (.inl ⟨h, .inl hname⟩) hu
  by_cases h3 : names l 3 = true
  · have hkeys : ∀ k, keyPanel k = p → (s.key k).state.isOn = false := fun k hk =>
      eq_false_of_ne_true fun h => hu (.inr ⟨hoff, .inr (.inr h3), k, hk, h⟩)
    have hv : Touches [.keys, .panels, .lampDirty] s v := applyPolicy_off hkeys
    have hau : Touches [.keys, .panels, .lampDirty] a u := applyPolicy_off fun k hk => by rw [ha.key]; exact hkeys k hk
    refine ⟨⟨?_, ?_, ?_, ?_⟩, fun he k hk x hx => ?_⟩
    · rw [hau.entries, ha.entries, hv.entries]
    · rw [hau.parties, ha.parties, hv.parties]
    · rw [hau.arbiters, ha.arbiters, hv.arbiters]
    · rw [hau.events, ha.events, hv.events]
    · have hout := (arbiterInv_iff.1 he).outside (k := k) (.inr ⟨hkeys k hk, id⟩)
      rw [grantPair_off (hkeys k hk) (by rw [hout]; exact nofun)] at hx
      cases hx
  · have hown : ∀ q, (a.panel q).ownStation = (s.panel q).ownStation := fun q => by
      rw [show a.panel q = _ from storePanel_panel p r l s q]
      split
      · next hq =>
        rw [hq]
        exact (Panel.updated_station hr (eq_false_of_ne_true h3) : r.ownStation = _)
      · rfl
    have hbeside : Beside s a := ⟨storePanel_eq p r l s, hown⟩
    exact ⟨(hbeside.applyPolicy .dropAll p).fields, fun _ k _ x hx => (hbeside.grantPair k).trans hx⟩

/-- A write of a panel that its row has stored in u: the row's panel reads as u has it, and no other panel changes. -/
theorem row_panel_stored {isRow : Nat → List FieldValue → Bool} {tag : Byte} {index : BitVec 16} {mask : BitVec 32}
    {values : List Byte} {p : PanelId} {s u : State} {r : Panel}
    (hs : WriteReady s .panel tag index mask values)
    (hr : isRow index.toNat (writtenValues .panel index mask values) = true)
    (hw : writeRecord .panel index.toNat (writtenValues .panel index mask values) (takeHead s) = (u, .ok))
    (hu : Touches [.panels, .lampDirty] (takeHead s) u) (hdirty : ∀ k ∈ u.lampDirty, keyPanel k = p)
    (hp : ∀ q, u.panel q = if q = p then r else s.panel q) :
    ∃ t, writeRow .panel isRow tag index mask values s = .next t ∧ Wrote s t .panel tag index .ok [.panels] ∧
      t.panel p = { r with lampPending := (t.panel p).lampPending } ∧ ∀ q, q ≠ p → t.panel q = s.panel q := by
  obtain ⟨t, ht, hans, -, h2⟩ := row_wrote (l := [.panels]) hs hr hw hu.up
  refine ⟨t, ht, hans.mono (by decide), ?_, fun q hq => ?_⟩
  · have h := h2 p
    rw [hp, if_pos rfl] at h
    exact h
  · have h := row_panel_kept hs hr hw ht (q := q) fun k hk he => hq (he.symm.trans (hdirty k hk))
    rw [hp, if_neg hq] at h
    exact h

/-- Settles O40. -/
theorem panelWritesTakeEffect : Obligations.PanelWritesTakeEffect := by
  intro tag index mask values p s hs hi l rows c hrow refused old policies modes targetCode
  obtain ⟨isRow, hr, hc⟩ : ∃ isRow, isRow index.toNat l = true ∧
      exec c s = writeRow .panel isRow tag index mask values s := by
    simp only [rows, List.mem_cons, List.not_mem_nil, or_false, Prod.mk.injEq] at hrow
    rcases hrow with ⟨rfl, h⟩ | ⟨rfl, h⟩ | ⟨rfl, h⟩
    all_goals exact ⟨_, h.symm, rfl⟩
  have hrec : writeRecord .panel index.toNat l (takeHead s) = writePanel p l (takeHead s) := atIndex_val hi _ _
  have hrefuse : ∀ r, writePanel p l (takeHead s) = (takeHead s, r) → refused r := fun r hw => by
    obtain ⟨t, ht, h⟩ := row_refused (isRow := isRow) hs hr (hrec.trans hw)
    exact ⟨t, hc.trans ht, h⟩
  refine ⟨Panel.updated_eq_none old l, fun hnone => hrefuse _ (writePanel_unread hnone), fun r hupd => ⟨?_, ?_⟩⟩
  · obtain ⟨h1, h2, h3, h4, h5, h6, h7, h8⟩ := Panel.updated_values hupd
    exact ⟨h1, h2, h3, h4, h5, h6, h7, h8, fun i => Encoder.updated_values (Panel.updated_encoders hupd i)⟩
  intro place crossed used double
  have hbase : ((takeHead s).panel p).updated l = some r := hupd
  have hcheck : (takeHead s).panelCheck p r l = _ := panelCheck_eq (takeHead s) p r l
  have hused : (takeHead s).panelUsed p l ↔ used := by
    simp only [State.panelUsed, isOn_cases]
    rfl
  refine ⟨fun h => hrefuse _ (writePanel_refused hbase (hcheck.trans (if_pos h)) (by decide)), fun h hu => ?_,
    fun h hu hd => ?_, fun h hu hd => ?_⟩
  · exact hrefuse _ (writePanel_refused hbase (hcheck.trans ((if_neg h).trans (if_pos (hused.2 hu)))) (by decide))
  · exact hrefuse _ (writePanel_refused hbase
      (hcheck.trans ((if_neg h).trans ((if_neg (hused.not.2 hu)).trans (if_pos hd)))) (by decide))
  have hok : (takeHead s).panelCheck p r l = .ok :=
    hcheck.trans ((if_neg h).trans ((if_neg (hused.not.2 hu)).trans (if_neg hd)))
  have hwrite := hrec.trans (writePanel_ok hbase hok)
  have hstored : ∀ q, (storePanel p r l (takeHead s)).panel q =
      if q = p then { r with configured := old.configured } else s.panel q := storePanel_panel p r l (takeHead s)
  have hdirty : ∀ k ∈ (storePanel p r l (takeHead s)).lampDirty, keyPanel k = p := storePanel_dirty hs.1.2.1
  have hset : Touches [.panels, .lampDirty] (takeHead s) (storePanel p r l (takeHead s)) := storePanel_touches p r l _
  have hkept := fun hon => storePanel_unconfigured (s := takeHead s) hbase (hused.not.2 hu) hon
  generalize storePanel p r l (takeHead s) = a at hwrite hstored hdirty hset hkept
  refine ⟨fun hoff hon => ?_, fun hsame => ?_, fun hon hoff => ?_⟩
  · rw [show ((takeHead s).panel p).configured = false from hoff, hon] at hwrite
    have hpa : ∀ q, (a.setPanel p { a.panel p with configured := true, online := .offline }).panel q =
        if q = p then { r with configured := true, online := .offline } else s.panel q := fun q => by
      rw [State.panel_setPanel, hstored, if_pos rfl, hstored]
      split
      · rfl
      · rfl
    obtain ⟨t, ht, h⟩ := row_panel_stored hs hr hwrite (hset.trans (setPanel_touches _ p _).up) hdirty hpa
    exact ⟨t, hc.trans ht, h⟩
  · have hsame' : ((takeHead s).panel p).configured = r.configured := hsame.symm
    have hconf : configurePanel p r.configured r.configured a = a := by cases r.configured <;> rfl
    rw [hsame', hconf] at hwrite
    have hpa : ∀ q, a.panel q = if q = p then r else s.panel q := fun q => by
      rw [hstored, ← hsame]
    obtain ⟨t, ht, h⟩ := row_panel_stored hs hr hwrite hset hdirty hpa
    exact ⟨t, hc.trans ht, h⟩
  · rw [show ((takeHead s).panel p).configured = true from hon, hoff] at hwrite
    change writeRecord .panel index.toNat l (takeHead s) = (unconfigure p a, .ok) at hwrite
    have hun := unconfigure_touches p a
    obtain ⟨t, ht, hans, h1, h2⟩ := row_wrote (l := keyFields) hs hr hwrite (hset.up.trans hun.up)
    have hname : names l 0 = true := by
      have he := (Panel.updated_fields hupd).1
      by_contra hn
      have hnone : l.lookup 0 = none := by
        by_contra hl
        obtain ⟨v, hv⟩ := Option.ne_none_iff_exists'.1 hl
        exact hn (names_of_lookup hv)
      simp only [boolField, hnone, Option.some.injEq] at he
      rw [hoff, hon] at he
      cases he
    have hself : t.panel p = (unconfigure p a).panel p :=
      row_panel_kept hs hr hwrite ht fun k hk => by rw [unconfigure_settled] at hk; cases hk
    have hpanel := unconfigure_panel p a
    refine ⟨t, hc.trans ht, hans.mono (by decide), ?_, fun q hq => ?_, fun k hk => ?_, fun hst he hne k hk => ?_,
      fun hne => ?_⟩
    · rw [hself, hpanel, if_pos rfl, hstored, if_pos rfl]
    · have h := h2 q
      have hq' := hpanel q
      rw [if_neg hq, hstored, if_neg hq] at hq'
      rw [h, hq']
    · rw [h1.key, unconfigure_key, if_pos hk]
      exact ⟨rfl, rfl, rfl, rfl⟩
    · have hsta : StoreInv a := StoreInv.of_same (s := s) hset.entries hset.nextSerial hst
      have hea : ArbiterInv a := arbiterInv_iff.2 ((arbiterInv_iff.1 he).of_touches ((takeHead_touches s).up.trans hset.up)
        (l := [.orders, .lastUnit, .unitTaken, .panels, .lampDirty]))
      obtain ⟨g1, g2, g3, g4⟩ := unconfigure_released hsta hea hk
      refine ⟨by rw [h1.key]; exact g1, by rw [h1.key]; exact g2, fun d => by rw [h1.arbiter]; exact g3 d,
        fun a' b hg => ?_⟩
      have hga : a.grantPair k = some (a', b) := (hkept hne hname).2 he k hk _ hg
      exact ungranted_iff.1 ((g4 a' b hga).of_touches h1)
    · obtain ⟨⟨e1, e2, e3, e4⟩, -⟩ := hkept hne hname
      have hrest := unconfigure_touches_rest p a
      exact ⟨(h1.entries.trans hrest.entries).trans e1, (h1.parties.trans hrest.parties).trans e2,
        (h1.arbiters.trans hrest.arbiters).trans e3, (h1.events.trans hrest.events).trans e4⟩

end Sys2Proof.Machine
end

section
/-! PROOF. What the assembly of the ports at a boundary leaves of the keys, the panels, the arbiters and the events. -/

namespace Sys2Proof.Machine

/-- The kinds that an assembly may raise. -/
abbrev MixEvent (k : EventKind) : Prop := k = .clip ∨ k = .probeLost

/-- From s to t lanes are filled and destinations mixed: of a key only its last-sent lamp may differ, of a panel only what
of it is to be sent. -/
structure LaneAside (s t : State) : Prop where
  keys : ∀ k, t.key k = { s.key k with lastLamp := (t.key k).lastLamp }
  panels : ∀ p, t.panel p =
    { s.panel p with lampPending := (t.panel p).lampPending, cadencePending := (t.panel p).cadencePending }
  ears : ArbiterInv s → ArbiterInv t
  rises : EventsRise MixEvent s t

namespace LaneAside

theorem refl (s : State) : LaneAside s s := ⟨fun _ => rfl, fun _ => rfl, id, .refl _ s⟩

theorem trans {s t u : State} (h : LaneAside s t) (g : LaneAside t u) : LaneAside s u where
  keys k := by rw [g.keys k, h.keys k]
  panels p := by rw [g.panels p, h.panels p]
  ears he := g.ears (h.ears he)
  rises := h.rises.trans g.rises

theorem foldl {α : Type} {f : State → α → State} (h : ∀ t x, LaneAside t (f t x)) (l : List α) (s : State) :
    LaneAside s (l.foldl f s) :=
  foldl_keeps (P := LaneAside s) (fun t x ht => ht.trans (h t x)) l s (.refl s)

theorem of_touches {l : List Fld} {s t : State} (h : Touches l s t)
    (hl : [Fld.keys, .panels, .arbiters].all (fun f => !l.contains f) = true) (hr : EventsRise MixEvent s t) :
    LaneAside s t := by
  have hn : ∀ f ∈ [Fld.keys, .panels, .arbiters], f ∉ l := fun f hf hm => by
    have := List.all_eq_true.1 hl f hf
    rw [List.contains_iff_mem.2 hm] at this
    cases this
  have hk := hn .keys (by decide)
  have hp := hn .panels (by decide)
  have ha := hn .arbiters (by decide)
  exact ⟨fun k => by rw [h.key k hk], fun p => by rw [h.panel p hp],
    fun he => arbiterInv_iff.2 ((arbiterInv_iff.1 he).of_touches h hk ha), hr⟩

theorem quiet {l : List Fld} {s t : State} (h : Touches l s t)
    (hl : [Fld.keys, .panels, .arbiters, .events, .notices].all (fun f => !l.contains f) = true) : LaneAside s t := by
  have hn : ∀ f ∈ [Fld.keys, .panels, .arbiters, .events, .notices], f ∉ l := fun f hf hm => by
    have := List.all_eq_true.1 hl f hf
    rw [List.contains_iff_mem.2 hm] at this
    cases this
  refine of_touches h (List.all_eq_true.2 fun f hf => List.all_eq_true.1 hl f ?_)
    (.of_touches h (hn _ (by decide)) (hn _ (by decide)))
  simp only [List.mem_cons, List.not_mem_nil, or_false] at hf ⊢
  tauto

/-- What is to be sent of a panel written. -/
theorem setPanel {s : State} {p : PanelId} {r : Panel}
    (h : r = { s.panel p with lampPending := r.lampPending, cadencePending := r.cadencePending }) :
    LaneAside s (s.setPanel p r) where
  keys _ := rfl
  panels q := by
    rw [State.panel_setPanel]
    split
    · next hq => rw [hq]; exact h
    · rfl
  ears he := arbiterInv_iff.2 ((arbiterInv_iff.1 he).of_touches (setPanel_touches s p r))
  rises := .of_touches (setPanel_touches s p r)

theorem flushLamps (s : State) : LaneAside s (flushLamps s) where
  keys k := by rw [(flushLamps_touches s).key k]
  panels p := by rw [flushLamps_panels s p]
  ears he := arbiterInv_iff.2 (arbiterInv_iff.1 he).flushLamps
  rises := .of_touches (flushLamps_touches s)

/-! ## The lane -/

theorem setKeyLamp (s : State) (k : KeyId) (x : LampState) : LaneAside s (s.setKey k { s.key k with lastLamp := x }) where
  keys j := by
    rw [State.key_setKey]
    split
    · next hj => rw [hj]
    · rfl
  panels _ := rfl
  ears he := arbiterInv_iff.2 ((arbiterInv_iff.1 he).setKey_alike rfl rfl rfl rfl rfl)
  rises := .of_touches (setKey_touches s k _)

theorem carryLamp (p : PanelId) (s : State) (x : Fin 32 × LampState) : LaneAside s (carryLamp p s x) :=
  (setPanel rfl).trans (setKeyLamp _ _ _)

theorem drawn (s : State) : LaneAside s s.drawn := quiet (drawn_touches s) (by decide)

theorem lampCell {x : PortId} {s t : State} {c : List Byte} (h : Machine.lampCell x s = some (c, t)) : LaneAside s t := by
  unfold Machine.lampCell at h
  split at h
  · cases h
  · next p _ =>
    have hpos : LaneAside s (s.setLampPosition x (some p)) := quiet (setLampPosition_touches s x _) (by decide)
    dsimp only at h
    split at h
    · cases h
      exact (hpos.trans (setPanel (s := s.setLampPosition x (some p)) (p := p) rfl)).trans (drawn _)
    · cases h
      exact (hpos.trans (foldl (fun t y => carryLamp p t y) _ _)).trans (drawn _)

theorem placeLamps (x : PortId) (room : Nat) (s : State) : LaneAside s (placeLamps x room s).2 := by
  induction room generalizing s with
  | zero => exact refl s
  | succ room ih =>
    cases h : Machine.lampCell x s with
    | none =>
      rw [placeLamps_stops (.inr h)]
      exact refl s
    | some ct =>
      obtain ⟨c, t⟩ := ct
      rw [placeLamps_succ h]
      exact (lampCell h).trans (ih t)

theorem declareLost (c : CircuitId) (s : State) : LaneAside s (declareLost c s) := by
  refine of_touches (declareLost_touches c s) (by decide) ?_
  by_cases h : (s.circuit c).lostInARow = 2
  · rw [declareLost_third h]
    exact (EventsRise.of_touches (setCircuit_touches s c _)).trans
      (.raise (K := MixEvent) (k := .probeLost) (.inr rfl) _ _)
  · rw [declareLost_other h]
    exact .of_touches (setCircuit_touches s c _)

theorem departProbe (c : CircuitId) (sent : Count) (s : State) : LaneAside s (departProbe c sent s) := by
  rcases Nat.lt_or_ge (s.circuit c).outstanding.length 4 with h | h
  · rw [departProbe_open h]
    exact quiet (setCircuit_touches _ _ _) (by decide)
  · rw [departProbe_full h]
    exact (declareLost c s).trans (quiet (setCircuit_touches _ _ _) (by decide))

theorem placeProbes (x : PortId) (sent : Count) (room : Nat) (s : State) : LaneAside s (placeProbes x sent room s).2 := by
  induction room generalizing s with
  | zero => exact refl s
  | succ room ih =>
    cases hq : s.probeQueue x with
    | nil =>
      rw [placeProbes_stops (.inr hq)]
      exact refl s
    | cons c rest =>
      rw [placeProbes_succ hq]
      exact (((quiet (setProbeQueue_touches s x rest) (by decide)).trans (departProbe c sent _)).trans (drawn _)).trans
        (ih _)

theorem placeNotices (room : Nat) (s : State) : LaneAside s (placeNotices room s).2 := by
  refine of_touches (placeNotices_touches room s) (by decide)
    (.of_events (placeNotices_touches room s).events fun h => ?_)
  rw [(placeNotices_queue room s).2.1, List.length_drop]
  omega

theorem hosted (host : Bool) (place : Nat → State → List (List Byte) × State) (room : Nat) (s : State)
    (h : LaneAside s (place room s).2) : LaneAside s (if host then place room s else ([], s)).2 := by
  cases host
  · exact refl s
  · exact h

theorem fillLane (x : PortId) (sent : Count) (s : State) : LaneAside s (fillLane x sent s).2 := by
  unfold Machine.fillLane
  refine .trans ?_ (placeLamps x _ _)
  refine .trans ?_ (hosted _ Machine.placeNotices _ _ (placeNotices _ _))
  refine .trans ?_ (hosted _ placeReplies _ _ (quiet (placeReplies_touches _ _) (by decide)))
  exact .trans (placeProbes x sent _ s) (placeLamps x _ _)

/-! ## One port, and all -/

theorem assembleDest (before : State) (d : DestId) (s : State) : LaneAside s (assembleDest before d s) := by
  refine .trans (quiet (closeDest_touches before d s) (by decide)) ?_
  refine of_touches (assembleDest_touches_clip before d s) (by decide) ?_
  have hclip : ∀ (n : Nat) (u : State), EventsRise MixEvent u (if n = 0 then u else raise .clip (some d.val) u) := by
    intro n u
    split
    · exact .refl _ u
    · exact .raise (K := MixEvent) (k := .clip) (.inl rfl) _ u
  exact hclip _ _

theorem assemblePort (before s : State) (x : PortId) : LaneAside s (assemblePort before s x) := by
  have hmix : LaneAside s (mixedPort before s x) :=
    (foldl (fun t d => assembleDest before d t) (portDests x) s).trans (flushLamps _)
  rw [assemblePort_eq]
  split
  · exact hmix.trans (quiet (unsent_touches _ x) (by decide))
  · exact (hmix.trans (fillLane x _ _)).trans (quiet (sendFrame_touches_lane x _) (by decide))

theorem assembleAll (before : State) (l : List PortId) (s : State) : LaneAside s (assembleAll before l s) :=
  foldl (fun t x => assemblePort before t x) l s

end LaneAside

end Sys2Proof.Machine
end

section
/-! PROOF. The closing of a period at the ports, one after another (R9 to R12). -/

namespace Sys2Proof.Machine

/-! ## One port's close -/

/-- R10: the port's state moves at the close of the period. -/
def State.closes (s : State) (x : PortId) : Prop := (s.port x).state.carries = true ∧ (s.port x).settling = false

/-- R10: the eighth miss. -/
def State.loses (s : State) (x : PortId) : Prop :=
  s.closes x ∧ s.closesWithFrame x = false ∧ 7 ≤ (s.port x).missCount

/-- R10: the return from HOLDOVER. -/
def State.returns (s : State) (x : PortId) : Prop :=
  s.closes x ∧ s.closesWithFrame x = true ∧ (s.port x).state = .holdover

theorem State.loses_not_returns {s : State} {x : PortId} (h : s.loses x) : ¬s.returns x := fun g => by
  have hf := g.2.1
  rw [h.2.1] at hf
  cases hf

/-- A port whose link is neither lost nor back: its close writes its own record and its sources'. -/
theorem closePort_quiet {s : State} {x : PortId} (hl : ¬s.loses x) (hr : ¬s.returns x) :
    Touches [.ports, .sources] s (closePort s x) := by
  have hs := reportSources_touches x (s.closesWithFrame x) s
  have hp : (reportSources x (s.closesWithFrame x) s).port x = s.port x := congrArg (tget · x) hs.ports
  rw [closePort_eq]
  dsimp only
  by_cases hc : (s.port x).state.carries = false
  · rw [if_pos hc]
    exact hs.up
  rw [if_neg hc]
  by_cases hset : (s.port x).settling = true
  · rw [if_pos hset]
    exact hs.up.trans (setPort_touches _ x _).up
  rw [if_neg hset]
  have hcl : s.closes x := ⟨eq_true_of_ne_false hc, eq_false_of_ne_true hset⟩
  refine hs.up.trans ?_
  unfold closeState
  dsimp only
  rw [hp]
  cases hf : s.closesWithFrame x with
  | true =>
    rw [if_pos rfl, if_neg fun h => hr ⟨hcl, hf, h⟩]
    exact (setPort_touches _ x _).up
  | false =>
    rw [if_neg Bool.false_ne_true, if_pos]
    · exact (setPort_touches _ x _).up
    · by_contra hm
      exact hl ⟨hcl, hf, by omega⟩

theorem closePort_returns {s : State} {x : PortId} (h : s.returns x) :
    ∃ v, Touches [.ports, .sources] s v ∧ closePort s x = linkBack x v := by
  obtain ⟨⟨hc, hset⟩, hf, hh⟩ := h
  have hs := reportSources_touches x (s.closesWithFrame x) s
  have hp : (reportSources x (s.closesWithFrame x) s).port x = s.port x := congrArg (tget · x) hs.ports
  refine ⟨(reportSources x (s.closesWithFrame x) s).setPort x { s.port x with missCount := 0, state := .up },
    hs.up.trans (setPort_touches _ x _).up, ?_⟩
  rw [closePort_eq]
  dsimp only
  rw [if_neg (by rw [hc]; decide), if_neg (by rw [hset]; decide)]
  unfold closeState
  dsimp only
  rw [hp, if_pos hf, if_pos hh]
  rfl

theorem closePort_loses {s : State} {x : PortId} (h : s.loses x) :
    ∃ v, Touches [.sources] s v ∧ closePort s x = losePort x .down v := by
  obtain ⟨⟨hc, hset⟩, hf, hm⟩ := h
  have hs := reportSources_touches x (s.closesWithFrame x) s
  have hp : (reportSources x (s.closesWithFrame x) s).port x = s.port x := congrArg (tget · x) hs.ports
  refine ⟨reportSources x (s.closesWithFrame x) s, hs, ?_⟩
  rw [closePort_eq]
  dsimp only
  rw [if_neg (by rw [hc]; decide), if_neg (by rw [hset]; decide)]
  unfold closeState
  dsimp only
  rw [hp, if_neg (by rw [hf]; decide), if_neg (by omega)]

/-- R9: the sources' report, whatever the port's state does. -/
theorem closePort_sources (s : State) (x : PortId) :
    (closePort s x).sources = (reportSources x (s.closesWithFrame x) s).sources := by
  rw [closePort_eq]
  dsimp only
  split
  · rfl
  · split
    · exact (setPort_touches _ x _).sources
    · exact (closeState_touches x _ _).sources

theorem closePort_source (s : State) (x : PortId) (n : SourceId) :
    (closePort s x).source n =
      if portOf n = x then (s.source n).reported (s.closesWithFrame x) else s.source n := by
  have h : (closePort s x).source n = (reportSources x (s.closesWithFrame x) s).source n :=
    congrArg (tget · n) (closePort_sources s x)
  rw [h]
  have hfold : ∀ (l : List (Fin 64)) (t : State), l.Nodup →
      (l.foldl (fun t i => t.setSource (slotNumber x i) ((t.source (slotNumber x i)).reported (s.closesWithFrame x))) t).source n =
        if n ∈ l.map (slotNumber x) then (t.source n).reported (s.closesWithFrame x) else t.source n := by
    intro l
    induction l with
    | nil => intro t _; rfl
    | cons i l ih =>
      intro t hn
      obtain ⟨hi, hn⟩ := List.nodup_cons.1 hn
      rw [List.foldl_cons, ih _ hn, State.source_setSource]
      by_cases hni : n = slotNumber x i
      · have hnot : n ∉ l.map (slotNumber x) := by
          rw [hni]
          intro hm
          obtain ⟨j, hj, he⟩ := List.mem_map.1 hm
          have : j = i := by
            have := congrArg Fin.val he
            simp only [slotNumber] at this
            exact Fin.ext (by omega)
          exact hi (this ▸ hj)
        rw [if_neg hnot, if_pos hni, List.map_cons, if_pos (List.mem_cons.2 (.inl hni)), hni]
      · rw [if_neg hni, List.map_cons]
        by_cases hm : n ∈ l.map (slotNumber x)
        · rw [if_pos hm, if_pos (List.mem_cons_of_mem _ hm)]
        · rw [if_neg hm, if_neg fun hc => (List.mem_cons.1 hc).elim hni hm]
  refine (hfold (allOf 64) s (allOf_nodup 64)).trans ?_
  have hmem : n ∈ (allOf 64).map (slotNumber x) ↔ portOf n = x := mem_portDests
  by_cases hx : portOf n = x
  · rw [if_pos (hmem.2 hx), if_pos hx]
  · rw [if_neg fun hc => hx (hmem.1 hc), if_neg hx]

/-! ## All ports -/

/-- What a port that has not closed yet reads is as it was before any closed. -/
theorem closing_congr {a t : State} {x : PortId} (hp : t.port x = a.port x) (ht : Touches closeFields a t) :
    (t.closes x ↔ a.closes x) ∧ t.closesWithFrame x = a.closesWithFrame x ∧ (t.loses x ↔ a.loses x) ∧
      (t.returns x ↔ a.returns x) := by
  obtain ⟨hperiod, -, -, hpos⟩ := ht .clock (by decide)
  have hf : t.closesWithFrame x = a.closesWithFrame x := by
    unfold State.closesWithFrame
    rw [hp, hperiod, hpos]
  have hc : t.closes x ↔ a.closes x := by
    unfold State.closes
    rw [hp]
  unfold State.loses State.returns
  rw [hf, hp, hc]
  exact ⟨Iff.rfl, rfl, Iff.rfl, Iff.rfl⟩

/-- A property of the closing of the ports, by the ports that have closed. -/
theorem closePorts_induction {a : State} {P : List PortId → State → Prop} (h0 : P [] a)
    (hs : ∀ l x t, x ∉ l → t.port x = a.port x → Touches closeFields a t → P l t → P (x :: l) (closePort t x)) :
    ∃ l, (∀ x, x ∈ l) ∧ P l ((allOf 4).foldl closePort a) := by
  have hfold : ∀ (m l : List PortId) (t : State), m.Nodup → (∀ x ∈ m, x ∉ l) → (∀ x ∈ m, t.port x = a.port x) →
      Touches closeFields a t → P l t → ∃ k, (∀ x, x ∈ m ∨ x ∈ l → x ∈ k) ∧ P k (m.foldl closePort t) := by
    intro m
    induction m with
    | nil => exact fun l t _ _ _ _ h => ⟨l, fun x hx => hx.resolve_left nofun, h⟩
    | cons x m ih =>
      intro l t hn hl hp ht h
      obtain ⟨hx, hn⟩ := List.nodup_cons.1 hn
      obtain ⟨k, hk, hP⟩ := ih (x :: l) (closePort t x) hn
        (fun y hy hyl => (List.mem_cons.1 hyl).elim (fun he => hx (he ▸ hy)) (hl y (List.mem_cons_of_mem _ hy)))
        (fun y hy => by
          have hyx : y ≠ x := fun he => hx (he ▸ hy)
          rw [closePort_port, if_neg hyx]
          exact hp y (List.mem_cons_of_mem _ hy))
        (ht.trans (closePort_touches t x).up)
        (hs l x t (hl x List.mem_cons_self) (hp x List.mem_cons_self) ht h)
      refine ⟨k, fun y hy => ?_, hP⟩
      rcases hy with hy | hy
      · exact (List.mem_cons.1 hy).elim (fun he => hk y (.inr (List.mem_cons.2 (.inl he)))) fun hm => hk y (.inl hm)
      · exact hk y (.inr (List.mem_cons_of_mem _ hy))
  obtain ⟨k, hk, hP⟩ := hfold (allOf 4) [] a (allOf_nodup 4) (fun _ _ => nofun) (fun _ _ => rfl) (.refl _ a) h0
  exact ⟨k, fun x => hk x (.inl (mem_allOf x)), hP⟩

/-- The state after every port of a has closed the period. -/
def State.portsClosed (a : State) : State := (allOf 4).foldl closePort a

theorem portsClosed_port (a : State) (x : PortId) : a.portsClosed.port x = a.closed x := by
  obtain ⟨l, hl, h⟩ := closePorts_induction (a := a)
    (P := fun l t => ∀ y, t.port y = if y ∈ l then a.closed y else a.port y) (fun y => rfl)
    fun l x t hx hp ht h y => by
      have hc : t.closed x = a.closed x := by
        unfold State.closed
        rw [hp, (closing_congr hp ht).2.1]
      rw [closePort_port, h y]
      by_cases hy : y = x
      · rw [if_pos hy, if_pos (List.mem_cons.2 (.inl hy)), hc, hy]
      · rw [if_neg hy]
        simp only [List.mem_cons, hy, false_or]
  exact (h x).trans (if_pos (hl x))

theorem portsClosed_source (a : State) (n : SourceId) :
    a.portsClosed.source n = (a.source n).reported (a.closesWithFrame (portOf n)) := by
  obtain ⟨l, hl, h⟩ := closePorts_induction (a := a)
    (P := fun l t => t.source n =
      if portOf n ∈ l then (a.source n).reported (a.closesWithFrame (portOf n)) else a.source n) rfl
    fun l x t hx hp ht h => by
      rw [closePort_source, h, (closing_congr hp ht).2.1]
      by_cases hy : portOf n = x
      · subst hy
        rw [if_pos rfl, if_neg hx, if_pos List.mem_cons_self]
      · rw [if_neg hy]
        simp only [List.mem_cons, hy, false_or]
  exact h.trans (if_pos (hl _))

/-! ## The panels and the keys -/

theorem linkBack_flags (x : PortId) (s : State) : FlagsKept s (linkBack x s) := by
  unfold linkBack
  refine FlagsKept.trans ?_ (.of_touches (referenceBack_touches _ _))
  exact (EventsRise.raise (K := fun _ => True) trivial _ s).flagsKept.trans (.of_touches (fieldPortUp_touches x _))

/-- Panel p was ONLINE on a port of the list that is lost. -/
def State.goneWith (a : State) (l : List PortId) (p : PanelId) : Prop := ∃ x ∈ l, a.loses x ∧ a.onlineOn x p

/-- Key k is released as the ports close. -/
def State.closeReleases (a : State) (k : KeyId) : Prop :=
  (∃ x, a.loses x ∧ a.onlineOn x (keyPanel k)) ∧ a.PolicyReleases k

theorem portsClosed_panels (a : State) : PanelsFollow a a.portsClosed a.loses := by
  obtain ⟨l, hl, h⟩ := closePorts_induction (a := a) (P := fun l t => PanelsLost a.closeReleases (a.goneWith l) a t)
    ((PanelsLost.start _ a).congr fun p => by simp [State.goneWith])
    fun l x t hx hp ht h => by
      obtain ⟨-, -, hlose, hret⟩ := closing_congr hp ht
      have hgone : ¬a.loses x → ∀ p, a.goneWith (x :: l) p ↔ a.goneWith l p := fun hn p => by
        simp only [State.goneWith, List.exists_mem_cons_iff, hn, false_and, false_or]
      by_cases hlx : a.loses x
      · obtain ⟨v, hv, he⟩ := closePort_loses (hlose.2 hlx)
        rw [he]
        refine ((h.of_touches hv (by decide) (.of_touches hv)).losePort .down
          fun k hk hpol => ⟨⟨x, hlx, hk⟩, hpol⟩).congr fun p => ?_
        simp only [State.goneWith, List.exists_mem_cons_iff, hlx, true_and]
        exact or_comm
      · refine PanelsLost.congr ?_ (hgone hlx)
        by_cases hrx : a.returns x
        · obtain ⟨v, hv, he⟩ := closePort_returns (hret.2 hrx)
          rw [he]
          exact (h.of_touches hv (by decide) (.of_touches hv)).of_touches (linkBack_touches x v) (by decide)
            (linkBack_flags x v)
        · have hq := closePort_quiet (mt hlose.1 hlx) (mt hret.1 hrx)
          exact h.of_touches hq (by decide) (.of_touches hq)
  refine h.follow (fun p => ⟨fun ⟨x, _, hx, h1, h2, h3⟩ => ⟨h1, h2, h3 ▸ hx⟩, fun ⟨h1, h2, h3⟩ =>
    ⟨_, hl _, h3, h1, h2, rfl⟩⟩) fun k ⟨⟨x, hx, hon⟩, hpol⟩ => ⟨⟨x, hl x, hx, hon⟩, hpol⟩

end Sys2Proof.Machine
end

section
/-! PROOF. What the closing of the ports does to the circuits, the reference, the events and the host's queues (R11, R12,
R16 to R18, R172, R173). -/

namespace Sys2Proof.Machine

/-! ## The circuits -/

/-- The circuit's reporter has its destination on port x. -/
def State.circuitOf (s : State) (x : PortId) (r : Circuit) : Prop := ∃ d, (s.station r.reporter).dest = some d ∧ portOf d = x

theorem circuitOf_unique {s : State} {x y : PortId} {r : Circuit} (hx : s.circuitOf x r) (hy : s.circuitOf y r) : x = y := by
  obtain ⟨d, hd, rfl⟩ := hx
  obtain ⟨e, he, rfl⟩ := hy
  rw [hd] at he
  cases he
  rfl

theorem onPort_iff {s : State} {st : CircuitState → Prop} {x : PortId} {r : Circuit} :
    s.OnPort st x r ↔ st r.state ∧ s.circuitOf x r := Iff.rfl

theorem linkBack_circuit (x : PortId) (s : State) (c : CircuitId) :
    (s.OnPort (fun st => st = .linkLost) x (s.circuit c) →
      (linkBack x s).circuit c = s.restarted (s.circuit c)) ∧
      (¬s.OnPort (fun st => st = .linkLost) x (s.circuit c) → (linkBack x s).circuit c = s.circuit c) := by
  let v := raise .portUp (some x.val) s
  have hv : Touches [.events, .notices, .draws] s v := raise_touches .portUp (some x.val) s
  have hback : (linkBack x s).circuit c = (fieldPortUp x v).circuit c := (referenceBack_touches _ _).circuit c
  have hcond : v.OnPort (fun st => st = .linkLost) x (v.circuit c) ↔ s.OnPort (fun st => st = .linkLost) x (s.circuit c) := by
    rw [hv.circuit]
    exact OnPort.congr hv.stations
  have hrest : v.restarted (v.circuit c) = s.restarted (s.circuit c) := by
    rw [hv.circuit]
    unfold State.restarted
    rw [hv.sample]
  refine ⟨fun h => ?_, fun h => ?_⟩
  · rw [hback, fieldPortUp_circuit, if_pos (hcond.2 h), hrest]
  · rw [hback, fieldPortUp_circuit, if_neg (hcond.not.2 h), hv.circuit]

/-- What the closing of the ports of the list has done to circuit c. -/
structure CircuitClosed (a : State) (c : CircuitId) (l : List PortId) (t : State) : Prop where
  lost : ∀ x ∈ l, a.loses x → a.LosesLink x (a.circuit c) →
    t.circuit c = { a.circuit c with state := .linkLost, intervalTimer := none, outstanding := [] } ∧
      ∀ y, c ∉ t.probeQueue y
  back : ∀ x ∈ l, a.returns x → a.OnPort (fun st => st = .linkLost) x (a.circuit c) →
    t.circuit c = a.restarted (a.circuit c)
  kept : (∀ x ∈ l, ¬(a.loses x ∧ a.LosesLink x (a.circuit c))) →
    (∀ x ∈ l, ¬(a.returns x ∧ a.OnPort (fun st => st = .linkLost) x (a.circuit c))) → t.circuit c = a.circuit c

namespace CircuitClosed

variable {a t u : State} {c : CircuitId} {l : List PortId} {x : PortId}

/-- Whatever the earlier closes did, the circuit's reporter is the same. -/
theorem reporter (h : CircuitClosed a c l t) : (t.circuit c).reporter = (a.circuit c).reporter := by
  by_cases hl : ∃ y ∈ l, a.loses y ∧ a.LosesLink y (a.circuit c)
  · obtain ⟨y, hy, h1, h2⟩ := hl
    rw [(h.lost y hy h1 h2).1]
  by_cases hb : ∃ y ∈ l, a.returns y ∧ a.OnPort (fun st => st = .linkLost) y (a.circuit c)
  · obtain ⟨y, hy, h1, h2⟩ := hb
    rw [h.back y hy h1 h2]
    rfl
  · rw [h.kept (fun y hy hc => hl ⟨y, hy, hc⟩) fun y hy hc => hb ⟨y, hy, hc⟩]

/-- A circuit on a port that has not closed is as it was. -/
theorem untouched (h : CircuitClosed a c l t) (hx : x ∉ l) (hc : a.circuitOf x (a.circuit c)) : t.circuit c = a.circuit c :=
  h.kept (fun _ hy hl => hx (circuitOf_unique hc (onPort_iff.1 hl.2).2 ▸ hy))
    fun _ hy hl => hx (circuitOf_unique hc (onPort_iff.1 hl.2).2 ▸ hy)

/-- A close that leaves the circuit and its requests, of a port that neither loses nor regains it. -/
theorem extend (h : CircuitClosed a c l t) (hu : u.circuit c = t.circuit c)
    (hq : (∀ y, c ∉ t.probeQueue y) → ∀ y, c ∉ u.probeQueue y)
    (hl : ¬(a.loses x ∧ a.LosesLink x (a.circuit c)))
    (hb : ¬(a.returns x ∧ a.OnPort (fun st => st = .linkLost) x (a.circuit c))) : CircuitClosed a c (x :: l) u where
  lost y hy h1 h2 := by
    rcases List.mem_cons.1 hy with rfl | hy
    · exact absurd ⟨h1, h2⟩ hl
    · exact ⟨hu.trans (h.lost y hy h1 h2).1, hq (h.lost y hy h1 h2).2⟩
  back y hy h1 h2 := by
    rcases List.mem_cons.1 hy with rfl | hy
    · exact absurd ⟨h1, h2⟩ hb
    · exact hu.trans (h.back y hy h1 h2)
  kept h1 h2 := hu.trans (h.kept (fun y hy => h1 y (List.mem_cons_of_mem _ hy)) fun y hy => h2 y (List.mem_cons_of_mem _ hy))

theorem close (h : CircuitClosed a c l t) (hx : x ∉ l) (hp : t.port x = a.port x) (ht : Touches closeFields a t) :
    CircuitClosed a c (x :: l) (closePort t x) := by
  obtain ⟨-, -, hlose, hret⟩ := closing_congr hp ht
  have hon : ∀ st, t.OnPort st x (a.circuit c) ↔ a.OnPort st x (a.circuit c) := fun st => OnPort.congr ht.stations
  have hof : ∀ st, t.OnPort st x (t.circuit c) → a.circuitOf x (a.circuit c) := fun st hst => by
    obtain ⟨d, hd, hpd⟩ := (onPort_iff.1 hst).2
    rw [h.reporter, ht.station] at hd
    exact ⟨d, hd, hpd⟩
  by_cases hlx : a.loses x
  · obtain ⟨v, hv, he⟩ := closePort_loses (hlose.2 hlx)
    have hvq : ∀ y, v.probeQueue y = t.probeQueue y := fun y => congrArg (tget · y) hv.probeQueues
    rw [he]
    by_cases hll : a.LosesLink x (a.circuit c)
    · have hsame := h.untouched hx (onPort_iff.1 hll).2
      have hvc : v.circuit c = a.circuit c := (hv.circuit c).trans hsame
      obtain ⟨h1, h2⟩ := losePort_circuit_lost (st := .down) (s := v) (c := c) (x := x)
        (by rw [hvc]; exact (OnPort.congr (hv.stations.trans ht.stations)).2 hll)
      rw [hvc] at h1
      refine ⟨fun y hy hly hy' => ⟨h1, h2⟩, fun y hy hry hy' => ?_, fun h3 _ => absurd ⟨hlx, hll⟩ (h3 x List.mem_cons_self)⟩
      have hxy := circuitOf_unique (onPort_iff.1 hll).2 (onPort_iff.1 hy').2
      exact absurd (hxy ▸ hry) (State.loses_not_returns hlx)
    · have hnot : ¬v.LosesLink x (v.circuit c) := fun hv' => by
        have ht' : t.LosesLink x (t.circuit c) := by
          rw [hv.circuit] at hv'
          exact (OnPort.congr hv.stations).1 hv'
        rw [h.untouched hx (hof _ ht')] at ht'
        exact hll ((hon _).1 ht')
      obtain ⟨h1, h2⟩ := losePort_circuit_kept (st := .down) hnot
      refine h.extend (h1.trans (hv.circuit c)) (fun hq y hy => hq y ?_) (fun hc => hll hc.2)
        fun hc => State.loses_not_returns hlx hc.1
      rw [← hvq]
      exact (h2 y).1 hy
  by_cases hrx : a.returns x
  · obtain ⟨v, hv, he⟩ := closePort_returns (hret.2 hrx)
    have hb := linkBack_circuit x v c
    have hbq : ∀ y, (linkBack x v).probeQueue y = t.probeQueue y := fun y =>
      (congrArg (tget · y) (linkBack_touches x v).probeQueues : (linkBack x v).probeQueue y = v.probeQueue y).trans
        (congrArg (tget · y) hv.probeQueues)
    rw [he]
    by_cases hol : a.OnPort (fun st => st = .linkLost) x (a.circuit c)
    · have hsame := h.untouched hx (onPort_iff.1 hol).2
      have hvc : v.circuit c = a.circuit c := (hv.circuit c).trans hsame
      have h1 := hb.1 (by rw [hvc]; exact (OnPort.congr (hv.stations.trans ht.stations)).2 hol)
      have hr : v.restarted (v.circuit c) = a.restarted (a.circuit c) := by
        rw [hvc]
        unfold State.restarted
        rw [hv.sample, ht.sample]
      rw [hr] at h1
      refine ⟨fun y hy hly hy' => ?_, fun y hy hry hy' => h1, fun _ h3 => absurd ⟨hrx, hol⟩ (h3 x List.mem_cons_self)⟩
      have hxy := circuitOf_unique (onPort_iff.1 hol).2 (onPort_iff.1 hy').2
      exact absurd hrx (State.loses_not_returns (hxy ▸ hly))
    · have hnot : ¬v.OnPort (fun st => st = .linkLost) x (v.circuit c) := fun hv' => by
        have ht' : t.OnPort (fun st => st = .linkLost) x (t.circuit c) := by
          rw [hv.circuit] at hv'
          exact (OnPort.congr hv.stations).1 hv'
        rw [h.untouched hx (hof _ ht')] at ht'
        exact hol ((hon _).1 ht')
      exact h.extend ((hb.2 hnot).trans (hv.circuit c)) (fun hq y => by rw [hbq]; exact hq y) (fun hc => hlx hc.1)
        fun hc => hol hc.2
  · have hq := closePort_quiet (mt hlose.1 hlx) (mt hret.1 hrx)
    exact h.extend (hq.circuit c)
      (fun hn y => by
        rw [show (closePort t x).probeQueue y = t.probeQueue y from congrArg (tget · y) hq.probeQueues]
        exact hn y)
      (fun hc => hlx hc.1) fun hc => hrx hc.1

end CircuitClosed

theorem portsClosed_circuit (a : State) (c : CircuitId) :
    ∃ l, (∀ x, x ∈ l) ∧ CircuitClosed a c l a.portsClosed :=
  closePorts_induction ⟨nofun, nofun, fun _ _ => rfl⟩ fun _ _ _ hx hp ht h => h.close hx hp ht

end Sys2Proof.Machine
end

section
/-! PROOF. What the closing of the ports does to the reference, the events and the host's queues (R11, R12, R16 to R18). -/

namespace Sys2Proof.Machine

/-! ## The events -/

theorem linkBack_rises (x : PortId) (s : State) : EventsRise (· = .portUp) s (linkBack x s) := by
  unfold linkBack
  exact ((EventsRise.raise (K := (· = .portUp)) (k := .portUp) rfl _ s).trans (.of_touches (fieldPortUp_touches x _))).trans
    (.of_touches (referenceBack_touches _ _))

theorem linkBack_portUp (x : PortId) (s : State) : ((linkBack x s).event .portUp).isSet = true := by
  unfold linkBack
  rw [(referenceBack_touches _ _).event, (fieldPortUp_touches _ _).event, raise_event]
  rfl

/-- No set flag is cleared, and the links lost and regained have raised theirs. -/
theorem portsClosed_events (a : State) :
    FlagsKept a a.portsClosed ∧
      (∀ x, a.loses x → (a.portsClosed.event .portDown).isSet = true) ∧
      ∀ x, a.returns x → (a.portsClosed.event .portUp).isSet = true := by
  obtain ⟨l, hl, h1, h2, h3⟩ := closePorts_induction (a := a)
    (P := fun l t => FlagsKept a t ∧ (∀ x ∈ l, a.loses x → (t.event .portDown).isSet = true) ∧
      ∀ x ∈ l, a.returns x → (t.event .portUp).isSet = true) ⟨fun _ => id, nofun, nofun⟩
    fun l x t hx hp ht ⟨g1, g2, g3⟩ => by
      obtain ⟨-, -, hlose, hret⟩ := closing_congr hp ht
      have hstep : FlagsKept t (closePort t x) ∧ (a.loses x → ((closePort t x).event .portDown).isSet = true) ∧
          (a.returns x → ((closePort t x).event .portUp).isSet = true) := by
        by_cases hlx : a.loses x
        · obtain ⟨v, hv, he⟩ := closePort_loses (hlose.2 hlx)
          rw [he]
          exact ⟨(FlagsKept.of_touches hv).trans (losePort_flags x .down v), fun _ => losePort_portDown x .down v,
            fun hr => absurd hr (State.loses_not_returns hlx)⟩
        by_cases hrx : a.returns x
        · obtain ⟨v, hv, he⟩ := closePort_returns (hret.2 hrx)
          rw [he]
          exact ⟨(FlagsKept.of_touches hv).trans (linkBack_rises x v).flagsKept, fun h => absurd h hlx,
            fun _ => linkBack_portUp x v⟩
        · have hq := closePort_quiet (mt hlose.1 hlx) (mt hret.1 hrx)
          exact ⟨.of_touches hq, fun h => absurd h hlx, fun h => absurd h hrx⟩
      obtain ⟨k1, k2, k3⟩ := hstep
      refine ⟨g1.trans k1, fun y hy hly => ?_, fun y hy hry => ?_⟩
      · rcases List.mem_cons.1 hy with rfl | hy
        · exact k2 hly
        · exact k1 _ (g2 y hy hly)
      · rcases List.mem_cons.1 hy with rfl | hy
        · exact k3 hry
        · exact k1 _ (g3 y hy hry)
  exact ⟨h1, fun x => h2 x (hl x), fun x => h3 x (hl x)⟩

/-! ## The host's queues -/

theorem portsClosed_host (a : State) (x : PortId) (hm : a.straps.mgmt = x) (hx : a.loses x) :
    a.portsClosed.orders = [] ∧ a.portsClosed.replies = [] ∧ a.portsClosed.block = none := by
  obtain ⟨l, hl, h⟩ := closePorts_induction (a := a)
    (P := fun l t => x ∈ l → t.orders = [] ∧ t.replies = [] ∧ t.block = none) nofun
    fun l y t hy hp ht h hxl => by
      obtain ⟨-, -, hlose, hret⟩ := closing_congr hp ht
      have hmt : t.straps.mgmt = x := by
        rw [ht.straps]
        exact hm
      rcases List.mem_cons.1 hxl with rfl | hxl
      · obtain ⟨v, hv, he⟩ := closePort_loses (hlose.2 hx)
        rw [he]
        exact losePort_host (by rw [hv.straps]; exact hmt)
      have hxy : t.straps.mgmt ≠ y := fun he => hy ((hmt.symm.trans he) ▸ hxl)
      have hkept : (closePort t y).orders = t.orders ∧ (closePort t y).replies = t.replies ∧
          (closePort t y).block = t.block := by
        by_cases hly : a.loses y
        · obtain ⟨v, hv, he⟩ := closePort_loses (hlose.2 hly)
          have hg := losePort_touches_guest (x := y) (s := v) (by rw [hv.straps]; exact hxy) .down
          rw [he]
          exact ⟨hg.orders.trans hv.orders, hg.replies.trans hv.replies, hg.block.trans hv.block⟩
        by_cases hry : a.returns y
        · obtain ⟨v, hv, he⟩ := closePort_returns (hret.2 hry)
          have hb := linkBack_touches y v
          rw [he]
          exact ⟨hb.orders.trans hv.orders, hb.replies.trans hv.replies, hb.block.trans hv.block⟩
        · have hq := closePort_quiet (mt hlose.1 hly) (mt hret.1 hry)
          exact ⟨hq.orders, hq.replies, hq.block⟩
      obtain ⟨h1, h2, h3⟩ := h hxl
      exact ⟨hkept.1.trans h1, hkept.2.1.trans h2, hkept.2.2.trans h3⟩
  exact h (hl x)

/-! ## The reference -/

theorem linkBack_timing (x : PortId) (s : State) :
    (s.timing.selected = .port x → (linkBack x s).timing =
      { s.timing with pending := if s.timing.active = .port x then none else some (.port x) }) ∧
      (s.timing.selected ≠ .port x → (linkBack x s).timing = s.timing) := by
  let v := fieldPortUp x (raise .portUp (some x.val) s)
  have hv : v.timing = s.timing := (fieldPortUp_touches x _).timing.trans (raise_timing _ _ s)
  have hb : linkBack x s = referenceBack (.port x) v := rfl
  refine ⟨fun h => ?_, fun h => ?_⟩
  · rw [hb, referenceBack_of_selected (by rw [hv]; exact h), hv]
  · rw [hb, referenceBack_of_ne (by rw [hv]; exact h), hv]

/-- What the closing of the ports of the list has done to the reference. -/
structure ReferenceClosed (a : State) (l : List PortId) (t : State) : Prop where
  fixed : t.timing.selected = a.timing.selected ∧ t.timing.refclkPresent = a.timing.refclkPresent ∧
    t.timing.realigning = a.timing.realigning
  idle : (∀ x ∈ l, a.timing.selected = .port x → ¬a.loses x ∧ ¬a.returns x) → t.timing = a.timing
  lost : ∀ x ∈ l, a.timing.selected = .port x → a.loses x →
    t.timing.active = .internal ∧ t.timing.pending = none ∧ (t.event .referenceLost).isSet = true ∧
      (t.event .referenceLost).inst = none
  back : ∀ x ∈ l, a.timing.selected = .port x → a.returns x →
    t.timing = { a.timing with pending := if a.timing.active = .port x then none else some (.port x) }
  quiet : (∀ x ∈ l, a.timing.selected = .port x → ¬a.loses x) → t.event .referenceLost = a.event .referenceLost

namespace ReferenceClosed

variable {a t u : State} {l : List PortId} {x : PortId}

/-- A close that leaves the reference, of a port whose link is neither the selected reference's to lose nor to regain. -/
theorem extend (h : ReferenceClosed a l t) (hu : u.timing = t.timing)
    (he : u.event .referenceLost = t.event .referenceLost)
    (hx : a.timing.selected = .port x → ¬a.loses x ∧ ¬a.returns x) : ReferenceClosed a (x :: l) u where
  fixed := by rw [hu]; exact h.fixed
  idle hi := by rw [hu]; exact h.idle fun y hy => hi y (List.mem_cons_of_mem _ hy)
  lost y hy h1 h2 := by
    rw [hu, he]
    rcases List.mem_cons.1 hy with rfl | hy
    · exact absurd h2 (hx h1).1
    · exact h.lost y hy h1 h2
  back y hy h1 h2 := by
    rw [hu]
    rcases List.mem_cons.1 hy with rfl | hy
    · exact absurd h2 (hx h1).2
    · exact h.back y hy h1 h2
  quiet hq := by rw [he]; exact h.quiet fun y hy => hq y (List.mem_cons_of_mem _ hy)

theorem close (h : ReferenceClosed a l t) (hx : x ∉ l) (hp : t.port x = a.port x) (ht : Touches closeFields a t) :
    ReferenceClosed a (x :: l) (closePort t x) := by
  obtain ⟨-, -, hlose, hret⟩ := closing_congr hp ht
  have hfresh : a.timing.selected = .port x → t.timing = a.timing ∧ t.event .referenceLost = a.event .referenceLost :=
    fun hsel => by
      have hne : ∀ y ∈ l, a.timing.selected ≠ .port y := fun y hy hs => hx (by
        rw [hsel] at hs
        cases hs
        exact hy)
      exact ⟨h.idle fun y hy hs => absurd hs (hne y hy), h.quiet fun y hy hs => absurd hs (hne y hy)⟩
  by_cases hlx : a.loses x
  · obtain ⟨v, hv, he⟩ := closePort_loses (hlose.2 hlx)
    rw [he]
    by_cases hsel : a.timing.selected = .port x
    · obtain ⟨h1, h2⟩ := hfresh hsel
      have hvt : v.timing = a.timing := hv.timing.trans h1
      obtain ⟨⟨k1, k2, k3, k4, k5⟩, k6, k7⟩ := losePort_selected (st := .down) (x := x) (s := v) (by rw [hvt]; exact hsel)
      rw [hvt] at k3 k4 k5
      refine ⟨⟨k3, k4, k5⟩, fun hi => absurd hlx (hi x List.mem_cons_self hsel).1, fun y _ _ _ => ⟨k1, k2, k6, k7⟩,
        fun y hy hs hr => ?_, fun hq => absurd hlx (hq x List.mem_cons_self hsel)⟩
      have hxy : y = x := by
        rw [hsel] at hs
        cases hs
        rfl
      exact absurd (hxy ▸ hr) (State.loses_not_returns hlx)
    · have hne : v.timing.selected ≠ .port x := by
        rw [hv.timing, h.fixed.1]
        exact hsel
      obtain ⟨h1, h2⟩ := losePort_unselected (st := .down) hne
      refine h.extend (h1.trans hv.timing) ?_ fun hs => absurd hs hsel
      refine ((h2.kinds .referenceLost).resolve_right fun hh => ?_).trans (hv.event _)
      simp [LinkLoss] at hh
  by_cases hrx : a.returns x
  · obtain ⟨v, hv, he⟩ := closePort_returns (hret.2 hrx)
    have hev : (linkBack x v).event .referenceLost = t.event .referenceLost :=
      (((linkBack_rises x v).kinds .referenceLost).resolve_right fun hh => by cases hh.1).trans (hv.event _)
    rw [he]
    by_cases hsel : a.timing.selected = .port x
    · obtain ⟨h1, h2⟩ := hfresh hsel
      have hvt : v.timing = a.timing := hv.timing.trans h1
      have hb := (linkBack_timing x v).1 (by rw [hvt]; exact hsel)
      rw [hvt] at hb
      refine ⟨by rw [hb]; exact ⟨rfl, rfl, rfl⟩, fun hi => absurd hrx (hi x List.mem_cons_self hsel).2,
        fun y hy hs hl => ?_, fun y hy hs hr => ?_, fun _ => hev.trans h2⟩
      · have hxy : y = x := by
          rw [hsel] at hs
          cases hs
          rfl
        exact absurd (hxy ▸ hl) hlx
      · have hxy : y = x := by
          rw [hsel] at hs
          cases hs
          rfl
        rw [hxy]
        exact hb
    · have hne : v.timing.selected ≠ .port x := by
        rw [hv.timing, h.fixed.1]
        exact hsel
      exact h.extend (((linkBack_timing x v).2 hne).trans hv.timing) hev fun hs => absurd hs hsel
  · have hq := closePort_quiet (mt hlose.1 hlx) (mt hret.1 hrx)
    exact h.extend hq.timing (hq.event _) fun _ => ⟨hlx, hrx⟩

end ReferenceClosed

theorem portsClosed_reference (a : State) : ∃ l, (∀ x, x ∈ l) ∧ ReferenceClosed a l a.portsClosed :=
  closePorts_induction ⟨⟨rfl, rfl, rfl⟩, fun _ => rfl, nofun, nofun, fun _ => rfl⟩ fun _ _ _ hx hp ht h => h.close hx hp ht

end Sys2Proof.Machine
end

section
/-! PROOF. BoundaryClosesPorts settled: the closing of the ports, anchored after the assembly and the pending change of the
reference. -/

namespace Sys2Proof.Machine

/-! ## From the boundary's begin to the closing -/

/-- The state in which the ports close: every port has assembled, and a pending change of the reference is taken. -/
def State.toClose (s : State) : State := applyReference s.assembledAll

theorem closedAll_eq (s : State) : s.closedAll = s.toClose.portsClosed := rfl

theorem toClose_touches (s : State) : Touches (.mark :: .reference :: assemblyFields) s s.toClose :=
  ((atBoundary_touches true s).up.trans (assembleAll_touches _ (allOf 4) (atBoundary true s)).up).trans
    (applyReference_touches _).up

theorem toClose_aside (s : State) : LaneAside s s.toClose :=
  ((LaneAside.quiet (atBoundary_touches true s) (by decide)).trans
    (LaneAside.assembleAll (atBoundary true s) (allOf 4) (atBoundary true s))).trans
    (.quiet (applyReference_touches _) (by decide))

theorem toClose_circuit (s : State) (c : CircuitId) : ProbesMoved (s.circuit c) (s.toClose.circuit c) := by
  have h := (assembleAll_kept (atBoundary true s) (allOf 4) (atBoundary true s)).circuits c
  exact .trans h (.of_eq ((applyReference_touches s.assembledAll).circuit c))

theorem toClose_storeInv {s : State} (h : StoreInv s) : StoreInv s.toClose := by
  have hall : StoreInv s.assembledAll :=
    foldl_keeps (P := StoreInv) (fun t x => StoreClosed.assemblePort storeInv_storeClosed (atBoundary true s) t x) _ _
      (StoreInv.of_same (atBoundary_touches true s).entries (atBoundary_touches true s).nextSerial h)
  exact StoreInv.of_same (applyReference_touches _).entries (applyReference_touches _).nextSerial hall

theorem assembleAll_port_kept (before : State) (l : List PortId) (s : State) (x : PortId) :
    (assembleAll before l s).port x = { s.port x with outSeq := ((assembleAll before l s).port x).outSeq } := by
  induction l generalizing s with
  | nil => rfl
  | cons y l ih =>
    have h := ih (assemblePort before s y)
    rw [assembleAll_cons, h, assemblePort_port]
    split
    · next hy => rw [hy.1]
    · rfl

theorem toClose_port (s : State) (x : PortId) :
    s.toClose.port x = { s.port x with outSeq := (s.toClose.port x).outSeq } := by
  have hp : s.toClose.port x = s.assembledAll.port x := congrArg (tget · x) (applyReference_touches s.assembledAll).ports
  rw [hp]
  exact assembleAll_port_kept (atBoundary true s) (allOf 4) (atBoundary true s) x

theorem toClose_clock (s : State) : s.toClose.timing.period = s.timing.period ∧ s.toClose.timing.sample = s.timing.sample ∧
    s.toClose.timing.position = s.timing.position := by
  obtain ⟨h1, h2, -, h4⟩ := toClose_touches s .clock (by decide)
  exact ⟨h1, h2, h4⟩

theorem toClose_closesWithFrame (s : State) (x : PortId) : s.toClose.closesWithFrame x = s.closesWithFrame x := by
  obtain ⟨h1, -, h3⟩ := toClose_clock s
  unfold State.closesWithFrame
  rw [toClose_port, h1, h3]

theorem toClose_closes (s : State) (x : PortId) : s.toClose.closes x ↔ s.closes x := by
  unfold State.closes
  rw [toClose_port]

theorem toClose_loses (s : State) (x : PortId) : s.toClose.loses x ↔ s.loses x := by
  unfold State.loses
  rw [toClose_closesWithFrame, toClose_closes, toClose_port]

theorem toClose_returns (s : State) (x : PortId) : s.toClose.returns x ↔ s.returns x := by
  unfold State.returns
  rw [toClose_closesWithFrame, toClose_closes, toClose_port]

theorem applyReference_timing (s : State) :
    let active := s.timing.pending.getD s.timing.active
    (applyReference s).timing.selected = s.timing.selected ∧
      (applyReference s).timing.refclkPresent = s.timing.refclkPresent ∧ (applyReference s).timing.active = active ∧
      (applyReference s).timing.pending = none ∧
      ((applyReference s).timing.realigning = true ↔ s.timing.changed = true ∨ active ≠ s.timing.active) ∧
      (active ≠ .internal → (applyReference s).timing.rate = .steered) ∧
      (active = .internal → s.timing.selected = .internal → (applyReference s).timing.rate = .nominal) := by
  intro active
  have hrate : (applyReference s).timing.rate = s.timing.rateFrom active := rfl
  refine ⟨rfl, rfl, rfl, rfl, ?_, fun hne => ?_, fun hi hs => ?_⟩
  · change (s.timing.changed || active != s.timing.active) = true ↔ _
    simp
  · rw [hrate]
    cases hact : active with
    | internal => exact absurd hact hne
    | refclk => rfl
    | port x => rfl
  · rw [hrate, hi]
    exact if_pos hs

theorem toClose_timing (s : State) :
    let active := s.timing.pending.getD s.timing.active
    s.toClose.timing.selected = s.timing.selected ∧ s.toClose.timing.refclkPresent = s.timing.refclkPresent ∧
      s.toClose.timing.active = active ∧ s.toClose.timing.pending = none ∧
      (s.toClose.timing.realigning = true ↔ s.timing.changed = true ∨ active ≠ s.timing.active) ∧
      (active ≠ .internal → s.toClose.timing.rate = .steered) ∧
      (active = .internal → s.timing.selected = .internal → s.toClose.timing.rate = .nominal) := by
  have hkept : Touches _ _ s.assembledAll := assembleAll_touches (atBoundary true s) (allOf 4) (atBoundary true s)
  obtain ⟨h1, h2, h3, h4, h5, -, -⟩ := hkept .reference (by decide)
  have h := applyReference_timing s.assembledAll
  rw [h1, h2, h3, h4, h5] at h
  exact h

/-! ## The panels' part, seen from the boundary's begin -/

theorem LaneAside.grantPair {s a : State} (h : LaneAside s a) (hst : a.stations = s.stations) (k : KeyId) :
    a.grantPair k = s.grantPair k := by
  have hstation : ∀ x, a.station x = s.station x := fun x => congrArg (tget · x) hst
  have hown : ∀ j, a.ownStation j = s.ownStation j := fun j => by
    unfold State.ownStation
    rw [h.panels]
  have hk := h.keys k
  simp only [State.grantPair, State.talkPair, State.listenPair, State.ownSource, State.ownDest, hown, hstation]
  rw [hk]
  rfl

theorem LaneAside.panelFields {s a : State} (h : LaneAside s a) (p : PanelId) :
    (a.panel p).configured = (s.panel p).configured ∧ (a.panel p).online = (s.panel p).online ∧
      (a.panel p).port = (s.panel p).port ∧ (a.panel p).silenceTimer = (s.panel p).silenceTimer ∧
      (a.panel p).lossPolicy = (s.panel p).lossPolicy := by
  rw [h.panels p]
  exact ⟨rfl, rfl, rfl, rfl, rfl⟩

theorem LaneAside.keyFields {s a : State} (h : LaneAside s a) (k : KeyId) :
    (a.key k).state = (s.key k).state ∧ (a.key k).down = (s.key k).down ∧ (a.key k).standing = (s.key k).standing := by
  rw [h.keys k]
  exact ⟨rfl, rfl, rfl⟩

theorem LaneAside.follow {s a c t : State} {lost : PortId → Prop} (h : LaneAside s a) (hst : a.stations = s.stations)
    (hstore : StoreInv s → StoreInv a) (hf : PanelsFollow a c lost) (ht : Touches afterCloseFields c t)
    (hp : PanelsButLamps c t) : PanelsFollow s t lost := by
  obtain ⟨hpan, hkey⟩ := hf
  have hpol : ∀ k, a.PolicyReleases k ↔ s.PolicyReleases k := fun k => by
    unfold State.PolicyReleases
    rw [(h.panelFields _).2.2.2.2, (h.keyFields k).1]
  refine ⟨fun p => ?_, fun hs he k => ?_⟩
  · obtain ⟨h1, h2, h3, h4, -⟩ := h.panelFields p
    obtain ⟨g1, g2⟩ : (t.panel p).online = (c.panel p).online ∧ (t.panel p).silenceTimer = (c.panel p).silenceTimer := by
      rw [hp p]
      exact ⟨rfl, rfl⟩
    have hq := hpan p
    dsimp only at hq ⊢
    rw [h1, h2, h3, h4] at hq
    rw [g1, g2, ht.event]
    exact hq
  · obtain ⟨h1, h2, h3, -, -⟩ := h.panelFields (keyPanel k)
    obtain ⟨-, g2, g3⟩ := h.keyFields k
    have hq := hkey (hstore hs) (h.ears he) k
    dsimp only at hq ⊢
    rw [h1, h2, h3, hpol, g3] at hq
    refine ⟨fun hg => ?_, fun hn hw => ?_⟩
    · obtain ⟨k1, k2, k3, k4, k5, k6⟩ := hq.1 hg
      refine ⟨by rw [ht.key]; exact k1, by rw [ht.key]; exact k2, by rw [ht.key]; exact k3.trans g2,
        by rw [ht.key]; exact k4, fun d => by rw [ht.arbiter]; exact k5 d, fun x y hg' => ?_⟩
      rw [State.entriesOf_congr ht.entries]
      exact k6 x y ((h.grantPair hst k).trans hg')
    · have hk := hq.2 hn hw
      rw [ht.key]
      rw [h.keys k] at hk
      exact hk

end Sys2Proof.Machine
end

section
/-! PROOF. BoundaryClosesPorts settled. -/

namespace Sys2Proof.Machine

theorem boundary_after_ports (s : State) : Touches afterCloseFields s.toClose.portsClosed (boundary s) :=
  boundary_after_close s

theorem boundary_panels (s : State) : PanelsButLamps s.toClose.portsClosed (boundary s) := by
  rw [boundary_eq, closedAll_eq]
  generalize s.toClose.portsClosed = c
  exact fun p => flushLamps_panels c p

/-- R9, R10, R12: what the boundary leaves of port x, and of the host's queues where it is lost. -/
theorem boundary_port_closed (s : State) (x : PortId) :
    ((s.port x).state.carries = false → ((boundary s).port x).state = (s.port x).state) ∧
      ((s.port x).state.carries = true → (s.port x).settling = true →
        ((boundary s).port x).state = (s.port x).state ∧ ((boundary s).port x).missCount = (s.port x).missCount ∧
          ((boundary s).port x).settling = false) ∧
      ((s.port x).state.carries = true → (s.port x).settling = false →
        (s.closesWithFrame x = true → ((boundary s).port x).state = .up ∧ ((boundary s).port x).missCount = 0) ∧
        (s.closesWithFrame x = false → (s.port x).missCount < 7 →
          ((boundary s).port x).state = .holdover ∧ ((boundary s).port x).missCount = (s.port x).missCount + 1) ∧
        (s.closesWithFrame x = false → 7 ≤ (s.port x).missCount →
          ((boundary s).port x).state = .down ∧ ((boundary s).port x).missCount = 0 ∧
            ((boundary s).port x).lastSeq = none ∧ ∀ i, (tget ((boundary s).port x).buffer i).stamp = none)) := by
  have hp : (boundary s).port x = s.toClose.closed x := (boundary_port s x).trans (portsClosed_port s.toClose x)
  have hr := toClose_port s x
  have hf := toClose_closesWithFrame s x
  rw [hp]
  unfold State.closed
  rw [hf, hr]
  dsimp only
  refine ⟨fun hc => ?_, fun hc hset => ?_, fun hc hset => ⟨fun h => ?_, fun h hm => ?_, fun h hm => ?_⟩⟩
  · rw [if_pos hc]
  · rw [if_neg (by rw [hc]; decide), if_pos hset]
    exact ⟨rfl, rfl, rfl⟩
  all_goals
    rw [if_neg (by rw [hc]; decide), if_neg (by rw [hset]; decide)]
    unfold Port.moved
    dsimp only
  · rw [if_pos h]
    exact ⟨rfl, rfl⟩
  · rw [if_neg (by rw [h]; decide), if_pos (by omega)]
    exact ⟨rfl, rfl⟩
  · rw [if_neg (by rw [h]; decide), if_neg (by omega)]
    exact ⟨rfl, rfl, rfl, fun i => by simp [Port.emptied, tget, BufferPosition.empty]⟩

/-- R172, R173: what the boundary leaves of circuit c. -/
theorem boundary_circuit (s : State) (c : CircuitId) :
    let r := s.circuit c
    let t := boundary s
    let departed := fun (q : Circuit) =>
      { q with
          tagGenerator := (t.circuit c).tagGenerator, outstanding := (t.circuit c).outstanding
          lostInARow := (t.circuit c).lostInARow }
    (r.Probes ∧ s.CircuitOn r s.loses →
      t.circuit c = departed { r with state := .linkLost, intervalTimer := none } ∧
        (t.circuit c).outstanding = [] ∧ ∀ y, c ∉ t.probeQueue y) ∧
      (r.state = .linkLost ∧ s.CircuitOn r s.returns →
        t.circuit c = departed (s.restarted r) ∧ (t.circuit c).lostInARow = 0) ∧
      (¬(r.Probes ∧ s.CircuitOn r s.loses) → ¬(r.state = .linkLost ∧ s.CircuitOn r s.returns) →
        t.circuit c = departed r) := by
  intro r t departed
  have hafter := boundary_after_ports s
  have hc : t.circuit c = s.toClose.portsClosed.circuit c := hafter.circuit c
  have hq : ∀ y, t.probeQueue y = s.toClose.portsClosed.probeQueue y := fun y => congrArg (tget · y) hafter.probeQueues
  obtain ⟨l, hl, h⟩ := portsClosed_circuit s.toClose c
  have hmoved : s.toClose.circuit c = _ := toClose_circuit s c
  have hst : (s.toClose.circuit c).state = r.state := by rw [hmoved]
  have hrep : (s.toClose.circuit c).reporter = r.reporter := by rw [hmoved]
  have hstation : ∀ x, s.toClose.station x = s.station x := fun x => (toClose_touches s).station x
  have hof : ∀ x, s.toClose.circuitOf x (s.toClose.circuit c) ↔ ∃ d, (s.station r.reporter).dest = some d ∧ portOf d = x :=
    fun x => by
      unfold State.circuitOf
      rw [hrep, hstation]
  have hlost : ∀ x, s.toClose.LosesLink x (s.toClose.circuit c) ↔
      r.Probes ∧ ∃ d, (s.station r.reporter).dest = some d ∧ portOf d = x := fun x => by
    rw [← hof x, State.LosesLink, onPort_iff, hst]
    rfl
  have hback : ∀ x, s.toClose.OnPort (fun st => st = .linkLost) x (s.toClose.circuit c) ↔
      r.state = .linkLost ∧ ∃ d, (s.station r.reporter).dest = some d ∧ portOf d = x := fun x => by
    rw [← hof x, onPort_iff, hst]
  refine ⟨fun ⟨hpr, d, hd, hld⟩ => ?_, fun ⟨hll, d, hd, hrd⟩ => ?_, fun hnl hnb => ?_⟩
  · obtain ⟨h1, h2⟩ := h.lost (portOf d) (hl _) ((toClose_loses s _).2 hld) ((hlost _).2 ⟨hpr, d, hd, rfl⟩)
    have h1 := hc.trans h1
    refine ⟨?_, by rw [h1], fun y => by rw [hq]; exact h2 y⟩
    dsimp only [departed]
    rw [h1, hmoved]
  · have h1 := hc.trans (h.back (portOf d) (hl _) ((toClose_returns s _).2 hrd) ((hback _).2 ⟨hll, d, hd, rfl⟩))
    have hsample : s.toClose.timing.sample = s.timing.sample := (toClose_clock s).2.1
    refine ⟨?_, by rw [h1]; rfl⟩
    dsimp only [departed]
    rw [h1, hmoved]
    unfold State.restarted
    rw [hsample]
  · have h1 := hc.trans (h.kept
      (fun x _ ⟨hlx, hpx⟩ => hnl (by
        obtain ⟨hpr, d, hd, rfl⟩ := (hlost x).1 hpx
        exact ⟨hpr, d, hd, (toClose_loses s _).1 hlx⟩))
      fun x _ ⟨hrx, hpx⟩ => hnb (by
        obtain ⟨hll, d, hd, rfl⟩ := (hback x).1 hpx
        exact ⟨hll, d, hd, (toClose_returns s _).1 hrx⟩))
    dsimp only [departed]
    rw [h1, hmoved]

/-- R16 to R18: what the boundary leaves of the reference. -/
theorem boundary_reference (s : State) :
    let t := boundary s
    let old := s.timing
    let now := t.timing
    let active := old.pending.getD old.active
    now.selected = old.selected ∧ now.refclkPresent = old.refclkPresent ∧
      (now.realigning = true ↔ old.changed = true ∨ active ≠ old.active) ∧
      (∀ x, old.selected = .port x → s.loses x →
        now.active = .internal ∧ now.pending = none ∧ (t.event .referenceLost).isSet = true ∧
          (t.event .referenceLost).inst = none) ∧
      (∀ x, old.selected = .port x → s.returns x →
        now.active = active ∧ now.pending = if active = .port x then none else some (.port x)) ∧
      ((∀ x, old.selected = .port x → ¬s.loses x ∧ ¬s.returns x) → now.active = active ∧ now.pending = none) ∧
      ((∀ x, old.selected = .port x → ¬s.loses x) →
        t.event .referenceLost = s.event .referenceLost ∧ (active ≠ .internal → now.rate = .steered) ∧
          (active = .internal → old.selected = .internal → now.rate = .nominal)) := by
  intro t old now active
  have hafter := boundary_after_ports s
  obtain ⟨e1, e2, e3, e4, -, e6, e7⟩ := hafter .reference (by decide)
  obtain ⟨a1, a2, a3, a4, a5, a6, a7⟩ := toClose_timing s
  obtain ⟨l, hl, h⟩ := portsClosed_reference s.toClose
  obtain ⟨f1, f2, f3⟩ := h.fixed
  have hev : t.event .referenceLost = s.toClose.portsClosed.event .referenceLost := hafter.event _
  have hev0 : s.toClose.event .referenceLost = s.event .referenceLost := by
    rcases (toClose_aside s).rises.kinds .referenceLost with h | ⟨h, -⟩
    · exact h
    · rcases h with h | h <;> cases h
  have hnow1 : now.active = s.toClose.portsClosed.timing.active := e2
  have hnow2 : now.pending = s.toClose.portsClosed.timing.pending := e4
  have hnow3 : now.rate = s.toClose.portsClosed.timing.rate := e7
  have hsel : ∀ {x}, old.selected = .port x → s.toClose.timing.selected = .port x := fun hx => a1.trans hx
  have hidle : (∀ x, old.selected = .port x → ¬s.loses x ∧ ¬s.returns x) →
      s.toClose.portsClosed.timing = s.toClose.timing := fun hn => h.idle fun x _ hx =>
    ⟨mt (toClose_loses s x).1 (hn x (a1.symm.trans hx)).1, mt (toClose_returns s x).1 (hn x (a1.symm.trans hx)).2⟩
  have hback : ∀ x, old.selected = .port x → s.returns x → s.toClose.portsClosed.timing = _ := fun x hx hr =>
    h.back x (hl x) (hsel hx) ((toClose_returns s x).2 hr)
  refine ⟨e1.trans (f1.trans a1), e3.trans (f2.trans a2), ?_, fun x hx hlx => ?_, fun x hx hrx => ?_, fun hn => ?_,
    fun hn => ⟨?_, ?_⟩⟩
  · rw [show now.realigning = s.toClose.timing.realigning from e6.trans f3]
    exact a5
  · rw [hnow1, hnow2, hev]
    exact h.lost x (hl x) (hsel hx) ((toClose_loses s x).2 hlx)
  · rw [hnow1, hnow2, hback x hx hrx]
    dsimp only
    rw [a3]
    exact ⟨rfl, rfl⟩
  · rw [hnow1, hnow2, hidle hn, a3, a4]
    exact ⟨rfl, rfl⟩
  · rw [hev, h.quiet fun x _ hx => mt (toClose_loses s x).1 (hn x (a1.symm.trans hx)), hev0]
  · have hrate : now.rate = s.toClose.timing.rate := by
      rw [hnow3]
      by_cases hr : ∃ x, old.selected = .port x ∧ s.returns x
      · obtain ⟨x, hx, hrx⟩ := hr
        rw [hback x hx hrx]
      · rw [hidle fun x hx => ⟨hn x hx, fun hrx => hr ⟨x, hx, hrx⟩⟩]
    rw [hrate]
    exact ⟨a6, a7⟩

/-- Settles O16. -/
theorem boundaryClosesPorts : Obligations.BoundaryClosesPorts := by
  intro s ha hplace
  have hafter := boundary_after_ports s
  obtain ⟨hflags, hdown, hup⟩ := portsClosed_events s.toClose
  have hev : ∀ k, (boundary s).event k = s.toClose.portsClosed.event k := fun k => hafter.event k
  refine ⟨boundary s, event_taken ha (by rw [hplace]; rfl), fun n => ?_, fun x => ?_⟩
  · have hsrc : (boundary s).source n = s.toClose.portsClosed.source n := congrArg (tget · n) hafter.sources
    have hs0 : s.toClose.source n = s.source n := congrArg (tget · n) (toClose_touches s).sources
    rw [hsrc, portsClosed_source, toClose_closesWithFrame, hs0]
    rfl
  · obtain ⟨h1, h2, h3⟩ := boundary_port_closed s x
    refine ⟨h1, h2, fun hc hset => ?_, ?_, boundary_circuit s, boundary_reference s⟩
    · obtain ⟨g1, g2, g3⟩ := h3 hc hset
      refine ⟨fun hf => ?_, g2, fun hf hm => ?_⟩
      · obtain ⟨k1, k2⟩ := g1 hf
        refine ⟨k1, k2, fun hh => ?_⟩
        rw [hev]
        exact hup x ((toClose_returns s x).2 ⟨⟨hc, hset⟩, hf, hh⟩)
      · obtain ⟨k1, k2, k3, k4⟩ := g3 hf hm
        have hlx : s.toClose.loses x := (toClose_loses s x).2 ⟨⟨hc, hset⟩, hf, hm⟩
        refine ⟨k1, k2, k3, k4, by rw [hev]; exact hdown x hlx, fun hmg => ?_⟩
        have hstraps : s.toClose.straps = s.straps := (toClose_touches s).straps
        obtain ⟨q1, q2, q3⟩ := portsClosed_host s.toClose x (by rw [hstraps, hmg]) hlx
        exact ⟨hafter.orders.trans q1, hafter.replies.trans q2, hafter.block.trans q3⟩
    · have hf : PanelsFollow s.toClose s.toClose.portsClosed s.loses := by
        have h := portsClosed_panels s.toClose
        rwa [show s.toClose.loses = s.loses from funext fun x => propext (toClose_loses s x)] at h
      exact (toClose_aside s).follow (toClose_touches s).stations toClose_storeInv hf hafter (boundary_panels s)

end Sys2Proof.Machine
end

section
/-! PROOF. The cells of a frame only raise events and keep the notices within their queue (R23, R24, R194). -/

namespace Sys2Proof.Machine

/-- From s to t events are only raised, and the notices keep within their queue. -/
abbrev EventsKept (s t : State) : Prop := EventsRise (fun _ => True) s t

theorem EventsRise.kept {K : EventKind → Prop} {s t : State} (h : EventsRise K s t) : EventsKept s t :=
  h.mono fun _ _ => trivial

theorem raise_kept (k : EventKind) (i : Option Nat) (s : State) : EventsKept s (raise k i s) :=
  .raise (K := fun _ => True) (k := k) trivial i s

/-! ## What a press acquires -/

theorem acquireGrant_kept (k : KeyId) (src : Option SourceId) (d : Option DestId) (s : State) :
    EventsKept s (acquireGrant k src d s).1 := by
  unfold acquireGrant
  split
  · next a b =>
    have hg : EventsKept s (requestGrant k a b s).1 := .of_touches (requestGrant_touches k a b s)
    dsimp only
    split
    · exact hg
    · exact hg.trans (raise_kept _ _ _)
  · exact .refl _ s

theorem placeWaiting_kept (k : KeyId) (d : DestId) (high : Bool) (s : State) :
    EventsKept s (placeWaiting k d high s).1 := .of_touches (placeWaiting_touches k d high s)

theorem preempt_kept (old : KeyId) (d : DestId) (s : State) : EventsKept s (preempt old d s) := by
  have hd : EventsKept s (s.withoutGrant old d) := .of_touches (withoutGrant_touches s old d)
  exact hd.trans (.of_touches (takeWaiting_touches d _ old none (s.withoutGrant old d)))

theorem requestArbiter_kept (k : KeyId) (src : SourceId) (d : DestId) (s : State) :
    EventsKept s (requestArbiter k src d s).1 := by
  have hg : EventsKept s (requestGrant k src d s).1 := .of_touches (requestGrant_touches k src d s)
  have hcur : ∀ u, EventsKept u (makeCurrent k d u) := fun u => .of_touches (makeCurrent_touches k d u)
  unfold requestArbiter
  dsimp only
  split
  · split
    · exact hg.trans (hcur _)
    · exact hg.trans (raise_kept _ _ _)
  · next c _ =>
    split
    · split
      · exact (hg.trans (hcur _)).trans (preempt_kept c d _)
      · exact (hg.trans (raise_kept _ _ _)).trans (placeWaiting_kept k d _ _)
    · exact placeWaiting_kept k d _ s

theorem acquireReply_kept (k : KeyId) (s : State) : EventsKept s (acquireReply k s).1 := by
  unfold acquireReply
  split
  · exact .refl _ s
  · next e _ _ =>
    have h1 : EventsKept s (removeCaller (keyPanel k) e.station s) := .of_touches (removeCaller_touches _ _ s)
    have h2 := fun a b => h1.trans (acquireGrant_kept k a b (removeCaller (keyPanel k) e.station s))
    dsimp only
    split
    · exact ((h2 _ _).trans (.of_touches (setKey_touches _ k _))).trans (.of_touches (handKey_touches k _))
    · exact h2 _ _

theorem acquireTalk_kept (k : KeyId) (s : State) : EventsKept s (acquireTalk k s).1 := by
  unfold acquireTalk
  split
  · exact .refl _ s
  · split
    · exact (setTalk_rises _ _ _ s).kept
    · exact .refl _ s

theorem acquireIfb_kept (k : KeyId) (s : State) : EventsKept s (acquireIfb k s).1 := by
  unfold acquireIfb
  split
  · split
    · exact requestArbiter_kept k _ _ s
    · exact .refl _ s
  · exact .refl _ s

theorem acquire_kept (k : KeyId) (s : State) : EventsKept s (acquire k s).1 := by
  unfold acquire
  cases (s.key k).function with
  | unassigned => exact .refl _ s
  | talkStation =>
    cases (s.key k).targetStation with
    | none => exact .refl _ s
    | some x => exact acquireGrant_kept k _ _ s
  | listenStation =>
    cases (s.key k).targetStation with
    | none => exact .refl _ s
    | some x => exact acquireGrant_kept k _ _ s
  | talkParty => exact acquireTalk_kept k s
  | ifb => exact acquireIfb_kept k s
  | callStation => exact .of_touches (acquireCall_touches k s)
  | reply => exact acquireReply_kept k s

/-! ## Keys, panels and encoders -/

theorem enterState_kept (k : KeyId) (st : KeyState) (s : State) : EventsKept s (enterState k st s) :=
  .of_touches (enterState_touches k st s)

theorem press_kept (k : KeyId) (s : State) : EventsKept s (press k s) := by
  unfold press
  split
  · exact .refl _ s
  · cases (s.key k).state with
    | idle =>
      have h := acquire_kept k s
      dsimp only
      split
      · exact h.trans (.of_touches (enterByMode_touches k _))
      · exact (h.trans (enterState_kept k _ _)).trans (.of_touches (startWink_touches k _))
    | latched => exact (giveUp_rises k s).kept.trans (enterState_kept k _ _)
    | pressed => exact .refl _ s
    | momentaryOn => exact .refl _ s
    | unlatching => exact .refl _ s
    | refusedHeld => exact .refl _ s

theorem release_kept (k : KeyId) (s : State) : EventsKept s (release k s) := by
  unfold release
  cases (s.key k).state with
  | pressed => exact enterState_kept k _ s
  | momentaryOn => exact (giveUp_rises k s).kept.trans (enterState_kept k _ _)
  | unlatching => exact enterState_kept k _ s
  | refusedHeld => exact enterState_kept k _ s
  | idle => exact .refl _ s
  | latched => exact .refl _ s

theorem keyPosition_kept (k : KeyId) (down : Bool) (s : State) : EventsKept s (keyPosition k down s) := by
  have hflag : ∀ r, EventsKept s (s.setKey k r) := fun r => .of_touches (setKey_touches s k r)
  have hflush : ∀ u, EventsKept u (flushLamps u) := fun u => .of_touches (flushLamps_touches u)
  unfold keyPosition
  split
  · exact .refl _ s
  · cases down with
    | true => exact ((hflag _).trans (press_kept k _)).trans (hflush _)
    | false => exact ((hflag _).trans (release_kept k _)).trans (hflush _)

theorem reconcile_kept (p : PanelId) (map : BitVec 32) (s : State) : EventsKept s (reconcile p map s) :=
  .foldl (fun t n => keyPosition_kept (keyIndex p n) _ t) _ s

theorem panelOnline_kept (p : PanelId) (map : BitVec 32) (s : State) : EventsKept s (panelOnline p map s) := by
  have hfirst : ∀ r, EventsKept s (startSilence p (s.setPanel p r)) := fun r =>
    .trans (.of_touches (setPanel_touches s p r)) (.of_touches (startSilence_touches p _))
  have hlast : ∀ u r, EventsKept u (raise .panelOnline (some p.val) (u.setPanel p r)) := fun u r =>
    .trans (.of_touches (setPanel_touches u p r)) (raise_kept _ _ _)
  unfold panelOnline
  exact ((hfirst _).trans (reconcile_kept p map _)).trans (hlast _ _)

theorem turnEncoder_kept (p : PanelId) (i : Fin 4) (delta : Int) (s : State) : EventsKept s (turnEncoder p i delta s) := by
  have hset : ∀ r, EventsKept s (s.setPanel p r) := fun r => .of_touches (setPanel_touches s p r)
  have hmove : ∀ e n u, EventsKept u (moveTarget p e n u) := fun e n u => by
    unfold moveTarget
    split
    · split
      · exact .of_touches (setDest_touches u _ _)
      · exact .refl _ u
    · have hk : ∀ k r, EventsKept u (u.setKey k r) := fun k r => .of_touches (setKey_touches u k r)
      dsimp only
      split
      · exact (hk _ _).trans (.of_touches (writeEntryLevel_touches _ _ _ _))
      · exact hk _ _
  unfold turnEncoder
  dsimp only
  split
  · exact hset _
  · exact (hset _).trans (hmove _ _ _)

theorem keyCellAtOnline_kept (p : PanelId) (c : KeyCell) (s : State) : EventsKept s (keyCellAtOnline p c s) := by
  cases c with
  | event key position =>
    unfold keyCellAtOnline
    dsimp only
    split
    · split
      · exact keyPosition_kept _ _ s
      · split
        · exact keyPosition_kept _ _ s
        · exact .refl _ s
    · exact .refl _ s
  | map positions => exact reconcile_kept p positions s
  | encoder index delta =>
    unfold keyCellAtOnline
    dsimp only
    split
    · exact turnEncoder_kept p _ _ s
    · exact .refl _ s

theorem handleKeyCell_kept (x : PortId) (node : Byte) (c : KeyCell) (s : State) :
    EventsKept s (handleKeyCell x node c s) := by
  unfold handleKeyCell
  split
  · exact .refl _ s
  · next p _ =>
    split
    · have h : EventsKept s (startSilence p s) := .of_touches (startSilence_touches p s)
      exact h.trans (keyCellAtOnline_kept p c _)
    · cases c with
      | event key position => exact .refl _ s
      | map positions => exact panelOnline_kept p positions s
      | encoder index delta => exact .refl _ s
    · exact .refl _ s

/-! ## Circuits -/

theorem setCircuit_kept (c : CircuitId) (r : Circuit) (s : State) : EventsKept s (s.setCircuit c r) :=
  .of_touches (setCircuit_touches s c r)

theorem declareLost_kept (c : CircuitId) (s : State) : EventsKept s (declareLost c s) := by
  unfold declareLost
  dsimp only
  split
  · exact (setCircuit_kept c _ s).trans (raise_kept _ _ _)
  · exact setCircuit_kept c _ s

theorem loseOldest_kept (c : CircuitId) (n : Nat) (s : State) : EventsKept s (loseOldest c n s) := by
  induction n generalizing s with
  | zero => exact .refl _ s
  | succ n ih => exact ((declareLost_kept c s).trans (setCircuit_kept c _ _)).trans (ih _)

theorem measure_kept (c : CircuitId) (m : Nat) (s : State) : EventsKept s (measure c m s) := by
  unfold measure
  dsimp only
  split
  · exact (setCircuit_kept c _ s).trans (raise_kept _ _ _)
  · exact setCircuit_kept c _ s

theorem acceptEcho_kept (c : CircuitId) (tag : BitVec 15) (arrival : Count) (s : State) :
    EventsKept s (acceptEcho c tag arrival s) := by
  unfold acceptEcho
  dsimp only
  split
  · exact setCircuit_kept c _ s
  · split
    · exact .refl _ s
    · exact (loseOldest_kept c _ s).trans (measure_kept c _ _)

theorem handleEcho_kept (p : PortId) (node circuit : Byte) (tag : BitVec 16) (arrival : Count) (s : State) :
    EventsKept s (handleEcho p node circuit tag arrival s) := by
  unfold handleEcho
  split
  · exact .refl _ s
  · dsimp only
    split
    · exact .refl _ s
    · split
      · exact acceptEcho_kept _ _ arrival s
      · exact setCircuit_kept _ _ s

theorem returnFrame_kept (c : CircuitId) (peak : Nat) (s : State) : EventsKept s (returnFrame c peak s) := by
  unfold returnFrame
  dsimp only
  split
  · split
    · exact (setCircuit_kept c _ s).trans (raise_kept _ _ _)
    · exact setCircuit_kept c _ s
  · exact setCircuit_kept c _ s

theorem returnFrames_kept (n : SourceId) (peak : Nat) (s : State) : EventsKept s (returnFrames n peak s) :=
  .foldl (fun t c => by
    split
    · exact returnFrame_kept c peak t
    · exact .refl _ t) _ s

/-! ## A frame -/

theorem offerOrder_kept (o : OrderCell) (s : State) : EventsKept s (offerOrder o s) := by
  unfold offerOrder
  split
  · exact .of_events rfl id
  · exact raise_kept _ _ s

theorem routeCell_kept (x : PortId) (arrival : Count) (s : State) (cell : List Byte) :
    EventsKept s (routeCell x arrival s cell) := by
  unfold routeCell
  dsimp only
  split
  · exact .refl _ s
  · cases cellKindOf (byteAt cell 0) with
    | none => exact .refl _ s
    | some kind =>
      cases kind with
      | order =>
        dsimp only
        split
        · exact offerOrder_kept _ s
        · exact .refl _ s
      | keyEvent => exact handleKeyCell_kept x _ _ s
      | keyMap => exact handleKeyCell_kept x _ _ s
      | encoder => exact handleKeyCell_kept x _ _ s
      | echo => exact handleEcho_kept x _ _ _ arrival s
      | reply => exact .refl _ s
      | notice => exact .refl _ s
      | lamp => exact .refl _ s
      | cadence => exact .refl _ s
      | probe => exact .refl _ s

theorem takePeaks_kept (x : PortId) (b : BufferPosition) (s : State) : EventsKept s (takePeaks x b s) :=
  .foldl (fun t i => by
    have h : EventsKept t (foldPeak (slotNumber x i) (peakOf (b.slot i)) t) := .of_touches (foldPeak_touches _ _ t)
    exact h.trans (returnFrames_kept _ _ _)) _ s

theorem stampFrame_kept (x : PortId) (f : Frame) (pos : Fin 3) (stamp : Count) (s : State) :
    EventsKept s (stampFrame x f pos stamp s) := by
  have h : ∀ r, EventsKept s (s.setPort x r) := fun r => .of_touches (setPort_touches s x r)
  exact (h _).trans (takePeaks_kept x _ _)

theorem acceptAudio_kept (x : PortId) (f : Frame) (s : State) : EventsKept s (acceptAudio x f s) := by
  have h : ∀ r, EventsKept s (s.setPort x r) := fun r => .of_touches (setPort_touches s x r)
  unfold acceptAudio
  dsimp only
  split
  · exact stampFrame_kept x f _ _ s
  · split
    · exact stampFrame_kept x f _ _ s
    · exact (h _).trans (raise_kept _ _ _)

theorem routeCells_kept (x : PortId) (arrival : Count) (l : List (List Byte)) (s : State) :
    EventsKept s (l.foldl (routeCell x arrival) s) :=
  .foldl (fun t cell => routeCell_kept x arrival t cell) l s

theorem lockPort_eq (x : PortId) (s : State) :
    lockPort x s = linkBack x (s.setPort x { s.port x with state := .up, missCount := 0, settling := true }) := rfl

theorem lockPort_kept (x : PortId) (s : State) : EventsKept s (lockPort x s) := by
  have h : ∀ r, EventsKept s (s.setPort x r) := fun r => .of_touches (setPort_touches s x r)
  exact (h _).trans (linkBack_rises x _).kept

end Sys2Proof.Machine
end

section
/-! PROOF. A frame at its port: its stamp, its peaks, its slip, and the port's way to lock (R1 to R8, R18, R48, R173). -/

namespace Sys2Proof.Machine

/-! ## A frame's audio -/

/-- Whatever becomes of its audio, a frame leaves the next period's position filled, and of its port's record changes
only the buffer and the slips. -/
structure AudioTaken (x : PortId) (s t : State) : Prop where
  others : ∀ y, y ≠ x → t.port y = s.port y
  stamped : (tget (t.port x).buffer (s.timing.position + 1)).stamp = some (s.timing.period + 1)
  record : ∃ b n, t.port x = { s.port x with buffer := b, slips := n }

/-- R6: the position that a frame fills, as the buffer then keeps it. -/
def Frame.kept (f : Frame) (stamp : Count) : BufferPosition :=
  { stamp := some stamp, width := f.width, slotCount := f.slotCount, slots := f.slots }

theorem takePeaks_peak (x : PortId) (b : BufferPosition) (s : State) (i : Fin 64) :
    ((takePeaks x b s).source (slotNumber x i)).peakHold =
      max (s.source (slotNumber x i)).peakHold (peakOf (b.slot i)) := by
  have hslot : ∀ j k : Fin 64, slotNumber x j = slotNumber x k → j = k := fun j k h => by
    have := congrArg Fin.val h
    simp only [slotNumber] at this
    exact Fin.ext (by omega)
  have hstep : ∀ (t : State) (j : Fin 64) (n : SourceId),
      (returnFrames (slotNumber x j) (peakOf (b.slot j)) (foldPeak (slotNumber x j) (peakOf (b.slot j)) t)).source n =
        if n = slotNumber x j then { t.source n with peakHold := max (t.source n).peakHold (peakOf (b.slot j)) }
        else t.source n := fun t j n => by
    have h := congrArg (tget · n) (returnFrames_touches (slotNumber x j) (peakOf (b.slot j))
      (foldPeak (slotNumber x j) (peakOf (b.slot j)) t)).sources
    refine h.trans ((State.source_setSource t (slotNumber x j) _ n).trans ?_)
    split
    · next hn => rw [hn]
    · rfl
  have h := foldl_each (get := fun t j => (t.source (slotNumber x j)).peakHold) (R := fun _ => True)
    (f := fun t i => returnFrames (slotNumber x i) (peakOf (b.slot i)) (foldPeak (slotNumber x i) (peakOf (b.slot i)) t))
    (h := fun j v => max v (peakOf (b.slot j))) (fun _ _ h => h)
    (fun t j k hk => by rw [hstep, if_neg fun he => hk (hslot k j he)])
    (fun t j _ => by rw [hstep, if_pos rfl])
    (allOf_nodup 64) (t := s) trivial i
  rw [if_pos (mem_allOf i)] at h
  exact h

theorem stampFrame_port (x : PortId) (f : Frame) (pos : Fin 3) (stamp : Count) (s : State) (y : PortId) :
    (stampFrame x f pos stamp s).port y =
      if y = x then { s.port x with buffer := tset (s.port x).buffer pos (f.kept stamp) } else s.port y := by
  have h := congrArg (tget · y) (takePeaks_touches x (f.kept stamp)
    (s.setPort x { s.port x with buffer := tset (s.port x).buffer pos (f.kept stamp) })).ports
  exact h.trans (State.port_setPort s x _ y)

theorem stampFrame_peak (x : PortId) (f : Frame) (pos : Fin 3) (stamp : Count) (s : State) (i : Fin 64) :
    ((stampFrame x f pos stamp s).source (slotNumber x i)).peakHold =
      max (s.source (slotNumber x i)).peakHold (peakOf ((f.kept stamp).slot i)) :=
  takePeaks_peak x (f.kept stamp) _ i

/-- R7: the position of the next period is free, or it is not and the one after it is, or neither. -/
theorem acceptAudio_eq (x : PortId) (f : Frame) (s : State) :
    let held := fun i => (tget (s.port x).buffer i).stamp
    let m := s.timing.period
    let p := s.timing.position
    (held (p + 1) ≠ some (m + 1) → acceptAudio x f s = stampFrame x f (p + 1) (m + 1) s) ∧
      (held (p + 1) = some (m + 1) → held (p + 2) ≠ some (m + 2) →
        acceptAudio x f s = stampFrame x f (p + 2) (m + 2) s) ∧
      (held (p + 1) = some (m + 1) → held (p + 2) = some (m + 2) →
        acceptAudio x f s =
          raise .slip (some x.val) (s.setPort x { s.port x with slips := satInc 65535 (s.port x).slips })) := by
  intro held m p
  refine ⟨fun h => if_pos h, fun h1 h2 => (if_neg (not_not.2 h1)).trans (if_pos h2), fun h1 h2 => ?_⟩
  exact (if_neg (not_not.2 h1)).trans (if_neg (not_not.2 h2))

theorem slip_port (x : PortId) (s : State) (y : PortId) :
    (raise .slip (some x.val) (s.setPort x { s.port x with slips := satInc 65535 (s.port x).slips })).port y =
      if y = x then { s.port x with slips := satInc 65535 (s.port x).slips } else s.port y := by
  refine (congrArg (tget · y) (raise_touches .slip (some x.val)
    (s.setPort x { s.port x with slips := satInc 65535 (s.port x).slips })).ports).trans ?_
  exact State.port_setPort s x _ y

theorem acceptAudio_port (x : PortId) (f : Frame) (s : State) : AudioTaken x s (acceptAudio x f s) := by
  obtain ⟨h1, h2, h3⟩ := acceptAudio_eq x f s
  by_cases ha : (tget (s.port x).buffer (s.timing.position + 1)).stamp = some (s.timing.period + 1)
  · by_cases hb : (tget (s.port x).buffer (s.timing.position + 2)).stamp = some (s.timing.period + 2)
    · rw [h3 ha hb]
      refine ⟨fun y hy => (slip_port x s y).trans (if_neg hy), ?_, ?_⟩
      · rw [slip_port, if_pos rfl]
        exact ha
      · exact ⟨_, _, (slip_port x s x).trans (if_pos rfl)⟩
    · rw [h2 ha hb]
      refine ⟨fun y hy => (stampFrame_port x f _ _ s y).trans (if_neg hy), ?_, ?_⟩
      · rw [stampFrame_port, if_pos rfl]
        dsimp only
        rw [tget_tset, if_neg]
        · exact ha
        · exact fun h => absurd (add_left_cancel h) (by decide)
      · exact ⟨_, _, (stampFrame_port x f _ _ s x).trans (if_pos rfl)⟩
  · rw [h1 ha]
    refine ⟨fun y hy => (stampFrame_port x f _ _ s y).trans (if_neg hy), ?_, ?_⟩
    · rw [stampFrame_port, if_pos rfl]
      dsimp only
      rw [tget_tset, if_pos rfl]
      rfl
    · exact ⟨_, _, (stampFrame_port x f _ _ s x).trans (if_pos rfl)⟩

/-! ## A frame taken whole -/

/-- What a frame's cells and the lamps derived at its end leave alone. -/
theorem frameEnd_touches (x : PortId) (arrival : Count) (l : List (List Byte)) (v : State) :
    Touches cellFields v (flushLamps (l.foldl (routeCell x arrival) v)) :=
  (Touches.foldl (fun t cell => routeCell_touches x arrival t cell) l v).trans (flushLamps_touches _).up

theorem frameEnd_kept (x : PortId) (arrival : Count) (l : List (List Byte)) (v : State) :
    EventsKept v (flushLamps (l.foldl (routeCell x arrival) v)) :=
  (routeCells_kept x arrival l v).trans (.of_touches (flushLamps_touches _))

theorem frameAt_disabled {x : PortId} {s : State} (h : (s.port x).state = .disabled) (bytes : List Byte) :
    frameAt x bytes s = s := by
  unfold frameAt
  dsimp only
  rw [h]

theorem frameAt_bad {x : PortId} {bytes : List Byte} {s : State} (h : (s.port x).state ≠ .disabled)
    (hb : readFrame bytes = none) :
    frameAt x bytes s =
      raise .frameError (some x.val) (s.setPort x { s.port x with frameErrors := satInc 65535 (s.port x).frameErrors }) := by
  unfold frameAt
  dsimp only
  rw [hb]
  cases hs : (s.port x).state with
  | disabled => exact absurd hs h
  | down => rfl
  | locking => rfl
  | up => rfl
  | holdover => rfl

theorem frameAt_good {x : PortId} {bytes : List Byte} {f : Frame} {s : State} (h : (s.port x).state ≠ .disabled)
    (hb : readFrame bytes = some f) :
    frameAt x bytes s = if (s.port x).state.carries then acceptFrame x f s else countFrame x f s := by
  unfold frameAt
  dsimp only
  rw [hb]
  cases hs : (s.port x).state with
  | disabled => exact absurd hs h
  | down => rfl
  | locking => rfl
  | up => rfl
  | holdover => rfl

theorem exec_frameArrival {s : State} (ha : s.awake = true) (x : PortId) (bytes : List Byte) :
    exec (.frameArrival x bytes) s = .next (flushLamps (frameAt x bytes s)) :=
  (show exec (.frameArrival x bytes) s = event true (fun s => flushLamps (frameAt x bytes s)) s from rfl).trans
    (event_taken ha rfl)

/-- A frame that touches no lamp leaves none to derive. -/
theorem exec_frameArrival_lampless {l : List Fld} {s : State} (ha : s.awake = true) (hs : Settled s) {x : PortId}
    {bytes : List Byte} (ht : Touches l s (frameAt x bytes s)) (hl : Fld.lampDirty ∉ l := by decide) :
    exec (.frameArrival x bytes) s = .next (frameAt x bytes s) := by
  rw [exec_frameArrival ha, flushLamps_settled ((ht _ hl).trans hs.1)]

/-- Settles O18. -/
theorem framesStamped : Obligations.FramesStamped := by
  intro x bytes f s ha _ hf hc m p held kept folded
  have hd : (s.port x).state ≠ .disabled := fun h => by
    rw [h] at hc
    cases hc
  have hexec : exec (.frameArrival x bytes) s =
      .next (flushLamps (f.cells.foldl (routeCell x s.timing.sample) (acceptAudio x f s))) := by
    rw [exec_frameArrival ha, frameAt_good hd hf, if_pos hc]
    rfl
  have hend := frameEnd_touches x s.timing.sample f.cells (acceptAudio x f s)
  have hkept := frameEnd_kept x s.timing.sample f.cells (acceptAudio x f s)
  have haudio := (acceptAudio_touches x f s).up (m := frameFields)
  refine ⟨_, hexec, rfl, haudio.trans hend.up, ?_⟩
  revert hend hkept
  generalize flushLamps (f.cells.foldl (routeCell x s.timing.sample) (acceptAudio x f s)) = t
  intro hend hkept
  have hport : ∀ y, t.port y = (acceptAudio x f s).port y := fun y => congrArg (tget · y) hend.ports
  have hsource : ∀ n, t.source n = (acceptAudio x f s).source n := fun n => congrArg (tget · n) hend.sources
  obtain ⟨h1, h2, h3⟩ := acceptAudio_eq x f s
  refine ⟨fun y hy => (hport y).trans ((acceptAudio_port x f s).others y hy), fun g1 => ⟨?_, fun i => ?_⟩,
    fun g1 g2 => ⟨?_, fun i => ?_⟩, fun g1 g2 => ⟨?_, ?_, ?_⟩⟩
  · rw [hport, h1 g1]
    exact (stampFrame_port x f _ _ s x).trans (if_pos rfl)
  · rw [hsource, h1 g1]
    exact stampFrame_peak x f _ _ s i
  · rw [hport, h2 g1 g2]
    exact (stampFrame_port x f _ _ s x).trans (if_pos rfl)
  · rw [hsource, h2 g1 g2]
    exact stampFrame_peak x f _ _ s i
  · rw [hport, h3 g1 g2]
    exact (slip_port x s x).trans (if_pos rfl)
  · have h : t.sources = (acceptAudio x f s).sources := hend.sources
    rw [h3 g1 g2] at h
    exact h.trans ((raise_touches _ _ _).sources.trans (setPort_touches s x _).sources)
  · refine hkept.keeps ?_
    rw [h3 g1 g2, raise_event]
    rfl

end Sys2Proof.Machine
end

section
/-! PROOF. A frame at a port that is not yet UP: the count of its frames, and the eighth (R1, R3, R4, R18, R173). -/

namespace Sys2Proof.Machine

/-- R4: the record of a port that its eighth frame in a row takes UP. -/
def Port.locked (r : Port) (seq : BitVec 16) : Port :=
  { r with state := .up, lockCount := r.lockCount + 1, lastSeq := some seq, missCount := 0, settling := true }

/-- A state with one port record written anew. -/
structure PortWritten (s t : State) (x : PortId) (r : Port) : Prop where
  touches : Touches [.ports] s t
  self : t.port x = r
  others : ∀ y, y ≠ x → t.port y = s.port y

theorem setPort_written (s : State) (x : PortId) (r : Port) : PortWritten s (s.setPort x r) x r where
  touches := setPort_touches s x r
  self := (State.port_setPort s x r x).trans (if_pos rfl)
  others y hy := (State.port_setPort s x r y).trans (if_neg hy)

theorem PortWritten.again {s t : State} {x : PortId} {r : Port} (h : PortWritten s t x r) (q : Port) :
    PortWritten s (t.setPort x q) x q where
  touches := h.touches.trans (setPort_touches t x q)
  self := (State.port_setPort t x q x).trans (if_pos rfl)
  others y hy := ((State.port_setPort t x q y).trans (if_neg hy)).trans (h.others y hy)

theorem counted_first {r : Port} {seq : BitVec 16} (h : ¬(r.state = .locking ∧ r.lastSeq = some (seq - 1))) :
    r.counted seq = { r with state := .locking, lockCount := 1, lastSeq := some seq } := by
  unfold Port.counted
  dsimp only
  rw [if_neg h]

theorem counted_next {r : Port} {seq : BitVec 16} (hs : r.state = .locking) (hl : r.lastSeq = some (seq - 1)) :
    r.counted seq = { r with state := .locking, lockCount := r.lockCount + 1, lastSeq := some seq } := by
  unfold Port.counted
  dsimp only
  rw [if_pos ⟨hs, hl⟩]

theorem countFrame_short {x : PortId} {f : Frame} {s : State} (h : ((s.port x).counted f.seq).lockCount < 8) :
    countFrame x f s = s.setPort x ((s.port x).counted f.seq) := if_neg (Nat.not_le.2 h)

theorem countFrame_locks {x : PortId} {f : Frame} {s : State} (hs : (s.port x).state = .locking)
    (hl : (s.port x).lastSeq = some (f.seq - 1)) (hn : 7 ≤ (s.port x).lockCount) :
    ∃ v, PortWritten s v x ((s.port x).locked f.seq) ∧ countFrame x f s = acceptFrame x f (linkBack x v) := by
  have hcount := counted_next hs hl
  have hw := setPort_written s x ((s.port x).counted f.seq)
  have h8 : 8 ≤ ((s.port x).counted f.seq).lockCount := by
    rw [hcount]
    exact Nat.succ_le_succ hn
  have hrec : { (s.setPort x ((s.port x).counted f.seq)).port x with state := .up, missCount := 0, settling := true } =
      (s.port x).locked f.seq := by
    rw [hw.self, hcount]
    rfl
  refine ⟨_, hw.again ((s.port x).locked f.seq), ?_⟩
  rw [← hrec, ← lockPort_eq]
  exact if_pos h8

theorem linkBack_touches_settled (x : PortId) {v : State} (h : v.timing.atBoundary = false) :
    Touches [.events, .notices, .circuits, .reference] v (linkBack x v) := by
  have h1 := (raise_touches_settled .portUp (some x.val) h).up (m := [.events, .notices, .circuits, .reference])
  exact (h1.trans (fieldPortUp_touches x _).up).trans (referenceBack_touches _ _).up

theorem linkBack_raised (x : PortId) {v : State} (h : v.timing.atBoundary = false) :
    Raised v (linkBack x v) .portUp (some x.val) := by
  have hr := raise_raised .portUp (some x.val) v h
  have ht : Touches [.circuits, .reference] (raise .portUp (some x.val) v) (linkBack x v) :=
    (fieldPortUp_touches x _).up.trans (referenceBack_touches _ _).up
  obtain ⟨h1, h2, h3⟩ := hr
  exact ⟨(ht.event _).trans h1, fun j hj => (ht.event j).trans (h2 j hj), ht.notices.trans h3⟩

theorem Raised.of_touches {s v t : State} {k : EventKind} {i : Option Nat} {l : List Fld} (h : Touches l s v)
    (g : Raised v t k i) (he : Fld.events ∉ l := by decide) (hn : Fld.notices ∉ l := by decide)
    (hc : Fld.clock ∉ l := by decide) : Raised s t k i := by
  have hev : ∀ j, v.event j = s.event j := fun j => h.event j he
  obtain ⟨g1, g2, g3⟩ := g
  rw [hev] at g1 g3
  rw [h.notices hn, (h .clock hc).1] at g3
  exact ⟨g1, fun j hj => (g2 j hj).trans (hev j), g3⟩

/-- R4, R18, R173: what the port's rise leaves, before the frame's audio and cells. -/
theorem rise_answers {s v : State} {x : PortId} {r : Port} (hset : s.timing.atBoundary = false)
    (h : PortWritten s v x r) :
    Touches [.ports, .events, .notices, .circuits, .reference] s (linkBack x v) ∧
      Raised s (linkBack x v) .portUp (some x.val) ∧ (linkBack x v).port x = r ∧
      (∀ y, y ≠ x → (linkBack x v).port y = s.port y) ∧
      (∀ c,
        ((s.circuit c).state = .linkLost ∧ s.CircuitOn (s.circuit c) (fun y => y = x) →
          (linkBack x v).circuit c = s.restarted (s.circuit c)) ∧
        (¬((s.circuit c).state = .linkLost ∧ s.CircuitOn (s.circuit c) (fun y => y = x)) →
          (linkBack x v).circuit c = s.circuit c)) ∧
      (linkBack x v).timing.selected = s.timing.selected ∧ (linkBack x v).timing.active = s.timing.active ∧
      (linkBack x v).timing.pending =
        (if s.timing.selected = .port x then (if s.timing.active = .port x then none else some (.port x))
        else s.timing.pending) := by
  have hv : v.timing = s.timing := h.touches.timing
  have hat : v.timing.atBoundary = false := by rw [hv]; exact hset
  have hback := linkBack_touches_settled x hat
  have hcirc : ∀ c, v.circuit c = s.circuit c := fun c => h.touches.circuit c
  have hon : ∀ c, v.OnPort (fun st => st = .linkLost) x (v.circuit c) ↔
      ((s.circuit c).state = .linkLost ∧ s.CircuitOn (s.circuit c) (fun y => y = x)) := fun c => by
    rw [hcirc, OnPort.congr h.touches.stations]
    exact onPort_iff
  have hrest : ∀ c, v.restarted (v.circuit c) = s.restarted (s.circuit c) := fun c => by
    rw [hcirc]
    unfold State.restarted
    rw [hv]
  have hport : ∀ y, (linkBack x v).port y = v.port y := fun y => congrArg (tget · y) hback.ports
  obtain ⟨ht1, ht2⟩ := linkBack_timing x v
  refine ⟨h.touches.up.trans hback.up, .of_touches h.touches (linkBack_raised x hat), (hport x).trans h.self,
    fun y hy => (hport y).trans (h.others y hy), fun c => ⟨fun hc => ?_, fun hc => ?_⟩, ?_⟩
  · rw [(linkBack_circuit x v c).1 ((hon c).2 hc), hrest]
  · rw [(linkBack_circuit x v c).2 (mt (hon c).1 hc), hcirc]
  · by_cases hsel : s.timing.selected = .port x
    · rw [ht1 (by rw [hv]; exact hsel), hv]
      exact ⟨rfl, rfl, (if_pos hsel).symm⟩
    · rw [ht2 (by rw [hv]; exact hsel), hv]
      exact ⟨rfl, rfl, (if_neg hsel).symm⟩

/-- R1: a frame at a DISABLED port, and a bad frame. -/
theorem frame_unused {x : PortId} {bytes : List Byte} {s : State} (ha : s.awake = true) (hs : Settled s) :
    ((s.port x).state = .disabled → exec (.frameArrival x bytes) s = .next s) ∧
      ((s.port x).state ≠ .disabled → readFrame bytes = none →
        ∃ t, exec (.frameArrival x bytes) s = .next t ∧
          t.port x = { s.port x with frameErrors := satInc 65535 (s.port x).frameErrors } ∧
          (∀ y, y ≠ x → t.port y = s.port y) ∧ Raised s t .frameError (some x.val) ∧
          Touches [.ports, .events, .notices] s t) := by
  refine ⟨fun hd => ?_, fun hd hb => ?_⟩
  · rw [exec_frameArrival_lampless (l := []) ha hs (by rw [frameAt_disabled hd]; exact Touches.refl _ s),
      frameAt_disabled hd]
  · have hw := setPort_written s x { s.port x with frameErrors := satInc 65535 (s.port x).frameErrors }
    have hat : (s.setPort x { s.port x with frameErrors := satInc 65535 (s.port x).frameErrors }).timing.atBoundary = false :=
      hs.2
    have hraise := raise_touches_settled .frameError (some x.val) hat
    have ht := hw.touches.up.trans (hraise.up (m := [.ports, .events, .notices]))
    have hport := fun y => congrArg (tget · y) hraise.ports
    refine ⟨_, ?_, (hport x).trans hw.self, fun y hy => (hport y).trans (hw.others y hy),
      .of_touches hw.touches (raise_raised _ _ _ hat), ht⟩
    rw [← frameAt_bad hd hb] at ht ⊢
    exact exec_frameArrival_lampless ha hs ht

/-- R3: a good frame that does not complete the count. -/
theorem frame_counted {x : PortId} {bytes : List Byte} {f : Frame} {s : State} (ha : s.awake = true) (hs : Settled s)
    (hf : readFrame bytes = some f) (hd : (s.port x).state = .down ∨ (s.port x).state = .locking)
    (h8 : ((s.port x).counted f.seq).lockCount < 8) :
    ∃ t, exec (.frameArrival x bytes) s = .next t ∧ t.port x = (s.port x).counted f.seq ∧
      (∀ y, y ≠ x → t.port y = s.port y) ∧ Touches [.ports] s t := by
  have hw := setPort_written s x ((s.port x).counted f.seq)
  have hframe : frameAt x bytes s = s.setPort x ((s.port x).counted f.seq) := by
    rw [frameAt_good (by rcases hd with h | h <;> rw [h] <;> decide) hf, if_neg, countFrame_short h8]
    rcases hd with h | h <;> rw [h] <;> decide
  refine ⟨_, ?_, hw.self, hw.others, hw.touches⟩
  rw [exec_frameArrival_lampless ha hs (by rw [hframe]; exact hw.touches), hframe]

/-- Settles O17. -/
theorem framesBeforeUp : Obligations.FramesBeforeUp := by
  refine ⟨fun x bytes s ha hs => frame_unused ha hs, fun x bytes f s ha hs hf => ⟨fun hd => ?_, fun hl hq => ?_,
    fun hl hq h7 => ?_, fun hl hq h7 => ?_⟩⟩
  · have hc := counted_first (r := s.port x) (seq := f.seq) (by rw [hd]; exact fun h => nomatch h.1)
    have := frame_counted (x := x) ha hs hf (.inl hd) (by rw [hc]; exact Nat.one_lt_ofNat)
    rwa [hc] at this
  · have hc := counted_first (r := s.port x) (seq := f.seq) fun h => hq h.2
    have := frame_counted (x := x) ha hs hf (.inr hl) (by rw [hc]; exact Nat.one_lt_ofNat)
    rwa [hc, ← hl] at this
  · have hc := counted_next hl hq
    have := frame_counted (x := x) ha hs hf (.inr hl) (by rw [hc]; exact Nat.succ_lt_succ h7)
    rwa [hc, ← hl] at this
  · obtain ⟨v, hw, he⟩ := countFrame_locks hl hq h7
    obtain ⟨hut, hraised, hself, hothers, hcircuits, htiming⟩ := rise_answers hs.2 hw
    have hexec : exec (.frameArrival x bytes) s = .next (flushLamps (acceptFrame x f (linkBack x v))) := by
      rw [exec_frameArrival ha, frameAt_good (by rw [hl]; decide) hf, if_neg (by rw [hl]; decide), he]
    have hflag : ((linkBack x v).event .portUp).isSet = true := linkBack_portUp x v
    revert hut hraised hself hothers hcircuits htiming hexec hflag
    generalize linkBack x v = u
    intro hut hraised hself hothers hcircuits htiming hexec hflag
    have hclock := hut .clock (by decide)
    have hsample : u.timing.sample = s.timing.sample := hclock.2.1
    have hend := frameEnd_touches x s.timing.sample f.cells (acceptAudio x f u)
    have hkept := frameEnd_kept x s.timing.sample f.cells (acceptAudio x f u)
    have hflush : flushLamps (acceptFrame x f u) =
        flushLamps (f.cells.foldl (routeCell x s.timing.sample) (acceptAudio x f u)) := by
      rw [← hsample]
      rfl
    obtain ⟨ho, hstamp, b, n, hrec⟩ := acceptAudio_port x f u
    rw [hclock.2.2.2, hclock.1] at hstamp
    have hport : ∀ y, (flushLamps (f.cells.foldl (routeCell x s.timing.sample) (acceptAudio x f u))).port y =
        (acceptAudio x f u).port y := fun y => congrArg (tget · y) hend.ports
    rw [hflush] at hexec
    refine ⟨_, hexec, ?_, ?_, ?_, ?_, fun y hy => ?_, ?_, ?_, ?_, u, rfl, hut, hraised, hself, hcircuits, htiming⟩
    · rw [hport, hrec, hself]
      rfl
    · rw [hport, hrec, hself]
      rfl
    · rw [hport, hrec, hself]
      rfl
    · rw [hport, hrec, hself]
      rfl
    · rw [hport, ho y hy, hothers y hy]
    · exact hkept.keeps ((acceptAudio_kept x f u).keeps hflag)
    · exact (hut.up.trans (acceptAudio_touches x f u).up).trans hend.up
    · rw [hport]
      exact hstamp

end Sys2Proof.Machine
end

section
/-! PROOF. Where the cells of an accepted frame go (R23, R41, R102, R106, R165). -/

namespace Sys2Proof.Machine

/-! ## The kinds of cells -/

theorem cellKindOf_code (k : CellKind) : cellKindOf k.code = some k := by cases k <;> rfl

theorem code_of_cellKindOf {b : Byte} {k : CellKind} (h : cellKindOf b = some k) : b = k.code := by
  unfold cellKindOf at h
  exact (eq_of_beq (List.find?_some (p := fun k : CellKind => k.code == b) h)).symm

/-- The kinds of the cells that a part takes. -/
def CellKind.taken : CellKind → Bool
  | .order | .keyEvent | .keyMap | .encoder | .echo => true
  | .reply | .notice | .lamp | .cadence | .probe => false

theorem CellKind.code_taken {k : CellKind} (h : k.taken = true) : k.code ∈ ([0x01, 0x10, 0x11, 0x12, 0x21] : List Byte) := by
  cases k with
  | order => decide
  | keyEvent => decide
  | keyMap => decide
  | encoder => decide
  | echo => decide
  | reply => cases h
  | notice => cases h
  | lamp => cases h
  | cadence => cases h
  | probe => cases h

section

variable {x : PortId} {arrival : Count} {cell : List Byte} {s : State}

theorem routeCell_long (h : 28 < (byteAt cell 3).toNat) : routeCell x arrival s cell = s := if_pos h

/-- R23: what a cell of a kind does. -/
def cellWork (k : CellKind) (x : PortId) (arrival : Count) (cell : List Byte) (s : State) : State :=
  match k with
  | .order =>
    if x = s.straps.mgmt ∧ byteAt cell 1 = s.ownNode then offerOrder { tag := byteAt cell 2, body := cellBody cell } s
    else s
  | .keyEvent => handleKeyCell x (byteAt cell 1) (.event (byteAt (cellBody cell) 0) (byteAt (cellBody cell) 1)) s
  | .keyMap => handleKeyCell x (byteAt cell 1) (.map (u32At (cellBody cell) 0)) s
  | .encoder => handleKeyCell x (byteAt cell 1) (.encoder (byteAt (cellBody cell) 0) (byteAt (cellBody cell) 1)) s
  | .echo => handleEcho x (byteAt cell 1) (byteAt (cellBody cell) 2) (u16At (cellBody cell) 0) arrival s
  | .reply | .notice | .lamp | .cadence | .probe => s

theorem routeCell_kind {k : CellKind} (hl : (byteAt cell 3).toNat ≤ 28) (hk : byteAt cell 0 = k.code) :
    routeCell x arrival s cell = cellWork k x arrival cell s := by
  unfold routeCell
  dsimp only
  rw [if_neg (Nat.not_lt.2 hl), hk, cellKindOf_code]
  cases k <;> rfl

theorem routeCell_untaken (h : byteAt cell 0 ∉ ([0x01, 0x10, 0x11, 0x12, 0x21] : List Byte)) :
    routeCell x arrival s cell = s := by
  by_cases hl : 28 < (byteAt cell 3).toNat
  · exact routeCell_long hl
  cases hk : cellKindOf (byteAt cell 0) with
  | none =>
    unfold routeCell
    dsimp only
    rw [if_neg hl, hk]
  | some k =>
    have hcode := code_of_cellKindOf hk
    have hnot : k.taken = false := eq_false_of_ne_true fun ht => h (by rw [hcode]; exact CellKind.code_taken ht)
    rw [routeCell_kind (Nat.not_lt.1 hl) hcode]
    cases k with
    | order => cases hnot
    | keyEvent => cases hnot
    | keyMap => cases hnot
    | encoder => cases hnot
    | echo => cases hnot
    | reply => rfl
    | notice => rfl
    | lamp => rfl
    | cadence => rfl
    | probe => rfl

/-- R23: an ORDER cell. -/
theorem routeCell_order (hb : s.timing.atBoundary = false) (hk : byteAt cell 0 = 1) (hl : (byteAt cell 3).toNat ≤ 28) :
    (x ≠ s.straps.mgmt ∨ byteAt cell 1 ≠ s.straps.node.setWidth 8 → routeCell x arrival s cell = s) ∧
      (x = s.straps.mgmt → byteAt cell 1 = s.straps.node.setWidth 8 →
        (s.orders.length < 16 →
          routeCell x arrival s cell =
            { s with orders := s.orders ++ [{ tag := byteAt cell 2, body := cellBody cell }] }) ∧
        (16 ≤ s.orders.length →
          Raised s (routeCell x arrival s cell) .cellOverflow (some x.val) ∧
            Touches [.events, .notices] s (routeCell x arrival s cell))) := by
  have hroute := routeCell_kind (x := x) (arrival := arrival) (s := s) (k := .order) hl hk
  refine ⟨fun hn => ?_, fun hx hnode => ?_⟩
  · rw [hroute]
    exact if_neg fun h => hn.elim (fun hx => hx h.1) fun hnode => hnode h.2
  · have hoffer : routeCell x arrival s cell = offerOrder { tag := byteAt cell 2, body := cellBody cell } s := by
      rw [hroute]
      exact if_pos ⟨hx, hnode⟩
    refine ⟨fun hroom => ?_, fun hfull => ?_⟩
    · rw [hoffer]
      exact if_pos hroom
    · have hraise : routeCell x arrival s cell = raise .cellOverflow (some x.val) s := by
        rw [hoffer, hx]
        exact if_neg (Nat.not_lt.2 hfull)
      rw [hraise]
      exact ⟨raise_raised _ _ s hb, raise_touches_settled _ _ hb⟩

/-! ## Cells of panels -/

/-- R102: the panel that a cell from port x with the header node given is for. -/
def State.Addressed (s : State) (x : PortId) (node : Byte) (p : PanelId) : Prop :=
  (s.panel p).configured = true ∧ (s.panel p).port = x ∧ (s.panel p).node.toNat = node.toNat

theorem addressed_iff {node : Byte} {p : PanelId} :
    ((s.panel p).configured && (s.panel p).port == x && (s.panel p).node.toNat == node.toNat) = true ↔
      s.Addressed x node p := by
  simp [State.Addressed, and_assoc]

theorem panelAt_none {node : Byte} (h : ∀ p, ¬s.Addressed x node p) : s.panelAt x node = none :=
  List.find?_eq_none.2 fun p _ hp => h p (addressed_iff.1 hp)

theorem panelAt_unique {node : Byte} {p : PanelId} (hp : s.Addressed x node p) (hq : ∀ q, s.Addressed x node q → q = p) :
    s.panelAt x node = some p := by
  cases h : s.panelAt x node with
  | none => exact absurd (addressed_iff.2 hp) (List.find?_eq_none.1 h p (mem_allOf p))
  | some q =>
    unfold State.panelAt at h
    have hpass := List.find?_some (p := fun q =>
      (s.panel q).configured && (s.panel q).port == x && (s.panel q).node.toNat == node.toNat) h
    rw [hq q (addressed_iff.1 hpass)]

theorem handleKeyCell_online {node : Byte} {p : PanelId} (h : s.panelAt x node = some p) (ho : (s.panel p).online = .online)
    (c : KeyCell) : handleKeyCell x node c s = keyCellAtOnline p c (startSilence p s) := by
  unfold handleKeyCell
  rw [h]
  dsimp only
  rw [ho]

theorem handleKeyCell_unconfigured {node : Byte} {p : PanelId} (h : s.panelAt x node = some p)
    (ho : (s.panel p).online = .unconfigured) (c : KeyCell) : handleKeyCell x node c s = s := by
  unfold handleKeyCell
  rw [h]
  dsimp only
  rw [ho]

theorem handleKeyCell_map {node : Byte} {p : PanelId} (h : s.panelAt x node = some p)
    (ho : (s.panel p).online = .offline) (m : BitVec 32) : handleKeyCell x node (.map m) s = panelOnline p m s := by
  unfold handleKeyCell
  rw [h]
  dsimp only
  rw [ho]

theorem handleKeyCell_event {node : Byte} {p : PanelId} (h : s.panelAt x node = some p)
    (ho : (s.panel p).online = .offline) (i j : Byte) : handleKeyCell x node (.event i j) s = s := by
  unfold handleKeyCell
  rw [h]
  dsimp only
  rw [ho]

theorem handleKeyCell_encoder {node : Byte} {p : PanelId} (h : s.panelAt x node = some p)
    (ho : (s.panel p).online = .offline) (i j : Byte) : handleKeyCell x node (.encoder i j) s = s := by
  unfold handleKeyCell
  rw [h]
  dsimp only
  rw [ho]

/-- R102, R106: a cell at an ONLINE panel, once its silence timer has restarted. -/
theorem keyCellAtOnline_eq (p : PanelId) (c : KeyCell) (u : State) :
    keyCellAtOnline p c u =
      match c with
      | .event key position =>
        if h : key.toNat < 32 then
          if position = 0 then keyPosition (keyIndex p ⟨key.toNat, h⟩) false u
          else if position = 1 then keyPosition (keyIndex p ⟨key.toNat, h⟩) true u
          else u
        else u
      | .map positions => (allOf 32).foldl (fun v n => keyPosition (keyIndex p n) (positions.getLsbD n.val) v) u
      | .encoder index delta => if h : index.toNat < 4 then turnEncoder p ⟨index.toNat, h⟩ delta.toInt u else u := by
  cases c with
  | event key position =>
    by_cases h : key.toNat < 32
    · have hi : indexIn 32 key.toNat = some ⟨key.toNat, h⟩ := dif_pos h
      simp only [keyCellAtOnline, hi, dif_pos h]
    · have hi : indexIn 32 key.toNat = none := dif_neg h
      simp only [keyCellAtOnline, hi, dif_neg h]
  | map positions => rfl
  | encoder index delta =>
    by_cases h : index.toNat < 4
    · have hi : indexIn 4 index.toNat = some ⟨index.toNat, h⟩ := dif_pos h
      simp only [keyCellAtOnline, hi, dif_pos h]
    · have hi : indexIn 4 index.toNat = none := dif_neg h
      simp only [keyCellAtOnline, hi, dif_neg h]

/-- A key cell of one of the three kinds is handed to the panels. -/
theorem routeCell_key {c : KeyCell} (hl : (byteAt cell 3).toNat ≤ 28)
    (hc : byteAt cell 0 = 0x10 ∧ c = .event (byteAt (cellBody cell) 0) (byteAt (cellBody cell) 1) ∨
      byteAt cell 0 = 0x11 ∧ c = .map (u32At (cellBody cell) 0) ∨
      byteAt cell 0 = 0x12 ∧ c = .encoder (byteAt (cellBody cell) 0) (byteAt (cellBody cell) 1)) :
    routeCell x arrival s cell = handleKeyCell x (byteAt cell 1) c s := by
  rcases hc with ⟨hk, rfl⟩ | ⟨hk, rfl⟩ | ⟨hk, rfl⟩
  · exact routeCell_kind (k := .keyEvent) hl hk
  · exact routeCell_kind (k := .keyMap) hl hk
  · exact routeCell_kind (k := .encoder) hl hk

/-! ## Echoes -/

/-- R165: the circuit takes an echo from port x with the header node given. -/
def State.EchoTaken (s : State) (x : PortId) (node : Byte) (c : CircuitId) : Prop :=
  (s.circuit c).state ≠ .disabled ∧ s.circuitOf x (s.circuit c) ∧ node.toNat = (s.circuit c).gateway.toNat

theorem circuitPort_eq_some {c : CircuitId} : s.circuitPort c = some x ↔ s.circuitOf x (s.circuit c) := Option.map_eq_some_iff

theorem handleEcho_of {node circuit : Byte} {tag : BitVec 16} {c : CircuitId} (h : circuit.toNat = c.val) :
    handleEcho x node circuit tag arrival s =
      if (s.circuit c).state = .disabled ∨ s.circuitPort c ≠ some x ∨ node.toNat ≠ (s.circuit c).gateway.toNat then s
      else if tag.toNat < 32768 then acceptEcho c (tag.setWidth 15) arrival s
      else s.setCircuit c { s.circuit c with strayEchoes := satInc 65535 (s.circuit c).strayEchoes } := by
  unfold handleEcho
  rw [indexIn_of_eq h]

theorem echoTaken_iff {node : Byte} {c : CircuitId} :
    ((s.circuit c).state = .disabled ∨ s.circuitPort c ≠ some x ∨ node.toNat ≠ (s.circuit c).gateway.toNat) ↔
      ¬s.EchoTaken x node c := by
  unfold State.EchoTaken
  rw [← circuitPort_eq_some]
  tauto

theorem routeCell_echo (hl : (byteAt cell 3).toNat ≤ 28) (hk : byteAt cell 0 = 0x21) :
    routeCell x arrival s cell =
      handleEcho x (byteAt cell 1) (byteAt (cellBody cell) 2) (u16At (cellBody cell) 0) arrival s :=
  routeCell_kind (k := .echo) hl hk

end

/-- Settles O19. -/
theorem orderCellsQueued : Obligations.OrderCellsQueued := by
  refine ⟨fun x arrival cell s hb => ⟨routeCell_long, fun hk hl => routeCell_order hb hk hl, routeCell_untaken⟩,
    fun x arrival cell c s hl => ?_, fun x arrival cell s hl hk => ?_⟩
  · intro b hc t addressed
    have ht : t = handleKeyCell x (byteAt cell 1) c s := routeCell_key hl hc
    refine ⟨fun hn => ?_, fun p hp hq => ?_⟩
    · rw [ht, handleKeyCell, panelAt_none hn]
    · have hat := panelAt_unique hp hq
      intro u
      refine ⟨fun ho => ht.trans (handleKeyCell_unconfigured hat ho c), fun ho => ?_, fun ho => ?_⟩
      · cases c with
        | event key position => exact ht.trans (handleKeyCell_event hat ho key position)
        | map positions => exact ht.trans (handleKeyCell_map hat ho positions)
        | encoder index delta => exact ht.trans (handleKeyCell_encoder hat ho index delta)
      · rw [ht, handleKeyCell_online hat ho]
        exact (keyCellAtOnline_eq p c u).trans (by cases c <;> rfl)
  · intro b t
    have ht : t = handleEcho x (byteAt cell 1) (byteAt b 2) (u16At b 0) arrival s := routeCell_echo hl hk
    refine ⟨fun h16 => ?_, fun c hc => ?_⟩
    · rw [ht, handleEcho, indexIn_eq_none h16]
    · intro r taken
      have hof := handleEcho_of (x := x) (node := byteAt cell 1) (tag := u16At b 0) (arrival := arrival) (s := s) hc
      refine ⟨fun hn => ?_, fun hy => ⟨fun hlt => ?_, fun hge => ?_⟩⟩
      · rw [ht, hof]
        exact if_pos (echoTaken_iff.2 hn)
      · rw [ht, hof, if_neg (mt echoTaken_iff.1 (not_not.2 hy)), if_pos hlt]
      · rw [ht, hof, if_neg (mt echoTaken_iff.1 (not_not.2 hy)), if_neg (Nat.not_lt.2 hge)]

end Sys2Proof.Machine
end

section
/-! PROOF. What a property needs that every command keeps: the cases of the 64 commands, taken once (R27, R28, R31). -/

namespace Sys2Proof.Machine

/-- What the invariants of queues, arbiters and lamps do not read, beside the notices. -/
abbrev asideFields : List Fld :=
  [.notices, .phase, .straps, .restart, .clock, .reference, .ports, .probeQueues, .lampPositions, .block, .lastUnit,
    .unitTaken, .sources, .dests, .nextSerial, .circuits, .taps, .cadences, .events, .sent, .draws, .pending]

/-- A change of none of that, which keeps the notices within their queue. -/
structure Aside (s t : State) : Prop where
  touches : Touches asideFields s t
  notices : s.notices.length ≤ 8 → t.notices.length ≤ 8

/-- A property I that every command keeps: R is what it is within an order's unit while there is room for a reply, M when
the reply has been given. -/
structure CommandsKeep (I R M : State → Prop) : Prop where
  start : ∀ st s, I (start st s)
  blank : ∀ ph st dr pe, I (State.blank ph st dr pe)
  aside : ∀ {s t}, Aside s t → I s → I t
  frame : ∀ x bytes s, I s → I (flushLamps (frameAt x bytes s))
  boundary : ∀ s, I s → I (boundary s)
  latch : ∀ k s, I s → I (flushLamps (enterState k .momentaryOn s))
  wink : ∀ k s, I s → I (flushLamps (stopWink k s))
  caller : ∀ p x s, I s → I (flushLamps (removeCaller p x s))
  silence : ∀ p s, (s.panel p).online = .online → I s → I (panelOffline p s)
  enter : ∀ s, s.replyRoom 1 = true → I s → R (takeHead s)
  step : ∀ s, s.replyRoom 1 = true → I s → R (takeStep s)
  restart : ∀ s, I s → M (takeHead s)
  clear : ∀ tag s, s.replyRoom (s.roomNeeded .clearDynamic) = true → I s → M (clearDynamicUnit tag (takeHead s))
  asideR : ∀ {s t}, Aside s t → R s → R t
  asideM : ∀ {s t}, Aside s t → M s → M t
  done : ∀ s, R s → M s
  replied : ∀ tag c r m l s, R s → M (reply tag c r m l s)
  flush : ∀ s, M s → I (flushLamps s)
  lose : ∀ x st s, R s → R (losePort x st s)
  dest : ∀ d l s, R s → R (writeDest d l s).1
  station : ∀ x l s, R s → R (writeStation x l s).1
  panel : ∀ p l s, R s → R (writePanel p l s).1
  key : ∀ k l s, R s → R (writeKey k l s).1
  party : ∀ p l s, R s → R (writeParty p l s).1
  tap : ∀ x l s, R s → R (writeTap x l s).1
  cadence : ∀ c l s, R s → R (writeCadence c l s).1
  arrive : ∀ l c a d s, R s → R (arrive .static l c a d s).1
  depart : ∀ a d s, R s → R (depart .static a d s)
  level : ∀ l a d s, R s → R (writeEntryLevel l a d s)
  join : ∀ tag p x l s, R s → M (partyJoinUnit tag p x l s)
  leave : ∀ tag p x s, R s → M (partyLeaveUnit tag p x s)
  flags : ∀ tag p x n v s, R s → M (partyFlagsUnit tag p x n v s)

theorem Aside.of_touches {l : List Fld} {s t : State} (h : Touches l s t)
    (hl : (l.all fun f => asideFields.contains f) = true := by rfl) (hn : .notices ∉ l := by decide) : Aside s t :=
  ⟨h.up hl, fun h8 => by rw [h.notices hn]; exact h8⟩

theorem Aside.of_kept {l : List Fld} {s t : State} (h : Touches l s t) (he : EventsKept s t)
    (hl : (l.all fun f => asideFields.contains f) = true := by rfl) : Aside s t := ⟨h.up hl, he.notices⟩

theorem referenceBack_aside (r : RefSource) (s : State) : Aside s (referenceBack r s) :=
  .of_touches (referenceBack_touches r s)

theorem referenceGone_aside (r : RefSource) (s : State) : Aside s (referenceGone r s) :=
  .of_kept (referenceGone_touches r s) (referenceGone_rises r s).kept

theorem selectReference_kept (r : RefSource) (s : State) : EventsKept s (selectReference r s) := by
  unfold selectReference
  dsimp only
  split
  · exact .of_events rfl id
  · exact (raise_rises_retimed none _ s).kept

namespace CommandsKeep

variable {I R M : State → Prop}

/-! ## Events, orders and block steps -/

theorem quiet (h : CommandsKeep I R M) {l : List Fld} {s t : State} (ht : Touches l s t) (hs : R s)
    (hl : (l.all fun f => asideFields.contains f) = true := by rfl) (hn : .notices ∉ l := by decide) : R t :=
  h.asideR (.of_touches ht hl hn) hs

theorem quietM (h : CommandsKeep I R M) {l : List Fld} {s t : State} (ht : Touches l s t) (hs : M s)
    (hl : (l.all fun f => asideFields.contains f) = true := by rfl) (hn : .notices ∉ l := by decide) : M t :=
  h.asideM (.of_touches ht hl hn) hs

theorem order (h : CommandsKeep I R M) {tag : Byte} {o : Order} {unit : State → State} {s t : State}
    (hn : ∀ u : State, u.roomNeeded o = 1) (hu : ∀ u, R u → M (unit u)) (he : Machine.order tag o unit s = .next t)
    (hs : I s) : I t := by
  cases hr : s.orderReady tag o with
  | false =>
    rw [order_waits hr] at he
    cases he
    exact hs
  | true =>
    rw [order_taken hr] at he
    cases he
    have hroom : s.replyRoom 1 = true := by
      unfold State.orderReady at hr
      rw [hn s] at hr
      exact (Bool.and_eq_true_iff.1 hr).2
    exact h.flush _ (hu _ (h.enter s hroom hs))

theorem blockStep (h : CommandsKeep I R M) {f : Block → State → Option State} {s t : State}
    (hf : ∀ b u v, R u → f b u = some v → M v) (he : takeBlockStep f s = .next t) (hs : I s) : I t := by
  unfold takeBlockStep at he
  cases he
  cases hb : s.block with
  | none => exact hs
  | some b =>
    dsimp only
    split
    · next hr =>
      have hroom : s.replyRoom 1 = true := (Bool.and_eq_true_iff.1 hr).2
      cases hx : f b (takeStep s) with
      | none => exact hs
      | some v => exact h.flush _ (hf b _ v (h.step s hroom hs) hx)
    · exact hs

/-! ## Record writes -/

theorem port (h : CommandsKeep I R M) (x : PortId) (l : List FieldValue) (s : State) (hs : R s) :
    R (writePort x l s).1 := by
  have hset : ∀ {u : State} r, R u → R (u.setPort x r) := fun {u} r hu => h.quiet (setPort_touches u x r) hu
  unfold writePort
  split
  · exact hs
  · split
    · exact hs
    · dsimp only
      split
      · split
        · exact h.quiet (enablePort_touches x _) (hset _ hs)
        · unfold disablePort
          dsimp only
          split
          · exact h.lose x _ _ (hset _ (hset _ hs))
          · exact hset _ (hset _ (hset _ hs))
      · exact hset _ hs

theorem writeRecord (h : CommandsKeep I R M) (t : TableName) (i : Nat) (l : List FieldValue) (s : State) (hs : R s) :
    R (Machine.writeRecord t i l s).1 := by
  have hat : ∀ {n : Nat} (w : Fin n → State → Written), (∀ j, R (w j s).1) → R (atIndex n i w s).1 := by
    intro n w hw
    unfold atIndex
    split
    · exact hw _
    · exact hs
  cases t with
  | port =>
    unfold Machine.writeRecord
    dsimp only
    split
    · unfold writeReference
      split
      · exact hs
      · exact h.asideR (.of_kept (selectReference_touches _ s) (selectReference_kept _ s)) hs
    · exact hat _ fun x => h.port x l s hs
  | source => exact hat _ fun n => h.quiet (writeSource_touches n l s) hs
  | destination => exact hat _ fun d => h.dest d l s hs
  | station => exact hat _ fun x => h.station x l s hs
  | panel => exact hat _ fun p => h.panel p l s hs
  | key => exact hat _ fun k => h.key k l s hs
  | party => exact hat _ fun p => h.party p l s hs
  | circuit => exact hat _ fun c => h.quiet (writeCircuit_touches c l s) hs
  | tap => exact hat _ fun x => h.tap x l s hs
  | cadence => exact hat _ fun c => h.cadence c l s hs
  | event => exact hat _ fun k => h.quiet (writeEvent_touches k l s) hs

theorem recordWrite (h : CommandsKeep I R M) (t : TableName) (i area : Nat) (m : BitVec 32) (v : List Byte) (s : State)
    (hs : R s) : R (Machine.recordWrite t i area m v s).1 := by
  unfold Machine.recordWrite
  split
  · exact h.writeRecord t i _ s hs
  · exact hs

theorem writeUnit (h : CommandsKeep I R M) (tag t : Byte) (i : BitVec 16) (m : BitVec 32) (v : List Byte) (s : State)
    (hs : R s) : M (Machine.writeUnit tag t i m v s) := by
  unfold Machine.writeUnit
  dsimp only
  split
  · exact h.replied _ _ _ _ _ s hs
  · exact h.replied _ _ _ _ _ _ (h.recordWrite _ _ _ m v s hs)

theorem row (h : CommandsKeep I R M) {tn : TableName} {r : Nat → List FieldValue → Bool} {tag : Byte} {i : BitVec 16}
    {m : BitVec 32} {v : List Byte} {s t : State} (he : writeRow tn r tag i m v s = .next t) (hs : I s) : I t := by
  unfold writeRow at he
  split at he
  · exact h.order (fun _ => rfl) (fun u hu => h.writeUnit tag tn.code i m v u hu) he hs
  · cases he
    exact hs

/-! ## Blocks -/

theorem acceptBlock (h : CommandsKeep I R M) {b : Block} {busy : State → State} {s : State} (hb : M (busy s)) (hs : R s) :
    M (Machine.acceptBlock b busy s) := by
  unfold Machine.acceptBlock
  split
  · exact hb
  · exact h.done _ (h.quiet (withBlock_touches s (some b)) hs)

theorem blockReadUnit (h : CommandsKeep I R M) (tag t : Byte) (i : BitVec 16) (m : BitVec 32) (n : BitVec 16) (d : Byte)
    (s : State) (hs : R s) : M (Machine.blockReadUnit tag t i m n d s) := by
  have hrefuse : ∀ r, M (blockReadReply tag r true t (unstated 2) 0 noValues s) := fun r => h.replied _ _ _ _ _ s hs
  unfold Machine.blockReadUnit
  dsimp only
  split
  · exact hrefuse _
  · split
    · exact hrefuse _
    · split
      · exact hrefuse _
      · exact h.acceptBlock (hrefuse _) hs

theorem fillUnit (h : CommandsKeep I R M) (tag t : Byte) (i : BitVec 16) (m : BitVec 32) (n : BitVec 16) (d : Byte)
    (v : List Byte) (s : State) (hs : R s) : M (Machine.fillUnit tag t i m n d v s) := by
  have hrefuse : ∀ r, M (fillReply tag r t (unstated 2) 0 s) := fun r => h.replied _ _ _ _ _ s hs
  unfold Machine.fillUnit
  dsimp only
  split
  · exact hrefuse _
  · split
    · exact hrefuse _
    · split
      · exact hrefuse _
      · exact h.acceptBlock (hrefuse _) hs

theorem meterUnit (h : CommandsKeep I R M) (tag i n : Byte) (s : State) (hs : R s) : M (Machine.meterUnit tag i n s) := by
  have hrefuse : ∀ r, M (meterReply tag r true 0 none [] s) := fun r => h.replied _ _ _ _ _ s hs
  unfold Machine.meterUnit
  dsimp only
  split
  · exact hrefuse _
  · exact h.acceptBlock (hrefuse _) hs

theorem fillStep (h : CommandsKeep I R M) (b : Block) (t : TableName) (m : BitVec 32) (down : Bool) (v : List Byte)
    (s : State) (hs : R s) : M (Machine.fillStep b t m down v s) := by
  have hw := h.recordWrite t b.next 16 m v s hs
  have hblock : ∀ {u : State} x, R u → R (u.withBlock x) := fun {u} x hu => h.quiet (withBlock_touches u x) hu
  unfold Machine.fillStep
  dsimp only
  split
  · split
    · exact h.replied _ _ _ _ _ _ (hblock none hw)
    · exact h.done _ (hblock _ hw)
  · exact h.replied _ _ _ _ _ _ (hblock none hw)

theorem blockReadStep (h : CommandsKeep I R M) (b : Block) (t : TableName) (m : BitVec 32) (down : Bool) (s : State)
    (hs : R s) : M (Machine.blockReadStep b t m down s) := by
  have hblock : ∀ x, R (s.withBlock x) := fun x => h.quiet (withBlock_touches s x) hs
  unfold Machine.blockReadStep
  dsimp only
  split
  · exact h.replied _ _ _ _ _ _ (hblock _)
  · exact h.replied _ _ _ _ _ _ (hblock none)

theorem meterStep (h : CommandsKeep I R M) (b : Block) (s : State) (hs : R s) : M (Machine.meterStep b s) := by
  have hpeaks : ∀ (l : List SourceId) (u : State), M u →
      M (l.foldl (fun t n => t.setSource n { t.source n with peakHold := 0 }) u) := fun l u hu =>
    foldl_keeps (P := M) (fun t n ht => h.quietM (setSource_touches t n _) ht) l u hu
  unfold Machine.meterStep
  exact h.quietM (withBlock_touches _ _) (hpeaks _ _ (h.replied _ _ _ _ _ s hs))

theorem routeListStep (h : CommandsKeep I R M) (b : Block) (d : DestId) (place : Option Nat) (s : State) (hs : R s) :
    M (Machine.routeListStep b d place s) := by
  unfold Machine.routeListStep
  exact h.replied _ _ _ _ _ _ (h.quiet (withBlock_touches s _) hs)

/-! ## Routes -/

theorem eachRoute {α β : Type} {f : α → State → State × β} (hf : ∀ x u, R u → R (f x u).1) (l : List α) (s : State)
    (hs : R s) : R (Machine.eachRoute f l s).1 := StoreClosed.eachRoute hf l s hs

theorem addRoute (h : CommandsKeep I R M) (r : RouteArg) (s : State) (hs : R s) : R (Machine.addRoute r s).1 := by
  unfold Machine.addRoute
  dsimp only
  split
  · exact hs
  · split
    · exact hs
    · split
      · exact hs
      · split
        · exact hs
        · exact h.arrive _ _ _ _ s hs

theorem removeRoute (h : CommandsKeep I R M) (r : PairArg) (s : State) (hs : R s) : R (Machine.removeRoute r s).1 := by
  unfold Machine.removeRoute
  dsimp only
  split
  · exact h.depart _ _ s hs
  · exact hs

theorem nudgeRoute (h : CommandsKeep I R M) (down : Bool) (n : Nat) (r : PairArg) (s : State) (hs : R s) :
    R (Machine.nudgeRoute down n r s).1 := by
  unfold Machine.nudgeRoute
  dsimp only
  split
  · exact hs
  · split
    · exact h.level _ _ _ s hs
    · exact hs

theorem routeAddUnit (h : CommandsKeep I R M) (tag n : Byte) (l : List RouteArg) (s : State) (hs : R s) :
    M (Machine.routeAddUnit tag n l s) := by
  unfold Machine.routeAddUnit
  dsimp only
  split
  · exact h.replied _ _ _ _ _ _ (eachRoute (fun r u hu => h.addRoute r u hu) l s hs)
  · exact h.replied _ _ _ _ _ s hs

theorem routeRemoveUnit (h : CommandsKeep I R M) (tag n : Byte) (l : List PairArg) (s : State) (hs : R s) :
    M (Machine.routeRemoveUnit tag n l s) := by
  unfold Machine.routeRemoveUnit
  dsimp only
  split
  · exact h.replied _ _ _ _ _ _ (eachRoute (fun r u hu => h.removeRoute r u hu) l s hs)
  · exact h.replied _ _ _ _ _ s hs

theorem routeNudgeUnit (h : CommandsKeep I R M) (tag n d k : Byte) (l : List PairArg) (s : State) (hs : R s) :
    M (Machine.routeNudgeUnit tag n d k l s) := by
  unfold Machine.routeNudgeUnit
  dsimp only
  split
  · exact h.replied _ _ _ _ _ s hs
  · split
    · split
      · exact h.replied _ _ _ _ _ _ (eachRoute (fun r u hu => h.nudgeRoute _ _ r u hu) l s hs)
      · exact h.replied _ _ _ _ _ s hs
    · exact h.replied _ _ _ _ _ s hs

theorem swapUnit (h : CommandsKeep I R M) (tag a b : Byte) (s : State) (hs : R s) : M (Machine.swapUnit tag a b s) := by
  have hout : ∀ l d u, R u → R (clearStatics l d u) := fun l d u hu =>
    foldl_keeps (P := R) (fun t e ht => h.depart e.source d t ht) l u hu
  have hin : ∀ l d u, R u → R (placeStatics l d u) := fun l d u hu =>
    foldl_keeps (P := R) (fun t e ht => h.arrive e.level e.cls e.source d t ht) l u hu
  unfold Machine.swapUnit
  dsimp only
  split
  · unfold swapStatics
    exact h.replied _ _ _ _ _ _ (hin _ _ _ (hin _ _ _ (hout _ _ _ (hout _ _ _ hs))))
  · exact h.replied _ _ _ _ _ s hs

/-! ## The other units -/

theorem readUnit (h : CommandsKeep I R M) (tag t : Byte) (i : BitVec 16) (m : BitVec 32) (s : State) (hs : R s) :
    M (Machine.readUnit tag t i m s) := by
  unfold Machine.readUnit
  dsimp only
  split
  · exact h.replied _ _ _ _ _ s hs
  · split
    · exact h.replied _ _ _ _ _ s hs
    · exact h.replied _ _ _ _ _ s hs

theorem statusReadUnit (h : CommandsKeep I R M) (tag : Byte) (k : BitVec 16) (s : State) (hs : R s) :
    M (Machine.statusReadUnit tag k s) := by
  unfold Machine.statusReadUnit
  dsimp only
  split
  · exact h.replied _ _ _ _ _ s hs
  · exact h.replied _ _ _ _ _ s hs

theorem statusClearUnit (h : CommandsKeep I R M) (tag : Byte) (k : BitVec 16) (s : State) (hs : R s) :
    M (Machine.statusClearUnit tag k s) := by
  have hclear : R (clearKinds k s) := foldl_keeps (P := R) (fun t e ht => by
    split
    · exact h.quiet (setEvent_touches t e _) ht
    · exact ht) allKinds s hs
  unfold Machine.statusClearUnit
  dsimp only
  split
  · exact h.replied _ _ _ _ _ s hs
  · exact h.replied _ _ _ _ _ _ hclear

end CommandsKeep

end Sys2Proof.Machine
end

section
/-! PROOF. A property is kept by every command when it is kept by the moves that CommandsKeep names. -/

namespace Sys2Proof.Machine

namespace CommandsKeep

variable {I R M : State → Prop}

/-- A step that only times, and touches nothing the property reads. -/
theorem event_aside (h : CommandsKeep I R M) {can : Bool} {f : State → State} {s t : State} (hf : Aside s (f s))
    (he : event can f s = .next t) (hs : I s) : I t := event_keeps (P := I) (h.aside hf) he hs

theorem refclkAbsent (h : CommandsKeep I R M) {s t : State} (he : execRefclkAbsent s = .next t) (hs : I s) : I t :=
  event_keeps (P := I) (f := fun s => referenceGone .refclk (setRefclk false s))
    (fun hs => h.aside (referenceGone_aside _ _) (h.aside (.of_touches (setRefclk_touches false s)) hs)) he hs

theorem refclkPresent (h : CommandsKeep I R M) {s t : State} (he : execRefclkPresent s = .next t) (hs : I s) : I t :=
  event_keeps (P := I) (f := fun s => referenceBack .refclk (setRefclk true s))
    (fun hs => h.aside (referenceBack_aside _ _) (h.aside (.of_touches (setRefclk_touches true s)) hs)) he hs

theorem intervalTimerExpiry (h : CommandsKeep I R M) (c : CircuitId) {s t : State}
    (he : execIntervalTimerExpiry c s = .next t) (hs : I s) : I t :=
  event_keeps (P := I) (f := fun s => requestProbe c (startInterval c s)) (fun hs =>
    h.aside (.of_touches (requestProbe_touches c _)) (h.aside (.of_touches (startInterval_touches c s)) hs)) he hs

theorem probeTimeout (h : CommandsKeep I R M) (c : CircuitId) (x : BitVec 15) {s t : State}
    (he : execProbeTimeout c x s = .next t) (hs : I s) : I t :=
  h.event_aside (.of_kept (timeoutProbe_touches c x s) ((declareLost_kept c s).trans (setCircuit_kept c _ _))) he hs

theorem silenceTimerExpiry (h : CommandsKeep I R M) (p : PanelId) {s t : State}
    (he : execSilenceTimerExpiry p s = .next t) (hs : I s) : I t := by
  unfold execSilenceTimerExpiry at he
  by_cases ho : (s.panel p).online = .online
  · exact event_keeps (P := I) (h.silence p s ho) he hs
  · have hdue : s.silenceDue p = false := by simp [State.silenceDue, ho]
    rw [event_idle (.inr hdue)] at he
    cases he
    exact hs

theorem powerOn (h : CommandsKeep I R M) (x : Straps) {s t : State} (he : execPowerOn x s = .next t) : I t := by
  unfold execPowerOn at he
  split at he
  · cases he
    exact h.start x s
  · cases he
    exact h.blank _ _ _ _

theorem resetNRelease (h : CommandsKeep I R M) (x : Straps) {s t : State} (he : execResetNRelease x s = .next t) (hs : I s) :
    I t := by
  unfold execResetNRelease at he
  split at he
  · cases he
    exact hs
  · cases he
    exact h.start x s

theorem restartStart (h : CommandsKeep I R M) (x : Straps) {s t : State} (he : execRestartStart x s = .next t) (hs : I s) :
    I t := by
  unfold execRestartStart at he
  split at he
  · cases he
    exact h.start x s
  · cases he
    exact hs

theorem restartOrder (h : CommandsKeep I R M) (tag : Byte) {s t : State} (he : execRestart tag s = .next t) (hs : I s) :
    I t := by
  unfold execRestart at he
  cases hr : s.orderReady tag .restart with
  | false =>
    rw [order_waits hr] at he
    cases he
    exact hs
  | true =>
    rw [order_taken hr] at he
    have hm : M (restartUnit (takeHead s)) := h.quietM (restartUnit_touches (takeHead s)) (h.restart s hs)
    generalize restartUnit (takeHead s) = u at he hm
    cases he
    exact h.flush u hm

theorem clearDynamic (h : CommandsKeep I R M) (tag : Byte) {s t : State} (he : execClearDynamic tag s = .next t)
    (hs : I s) : I t := by
  unfold execClearDynamic at he
  cases hr : s.orderReady tag .clearDynamic with
  | false =>
    rw [order_waits hr] at he
    cases he
    exact hs
  | true =>
    rw [order_taken hr] at he
    have hm := h.clear tag s (Bool.and_eq_true_iff.1 hr).2 hs
    generalize clearDynamicUnit tag (takeHead s) = u at he hm
    cases he
    exact h.flush u hm

theorem blockReadSteps (h : CommandsKeep I R M) {s t : State} (he : execBlockReadStep s = .next t) (hs : I s) : I t := by
  refine h.blockStep (fun b u v hu hv => ?_) he hs
  split at hv
  · cases hv
    exact h.blockReadStep b _ _ _ u hu
  all_goals cases hv

theorem fillSteps (h : CommandsKeep I R M) {s t : State} (he : execFillStep s = .next t) (hs : I s) : I t := by
  refine h.blockStep (fun b u v hu hv => ?_) he hs
  split at hv
  · cases hv
    exact h.fillStep b _ _ _ _ u hu
  all_goals cases hv

theorem meterReadSteps (h : CommandsKeep I R M) {s t : State} (he : execMeterReadStep s = .next t) (hs : I s) : I t := by
  refine h.blockStep (fun b u v hu hv => ?_) he hs
  split at hv
  · cases hv
    exact h.meterStep b u hu
  all_goals cases hv

theorem routeListSteps (h : CommandsKeep I R M) {s t : State} (he : execRouteListStep s = .next t) (hs : I s) : I t := by
  refine h.blockStep (fun b u v hu hv => ?_) he hs
  split at hv
  · cases hv
    exact h.routeListStep b _ _ u hu
  all_goals cases hv

/-- Every command keeps the property. -/
theorem exec (h : CommandsKeep I R M) (c : Instr) {s t : State} (he : Machine.exec c s = .next t) (hs : I s) : I t := by
  cases c
  case powerOn => exact h.powerOn _ he
  case resetNAssert =>
    cases he
    exact h.blank _ _ _ _
  case resetNRelease => exact h.resetNRelease _ he hs
  case restartStart => exact h.restartStart _ he hs
  case frameArrival x bytes => exact event_keeps (P := I) (f := fun s => flushLamps (frameAt x bytes s)) (h.frame x bytes s) he hs
  case periodBoundary => exact event_keeps (P := I) (h.boundary s) he hs
  case sampleInstant => exact h.event_aside (.of_touches (sampleTick_touches s)) he hs
  case refclkAbsent => exact h.refclkAbsent he hs
  case refclkPresent => exact h.refclkPresent he hs
  case latchWindowExpiry k =>
    exact event_keeps (P := I) (f := fun s => flushLamps (enterState k .momentaryOn s)) (h.latch k s) he hs
  case winkTimerExpiry k => exact event_keeps (P := I) (f := fun s => flushLamps (stopWink k s)) (h.wink k s) he hs
  case silenceTimerExpiry => exact h.silenceTimerExpiry _ he hs
  case replyExpiry p x =>
    exact event_keeps (P := I) (f := fun s => flushLamps (removeCaller p x s)) (h.caller p x s) he hs
  case intervalTimerExpiry => exact h.intervalTimerExpiry _ he hs
  case probeTimeout => exact h.probeTimeout _ _ he hs
  case recordRead => exact h.order (fun _ => rfl) (fun u hu => h.readUnit _ _ _ _ u hu) he hs
  case recordWrite => exact h.order (fun _ => rfl) (fun u hu => h.writeUnit _ _ _ _ _ u hu) he hs
  case blockRead => exact h.order (fun _ => rfl) (fun u hu => h.blockReadUnit _ _ _ _ _ _ u hu) he hs
  case fill => exact h.order (fun _ => rfl) (fun u hu => h.fillUnit _ _ _ _ _ _ _ u hu) he hs
  case meterRead => exact h.order (fun _ => rfl) (fun u hu => h.meterUnit _ _ _ u hu) he hs
  case routeList =>
    exact h.order (fun _ => rfl) (fun u hu => h.acceptBlock (h.replied _ _ _ _ _ u hu) hu) he hs
  case blockReadStep => exact h.blockReadSteps he hs
  case fillStep => exact h.fillSteps he hs
  case meterReadStep => exact h.meterReadSteps he hs
  case routeListStep => exact h.routeListSteps he hs
  case routeAdd => exact h.order (fun _ => rfl) (fun u hu => h.routeAddUnit _ _ _ u hu) he hs
  case routeRemove => exact h.order (fun _ => rfl) (fun u hu => h.routeRemoveUnit _ _ _ u hu) he hs
  case routeNudge => exact h.order (fun _ => rfl) (fun u hu => h.routeNudgeUnit _ _ _ _ _ u hu) he hs
  case swap => exact h.order (fun _ => rfl) (fun u hu => h.swapUnit _ _ _ u hu) he hs
  case partyJoin => exact h.order (fun _ => rfl) (fun u hu => h.join _ _ _ _ u hu) he hs
  case partyLeave => exact h.order (fun _ => rfl) (fun u hu => h.leave _ _ _ u hu) he hs
  case partyFlags => exact h.order (fun _ => rfl) (fun u hu => h.flags _ _ _ _ _ u hu) he hs
  case statusRead => exact h.order (fun _ => rfl) (fun u hu => h.statusReadUnit _ _ u hu) he hs
  case statusClear => exact h.order (fun _ => rfl) (fun u hu => h.statusClearUnit _ _ u hu) he hs
  case clearDynamic => exact h.clearDynamic _ he hs
  case restart => exact h.restartOrder _ he hs
  case unlistedOrderCode => exact h.order (fun _ => rfl) (fun u hu => h.replied _ _ _ _ _ u hu) he hs
  all_goals exact h.row he hs

end CommandsKeep

end Sys2Proof.Machine
end

section
/-! PROOF. The lamp unit's and the boundary's marks are clear between commands (R188, R15), and the queues keep within
their capacities (R24, R27). -/

namespace Sys2Proof.Machine

/-! ## The two marks -/

/-- No boundary is being taken. -/
def Unmarked (s : State) : Prop := s.timing.atBoundary = false

theorem Unmarked.of_touches {l : List Fld} {s t : State} (h : Touches l s t) (hs : Unmarked s)
    (hl : Fld.mark ∉ l := by decide) : Unmarked t := (h .mark hl).trans hs

theorem Unmarked.flush {s : State} (h : Unmarked s) : Settled (flushLamps s) :=
  ⟨flushLamps_lampDirty s, h.of_touches (flushLamps_touches s)⟩

theorem Settled.of_touches {l : List Fld} {s t : State} (h : Touches l s t) (hs : Settled s)
    (hl : Fld.mark ∉ l := by decide) (hd : Fld.lampDirty ∉ l := by decide) : Settled t :=
  ⟨(h .lampDirty hd).trans hs.1, Unmarked.of_touches h hs.2 hl⟩

theorem applyPolicy_clean (pol : LossPolicy) (p : PanelId) {s : State} (h : s.lampDirty = []) :
    (applyPolicy pol p s).lampDirty = [] :=
  foldl_keeps (P := fun t => t.lampDirty = []) (fun t k ht => by
    split
    · exact flushLamps_lampDirty _
    · exact ht) _ s h

theorem panelOffline_settled {p : PanelId} {s : State} (h : Settled s) : Settled (panelOffline p s) := by
  refine ⟨?_, Unmarked.of_touches (panelOffline_touches p s) h.2⟩
  unfold panelOffline
  exact ((raise_touches _ _ _) .lampDirty (by decide)).trans (applyPolicy_clean _ p h.1)

theorem boundary_settled (s : State) : Settled (boundary s) := by
  unfold boundary
  dsimp only
  generalize List.foldl closePort _ _ = u
  have hfall : Touches [.restart, .clock] (atBoundary false (flushLamps u))
      (restartFalls (beginPeriod (atBoundary false (flushLamps u)))) :=
    (beginPeriod_touches _).up.trans (restartFalls_touches _).up
  exact Settled.of_touches hfall ⟨flushLamps_lampDirty u, rfl⟩

theorem settled_commands : CommandsKeep Settled Unmarked Unmarked where
  start st s := Settled.of_touches (raise_touches _ _ _) ⟨rfl, rfl⟩
  blank _ _ _ _ := ⟨rfl, rfl⟩
  aside h hs := Settled.of_touches h.touches hs
  frame x bytes s hs := Unmarked.flush (Unmarked.of_touches (frameAt_touches x bytes s) hs.2)
  boundary s _ := boundary_settled s
  latch k s hs := Unmarked.flush (Unmarked.of_touches (enterState_touches k .momentaryOn s) hs.2)
  wink k s hs :=
    Unmarked.flush (Unmarked.of_touches (handKey_touches k _) (Unmarked.of_touches (setKey_touches s k _) hs.2))
  caller p x s hs := Unmarked.flush (Unmarked.of_touches (removeCaller_touches p x s) hs.2)
  silence p s _ hs := panelOffline_settled hs
  enter s _ hs := Unmarked.of_touches (takeHead_touches s) hs.2
  step s _ hs := Unmarked.of_touches (takeStep_touches s) hs.2
  restart s hs := Unmarked.of_touches (takeHead_touches s) hs.2
  clear tag s _ hs :=
    Unmarked.of_touches (clearDynamicUnit_touches tag _) (Unmarked.of_touches (takeHead_touches s) hs.2)
  asideR h hs := Unmarked.of_touches h.touches hs
  asideM h hs := Unmarked.of_touches h.touches hs
  done _ hs := hs
  replied tag c r m l s hs := Unmarked.of_touches (reply_touches tag c r m l s) hs
  flush _ hs := hs.flush
  lose x st s hs := Unmarked.of_touches (losePort_touches x st s) hs
  dest d l s hs := Unmarked.of_touches (writeDest_touches d l s) hs
  station x l s hs := Unmarked.of_touches (writeStation_touches x l s) hs
  panel p l s hs := Unmarked.of_touches (writePanel_touches p l s) hs
  key k l s hs := Unmarked.of_touches (writeKey_touches k l s) hs
  party p l s hs := Unmarked.of_touches (writeParty_touches p l s) hs
  tap x l s hs := Unmarked.of_touches (writeTap_touches x l s) hs
  cadence c l s hs := Unmarked.of_touches (writeCadence_touches c l s) hs
  arrive l c a d s hs := Unmarked.of_touches (arrive_touches .static l c a d s) hs
  depart a d s hs := Unmarked.of_touches (depart_touches .static a d s) hs
  level l a d s hs := Unmarked.of_touches (writeEntryLevel_touches l a d s) hs
  join tag p x l s hs := Unmarked.of_touches (partyJoinUnit_touches tag p x l s) hs
  leave tag p x s hs := Unmarked.of_touches (partyLeaveUnit_touches tag p x s) hs
  flags tag p x n v s hs := Unmarked.of_touches (partyFlagsUnit_touches tag p x n v s) hs

theorem step_settled {s t : State} (hs : Settled s) (h : step s = .next t) : Settled t :=
  step_keeps_of_exec (fun _ _ hs => hs) (fun c _ _ hs he => settled_commands.exec c he hs) hs h

end Sys2Proof.Machine
end

section
/-! PROOF. What a lamp reads, and that every change of it hands the key to the lamp unit (R185, R188): store and keys. -/

namespace Sys2Proof.Machine

/-! ## What a lamp reads -/

/-- The fields of a key's record that its lamp reads stand alike. -/
structure Key.LampAlike (a b : Key) : Prop where
  function : b.function = a.function
  target : b.target = a.target
  winkTimer : b.winkTimer = a.winkTimer
  standing : b.standing = a.standing
  state : b.state = a.state

/-- The member's talk flag, as the lamp of a TALK_PARTY key reads it. -/
def State.talkFlag (s : State) (p : PartyId) (x : StationId) : Bool := ((s.party p).find x).any fun m => m.talk

/-- R186: the pair's entry is ACTIVE with a grant holder. -/
def State.lit (s : State) (a : SourceId) (d : DestId) : Bool :=
  (s.findEntry a d).any fun e => e.state == .active && !e.grants.isEmpty

/-- The lamp of key k reads the pair a, d. -/
def State.Watches (s : State) (k : KeyId) (a : SourceId) (d : DestId) : Prop :=
  (s.panel (keyPanel k)).configured = true ∧ (s.key k).function.talksOrListens = true ∧ s.ownDest k = some d ∧
    ∃ x, (s.key k).targetStation = some x ∧ (s.station x).source = some a

theorem Key.LampAlike.refl (r : Key) : r.LampAlike r := ⟨rfl, rfl, rfl, rfl, rfl⟩

theorem Key.LampAlike.targets {a b : Key} (h : a.LampAlike b) :
    b.targetStation = a.targetStation ∧ b.targetParty = a.targetParty := by
  unfold Key.targetStation Key.targetParty
  rw [h.function, h.target]
  exact ⟨rfl, rfl⟩

theorem deriveLamp_alike {s t : State} {k : KeyId} (hk : (s.key k).LampAlike (t.key k))
    (hown : t.ownStation k = s.ownStation k)
    (htalk : ∀ p, (s.key k).targetParty = some p → t.talkFlag p (s.ownStation k) = s.talkFlag p (s.ownStation k))
    (hcall : t.calledLamp k = s.calledLamp k) (hto : t.talkedToLamp k = s.talkedToLamp k) :
    t.deriveLamp k = s.deriveLamp k := by
  obtain ⟨-, hparty⟩ := hk.targets
  have hact : t.actionActive k = s.actionActive k := by
    unfold State.actionActive
    dsimp only
    rw [hk.function, hk.standing, hparty, hown]
    cases (s.key k).function with
    | talkParty =>
      cases hp : (s.key k).targetParty with
      | none => rfl
      | some p => exact htalk p hp
    | unassigned => rfl
    | talkStation => rfl
    | listenStation => rfl
    | ifb => rfl
    | callStation => rfl
    | reply => rfl
  unfold State.deriveLamp
  dsimp only
  rw [hk.function, hk.winkTimer, hk.standing, hk.state, hact, hcall, hto]

theorem calledLamp_alike {s t : State} {k : KeyId} (hk : (s.key k).LampAlike (t.key k))
    (hl : (t.panel (keyPanel k)).replyList = (s.panel (keyPanel k)).replyList) : t.calledLamp k = s.calledLamp k := by
  unfold State.calledLamp
  dsimp only
  rw [hk.function, hk.targets.1, hl]

theorem talkedToLamp_alike {s t : State} {k : KeyId} (hk : (s.key k).LampAlike (t.key k))
    (hown : t.ownStation k = s.ownStation k) (hst : t.stations = s.stations)
    (hlit : ∀ a d, (s.key k).function.talksOrListens = true → s.ownDest k = some d →
      (∃ x, (s.key k).targetStation = some x ∧ (s.station x).source = some a) → t.lit a d = s.lit a d) :
    t.talkedToLamp k = s.talkedToLamp k := by
  have hstation : ∀ x, t.station x = s.station x := fun x => congrArg (tget · x) hst
  have hdest : t.ownDest k = s.ownDest k := by
    unfold State.ownDest
    rw [hown, hstation]
  unfold State.talkedToLamp
  dsimp only
  rw [hk.function, hk.targets.1, hdest]
  by_cases hf : (s.key k).function.talksOrListens = true
  · cases hx : (s.key k).targetStation with
    | none => rfl
    | some x =>
      cases hd : s.ownDest k with
      | none => rfl
      | some d =>
        dsimp only
        rw [hstation]
        cases ha : (s.station x).source with
        | none => rfl
        | some a => exact congrArg (fun b => (s.key k).function.talksOrListens && b) (hlit a d hf hd ⟨x, hx, ha⟩)
  · rw [eq_false_of_ne_true hf]
    rfl

/-! ## Changes that hand over what they change -/

/-- From s to t the panels keep their presence and their pending lamps, no key handed over is forgotten, and a key of a
configured panel that is not handed over keeps its lamp, unless it is one of E. -/
structure HandedBut (E : KeyId → Prop) (s t : State) : Prop where
  panels : ∀ p, (t.panel p).online = (s.panel p).online ∧ (t.panel p).configured = (s.panel p).configured ∧
    (t.panel p).lampPending = (s.panel p).lampPending
  dirty : ∀ k ∈ s.lampDirty, k ∈ t.lampDirty
  keys : ∀ k, (s.panel (keyPanel k)).configured = true → ¬E k → k ∉ t.lampDirty →
    t.deriveLamp k = s.deriveLamp k ∧ (t.key k).lastLamp = (s.key k).lastLamp

/-- A change that hands over every key whose lamp it changes. -/
abbrev Handed (s t : State) : Prop := HandedBut (fun _ => False) s t

namespace HandedBut

variable {E : KeyId → Prop} {s t u : State}

theorem refl (E : KeyId → Prop) (s : State) : HandedBut E s s := ⟨fun _ => ⟨rfl, rfl, rfl⟩, fun _ => id, fun _ _ _ _ => ⟨rfl, rfl⟩⟩

theorem trans (h : HandedBut E s t) (g : HandedBut E t u) : HandedBut E s u where
  panels p := by
    obtain ⟨h1, h2, h3⟩ := h.panels p
    obtain ⟨g1, g2, g3⟩ := g.panels p
    exact ⟨g1.trans h1, g2.trans h2, g3.trans h3⟩
  dirty k hk := g.dirty k (h.dirty k hk)
  keys k hc he hd := by
    obtain ⟨h1, h2⟩ := h.keys k hc he fun hk => hd (g.dirty k hk)
    obtain ⟨g1, g2⟩ := g.keys k ((h.panels _).2.1.trans hc) he hd
    exact ⟨g1.trans h1, g2.trans h2⟩

/-- The keys of E are handed over in the end. -/
theorem hand (h : HandedBut E s t) {l : List KeyId} (hl : ∀ k, (t.panel (keyPanel k)).configured = true → E k → k ∈ l) :
    Handed s (handKeys l t) where
  panels := h.panels
  dirty k hk := List.mem_append_left l (h.dirty k hk)
  keys k hc _ hd :=
    h.keys k hc (fun he => hd (List.mem_append_right _ (hl k ((h.panels _).2.1.trans hc) he)))
      fun hk => hd (List.mem_append_left l hk)

theorem of_touches {l : List Fld} (h : Touches l s t)
    (hl : [Fld.panels, .keys, .stations, .parties, .entries, .lampDirty].all (fun f => !l.contains f) = true := by decide) :
    HandedBut E s t := by
  have hn : ∀ f ∈ [Fld.panels, .keys, .stations, .parties, .entries, .lampDirty], f ∉ l := fun f hf hm => by
    have := List.all_eq_true.1 hl f hf
    rw [List.contains_iff_mem.2 hm] at this
    cases this
  have hp : ∀ p, t.panel p = s.panel p := fun p => congrArg (tget · p) (h.panels (hn _ (by decide)))
  have hk : ∀ k, t.key k = s.key k := fun k => congrArg (tget · k) (h.keys (hn _ (by decide)))
  refine ⟨fun p => by rw [hp]; exact ⟨rfl, rfl, rfl⟩, fun k hm => ?_, fun k _ _ _ => ⟨?_, by rw [hk]⟩⟩
  · rw [h .lampDirty (hn _ (by decide))]
    exact hm
  · exact deriveLamp_congr (fun p => by rw [hp]) (hk k) (h.stations (hn _ (by decide))) (h.parties (hn _ (by decide)))
      (h.entries (hn _ (by decide)))

/-- A key's record is written and the key handed over. -/
theorem writeKey (s : State) (k : KeyId) (r : Key) : HandedBut E s (handKey k (s.setKey k r)) where
  panels _ := ⟨rfl, rfl, rfl⟩
  dirty _ hj := List.mem_append_left _ hj
  keys j _ _ hd := by
    have hj : j ≠ k := fun h => hd (List.mem_append_right _ (List.mem_singleton.2 h))
    have hkey : (s.setKey k r).key j = s.key j := (State.key_setKey s k r j).trans (if_neg hj)
    exact ⟨deriveLamp_congr (t := s.setKey k r) (fun _ => rfl) hkey rfl rfl rfl, congrArg Key.lastLamp hkey⟩

/-- A key's record is written where its lamp does not read it. -/
theorem setKey_alike {k : KeyId} {r : Key} (h : (s.key k).LampAlike r) (hlast : r.lastLamp = (s.key k).lastLamp) :
    HandedBut E s (s.setKey k r) where
  panels _ := ⟨rfl, rfl, rfl⟩
  dirty _ := id
  keys j _ _ _ := by
    have hkey : (s.setKey k r).key j = if j = k then r else s.key j := State.key_setKey s k r j
    have halike : (s.key j).LampAlike ((s.setKey k r).key j) := by
      rw [hkey]
      split
      · next hj =>
        rw [hj]
        exact h
      · exact .refl _
    refine ⟨deriveLamp_alike halike rfl (fun _ _ => rfl) (calledLamp_alike halike rfl)
      (talkedToLamp_alike halike rfl rfl fun _ _ _ _ _ => rfl), ?_⟩
    rw [hkey]
    split
    · next hj =>
      rw [hj]
      exact hlast
    · rfl

theorem foldl {α : Type} {f : State → α → State} (h : ∀ u x, HandedBut E u (f u x)) (l : List α) (s : State) :
    HandedBut E s (l.foldl f s) :=
  foldl_keeps (P := HandedBut E s) (fun u x hu => hu.trans (h u x)) l s (.refl E s)

/-! ## The store -/

/-- The entries change, and the watchers of every pair whose entry is lit or put out by it are handed over. -/
theorem of_lit {l : List Fld} (ht : Touches l s t) (hdirty : ∀ k ∈ s.lampDirty, k ∈ t.lampDirty)
    (hlit : ∀ a d, t.lit a d = s.lit a d ∨ ∀ k, s.Watches k a d → k ∈ t.lampDirty)
    (hl : [Fld.panels, .keys, .stations, .parties].all (fun f => !l.contains f) = true := by decide) : HandedBut E s t := by
  have hn : ∀ f ∈ [Fld.panels, .keys, .stations, .parties], f ∉ l := fun f hf hm => by
    have := List.all_eq_true.1 hl f hf
    rw [List.contains_iff_mem.2 hm] at this
    cases this
  have hp : ∀ p, t.panel p = s.panel p := fun p => congrArg (tget · p) (ht.panels (hn _ (by decide)))
  have hk : ∀ k, t.key k = s.key k := fun k => congrArg (tget · k) (ht.keys (hn _ (by decide)))
  have hparty : ∀ p, t.party p = s.party p := fun p => congrArg (tget · p) (ht.parties (hn _ (by decide)))
  have hown : ∀ k, t.ownStation k = s.ownStation k := fun k => congrArg Panel.ownStation (hp _)
  refine ⟨fun p => by rw [hp]; exact ⟨rfl, rfl, rfl⟩, hdirty, fun k hc _ hd => ⟨?_, by rw [hk]⟩⟩
  have halike : (s.key k).LampAlike (t.key k) := by
    rw [hk]
    exact .refl _
  refine deriveLamp_alike halike (hown k) (fun p _ => ?_) (calledLamp_alike halike (by rw [hp]))
    (talkedToLamp_alike halike (hown k) (ht.stations (hn _ (by decide))) fun a d hf ho hx => ?_)
  · unfold State.talkFlag
    rw [hparty]
  · exact (hlit a d).resolve_right fun hw => hd (hw k ⟨hc, hf, ho, hx⟩)

end HandedBut

theorem mem_handEntry {s : State} {a : SourceId} {d : DestId} {k : KeyId} (h : k ∈ s.lampDirty ∨ s.Watches k a d) :
    k ∈ (handEntry a d s).lampDirty := by
  rcases h with h | ⟨hc, hf, ho, x, hx, ha⟩
  · exact List.mem_append_left _ h
  · refine List.mem_append_right _ (List.mem_flatMap.2 ⟨keyPanel k, List.mem_filter.2 ⟨?_, ?_⟩, List.mem_filter.2 ⟨?_, ?_⟩⟩)
    · exact List.mem_filter.2 ⟨mem_allOf _, hc⟩
    · exact beq_iff_eq.2 ho
    · exact mem_panelKeys.2 rfl
    · simp [hf, hx, ha]

theorem lit_congr {s t : State} {a : SourceId} {d : DestId} (h : t.findEntry a d = s.findEntry a d) :
    t.lit a d = s.lit a d := by
  unfold State.lit
  rw [h]

theorem createEntry_handed {E : KeyId → Prop} {h : Holder} {l : Level} {c : EntryClass} {a : SourceId} {d : DestId} {s : State}
    (hf : s.findEntry a d = none) : HandedBut E s (createEntry h l c a d s) := by
  refine .of_lit (createEntry_touches h l c a d s) (fun k hk => mem_handEntry (.inl hk)) fun n j => ?_
  by_cases hp : j = d ∧ n = a
  · obtain ⟨rfl, rfl⟩ := hp
    exact .inr fun k hk => mem_handEntry (.inr hk)
  · exact .inl (lit_congr ((findEntry_createEntry h l c a d s hf n j).trans (if_neg hp)))

/-- An entry is rewritten, and its pair's watchers are handed over or see no difference. -/
theorem mapEntry_handed {E : KeyId → Prop} {f : Entry → Entry} (hsrc : ∀ e, (f e).source = e.source) {a : SourceId} {d : DestId}
    {s : State} {e : Entry} (he : s.findEntry a d = some e) (hand : Bool)
    (hsame : hand = false → (f e).state = e.state ∧ (f e).grants = e.grants) :
    HandedBut E s (if hand then handEntry a d (s.mapEntry a d f) else s.mapEntry a d f) := by
  have hmap := State.findEntry_mapEntry hsrc s a d
  cases hand with
  | true =>
    refine .of_lit ((mapEntry_touches s a d f).up.trans (handEntry_touches a d _).up (l := arriveFields))
      (fun k hk => mem_handEntry (.inl hk)) fun n j => ?_
    by_cases hp : j = d ∧ n = a
    · obtain ⟨rfl, rfl⟩ := hp
      exact .inr fun k hk => mem_handEntry (.inr hk)
    · exact .inl (lit_congr ((hmap n j).trans (if_neg hp)))
  | false =>
    refine .of_lit (mapEntry_touches s a d f) (fun _ => id) fun n j => .inl ?_
    by_cases hp : j = d ∧ n = a
    · obtain ⟨rfl, rfl⟩ := hp
      obtain ⟨h1, h2⟩ := hsame rfl
      show State.lit (s.mapEntry n j f) n j = s.lit n j
      unfold State.lit
      rw [hmap, if_pos ⟨rfl, rfl⟩, he]
      simp [h1, h2]
    · exact lit_congr ((hmap n j).trans (if_neg hp))

theorem arrive_handed {E : KeyId → Prop} (h : Holder) (l : Level) (c : EntryClass) (a : SourceId) (d : DestId) (s : State) :
    HandedBut E s (arrive h l c a d s).1 := by
  unfold arrive
  cases hf : s.findEntry a d with
  | none =>
    dsimp only
    split
    · exact createEntry_handed hf
    · exact .refl E s
  | some e =>
    dsimp only
    split
    · exact .refl E s
    · split
      · exact .refl E s
      · refine mapEntry_handed (by simp) hf (h.isGrant || e.state == .releasing) fun hn => ?_
        obtain ⟨hg, hr⟩ := Bool.or_eq_false_iff.1 hn
        have hact : e.state = .active := by
          cases hs : e.state with
          | active => rfl
          | releasing => simp [hs] at hr
        cases h with
        | grant k => cases hg
        | static => exact ⟨hact.symm, rfl⟩
        | party p => exact ⟨hact.symm, rfl⟩
        | tap x => exact ⟨hact.symm, rfl⟩

theorem depart_handed {E : KeyId → Prop} (h : Holder) (a : SourceId) (d : DestId) (s : State) :
    HandedBut E s (depart h a d s) := by
  unfold depart
  cases hf : s.findEntry a d with
  | none => exact .refl E s
  | some e =>
    dsimp only
    split
    · refine mapEntry_handed (by simp) hf (h.isGrant || (e.left h).state == .releasing) fun hn => ?_
      obtain ⟨hg, hr⟩ := Bool.or_eq_false_iff.1 hn
      have hheld : (e.withoutHolder h).held = true := by
        by_contra hh
        simp [Entry.left, hh] at hr
      have hleft : e.left h = e.withoutHolder h := by simp [Entry.left, hheld]
      rw [hleft]
      cases h with
      | grant k => cases hg
      | static => exact ⟨rfl, rfl⟩
      | party p => exact ⟨rfl, rfl⟩
      | tap x => exact ⟨rfl, rfl⟩
    · exact .refl E s

theorem writeEntryLevel_handed {E : KeyId → Prop} (l : Level) (a : SourceId) (d : DestId) (s : State) :
    HandedBut E s (writeEntryLevel l a d s) := by
  refine .of_lit (writeEntryLevel_touches l a d s) (fun _ => id) fun n j => .inl ?_
  have hmap := State.findEntry_mapEntry (f := fun e => { e with level := storeLevel l }) (fun _ => rfl) s a d n j
  unfold State.lit
  rw [show (writeEntryLevel l a d s).findEntry n j = _ from hmap]
  split
  · cases s.findEntry n j <;> rfl
  · rfl

end Sys2Proof.Machine
end

section
/-! PROOF. Arbiters, parties, reply lists and presses hand every key whose lamp they change to the lamp unit (R185, R188). -/

namespace Sys2Proof.Machine

section

variable {E : KeyId → Prop}

/-! ## Arbiters -/

theorem setStanding_handed (k : KeyId) (st : Standing) (s : State) : HandedBut E s (setStanding k st s) := .writeKey s k _

theorem startWink_handed (k : KeyId) (s : State) : HandedBut E s (startWink k s) := .writeKey s k _

theorem enterState_handed (k : KeyId) (st : KeyState) (s : State) : HandedBut E s (enterState k st s) := .writeKey s k _

theorem enterPressed_handed (k : KeyId) (s : State) : HandedBut E s (enterPressed k s) := .writeKey s k _

theorem dropKey_handed (k : KeyId) (s : State) : HandedBut E s (dropKey k s) :=
  ((setStanding_handed k .outside s).trans (startWink_handed k _)).trans (.writeKey _ k _)

theorem setArbiter_handed (s : State) (d : DestId) (r : Arbiter) : HandedBut E s (s.setArbiter d r) :=
  .of_touches (setArbiter_touches s d r)

theorem raise_handed (k : EventKind) (i : Option Nat) (s : State) : HandedBut E s (raise k i s) :=
  .of_touches (raise_touches k i s)

theorem takeWaiting_handed (d : DestId) (l : List Waiter) (k : KeyId) (r : Option KeyId) (s : State) :
    HandedBut E s (takeWaiting d l k r s).1 := by
  unfold takeWaiting
  dsimp only
  split
  · exact (setArbiter_handed s d _).trans (setStanding_handed k _ _)
  · split
    · exact setArbiter_handed s d _
    · split
      · exact setArbiter_handed s d _
      · dsimp only
        split
        · exact (setArbiter_handed s d _).trans (dropKey_handed _ _)
        · exact ((setArbiter_handed s d _).trans (setStanding_handed k _ _)).trans (dropKey_handed _ _)

theorem requestGrant_handed (k : KeyId) (a : SourceId) (d : DestId) (s : State) : HandedBut E s (requestGrant k a d s).1 :=
  arrive_handed _ _ _ _ _ s

theorem withoutGrant_handed (s : State) (k : KeyId) (d : DestId) : HandedBut E s (s.withoutGrant k d) := by
  unfold State.withoutGrant
  split
  · exact depart_handed _ _ _ s
  · exact .refl E s

theorem requestArbiter_handed (k : KeyId) (a : SourceId) (d : DestId) (s : State) :
    HandedBut E s (requestArbiter k a d s).1 := by
  have hg : HandedBut E s (requestGrant k a d s).1 := requestGrant_handed k a d s
  have hcur : ∀ u, HandedBut E u (makeCurrent k d u) := fun u => (setArbiter_handed u d _).trans (setStanding_handed k _ _)
  have hplace : ∀ high u, HandedBut E u (placeWaiting k d high u).1 := fun high u => takeWaiting_handed d _ k _ u
  have hpre : ∀ old u, HandedBut E u (preempt old d u) := fun old u =>
    (withoutGrant_handed u old d).trans (takeWaiting_handed d _ old none (u.withoutGrant old d))
  unfold requestArbiter
  dsimp only
  split
  · split
    · exact hg.trans (hcur _)
    · exact hg.trans (raise_handed _ _ _)
  · next c _ =>
    split
    · split
      · exact (hg.trans (hcur _)).trans (hpre c _)
      · exact (hg.trans (raise_handed _ _ _)).trans (hplace _ _)
    · exact hplace _ s

theorem promote_handed (d : DestId) (l : List Waiter) (s : State) : HandedBut E s (promote d l s) := by
  induction l generalizing s with
  | nil => exact setArbiter_handed s d _
  | cons w ws ih =>
    cases hb : s.ownSource w.key with
    | none =>
      rw [promote_sourceless hb]
      exact (dropKey_handed w.key s).trans (ih _)
    | some b =>
      cases hr : (requestGrant w.key b d s).2 with
      | false =>
        rw [promote_refused hb hr]
        exact ((raise_handed _ _ s).trans (dropKey_handed w.key _)).trans (ih _)
      | true =>
        rw [promote_granted hb hr]
        exact ((requestGrant_handed w.key b d s).trans (setArbiter_handed _ d _)).trans (setStanding_handed _ _ _)

theorem leaveArbiter_handed (k : KeyId) (s : State) : HandedBut E s (leaveArbiter k s) := by
  cases ht : (s.key k).target with
  | none => rw [leaveArbiter_homeless ht]; exact .refl E s
  | some d =>
    by_cases hc : (s.arbiter d).current = some k
    · rw [leaveArbiter_current ht hc]
      exact ((withoutGrant_handed s k d).trans (setStanding_handed k _ _)).trans (promote_handed d _ _)
    · rw [leaveArbiter_waiting ht hc]
      split
      · exact (setArbiter_handed s d _).trans (setStanding_handed k _ _)
      · exact .refl E s

/-! ## Parties -/

/-- A party's record is written: only the keys of a member whose talk flag changes may change their lamps. -/
theorem setParty_handedBut {s : State} {p : PartyId} {r : Party}
    (h : ∀ k, (s.key k).targetParty = some p →
      ¬E k → ((r.find (s.ownStation k)).any fun m => m.talk) = s.talkFlag p (s.ownStation k)) :
    HandedBut E s (s.setParty p r) where
  panels _ := ⟨rfl, rfl, rfl⟩
  dirty _ := id
  keys k _ he _ := by
    refine ⟨deriveLamp_alike (.refl _) rfl (fun q hq => ?_) (calledLamp_alike (.refl _) rfl)
      (talkedToLamp_alike (.refl _) rfl rfl fun _ _ _ _ _ => rfl), rfl⟩
    have hparty : (s.setParty p r).party q = if q = p then r else s.party q := State.party_setParty s p r q
    unfold State.talkFlag
    rw [hparty]
    split
    · next hqp =>
      rw [hqp] at hq ⊢
      exact h k hq he
    · rfl

theorem changeParty_handedBut {s : State} {p : PartyId} {r : Party}
    (h : ∀ k, (s.key k).targetParty = some p →
      ¬E k → ((r.find (s.ownStation k)).any fun m => m.talk) = s.talkFlag p (s.ownStation k)) :
    HandedBut E s (changeParty p r s) := by
  have hout : ∀ l u, HandedBut E u (withdrawPairs p l u) := fun l u => .foldl (fun t x => depart_handed _ _ _ t) l u
  have hin : ∀ u x, HandedBut E u (requestPair p r.level u x) := fun u x => by
    unfold requestPair
    dsimp only
    split
    · exact arrive_handed _ _ _ _ _ u
    · exact (arrive_handed _ _ _ _ _ u).trans (raise_handed _ _ _)
  unfold changeParty
  exact ((setParty_handedBut h).trans (hout _ _)).trans (.foldl hin _ _)

theorem mem_handTalk {s : State} {p : PartyId} {c : StationId} {k : KeyId} (hc : (s.panel (keyPanel k)).configured = true)
    (ho : s.ownStation k = c) (hk : (s.key k).targetParty = some p) :
    k ∈ (s.configuredPanels.filter fun q => (s.panel q).ownStation == c).flatMap fun q =>
      (panelKeys q).filter fun k => (s.key k).targetParty == some p := by
  refine List.mem_flatMap.2 ⟨keyPanel k, List.mem_filter.2 ⟨?_, beq_iff_eq.2 ho⟩, List.mem_filter.2 ⟨?_, ?_⟩⟩
  · exact List.mem_filter.2 ⟨mem_allOf _, hc⟩
  · exact mem_panelKeys.2 rfl
  · exact beq_iff_eq.2 hk

/-- The keys of station c that target party p. -/
def State.TalksThrough (s : State) (p : PartyId) (c : StationId) (k : KeyId) : Prop :=
  s.ownStation k = c ∧ (s.key k).targetParty = some p

/-- A party is changed, and the talk keys of the one member whose flag may change are handed over. -/
theorem handTalk_handed {s t : State} {p : PartyId} {c : StationId} (h : HandedBut (s.TalksThrough p c) s t)
    (hk : ∀ k, t.ownStation k = s.ownStation k ∧ (t.key k).targetParty = (s.key k).targetParty) :
    Handed s (handTalk p c t) :=
  h.hand fun k hc ⟨ho, hp⟩ => mem_handTalk hc ((hk k).1.trans ho) ((hk k).2.trans hp)

theorem changeParty_kept (p : PartyId) (r : Party) (s : State) (k : KeyId) :
    (changeParty p r s).ownStation k = s.ownStation k ∧
      ((changeParty p r s).key k).targetParty = (s.key k).targetParty := by
  have h := changeParty_touches p r s
  refine ⟨?_, by rw [h.key k]⟩
  unfold State.ownStation
  rw [h.panel]

theorem find_mapMember {r : Party} {c : StationId} {f : Member → Member} (hf : ∀ m, (f m).station = m.station)
    (x : StationId) : (r.mapMember c f).find x = (r.find x).map fun m => if x = c then f m else m := by
  have hst : ∀ m : Member, (if m.station == c then f m else m).station = m.station := fun m => by
    split
    · exact hf m
    · rfl
  unfold Party.find Party.mapMember
  dsimp only
  rw [List.find?_map]
  simp only [Function.comp_def, hst]
  cases hm : r.members.find? fun m => m.station == x with
  | none => rfl
  | some m =>
    have hx : m.station = x := by simpa using List.find?_some hm
    simp [hx]

theorem setTalk_handed (p : PartyId) (c : StationId) (on : Bool) (s : State) : Handed s (setTalk p c on s) := by
  unfold setTalk
  split
  · exact .refl _ s
  · split
    · exact .refl _ s
    · refine handTalk_handed (changeParty_handedBut fun k hk he => ?_) fun k => changeParty_kept p _ s k
      have hne : s.ownStation k ≠ c := fun h => he ⟨h, hk⟩
      rw [find_mapMember (f := fun m => { m with talk := on }) fun _ => rfl]
      simp [hne, State.talkFlag]

/-! ## Reply lists -/

/-- The keys of panel q whose lamp reads its reply list. -/
def State.ReadsReplies (s : State) (q : PanelId) (k : KeyId) : Prop :=
  keyPanel k = q ∧ ((s.key k).function = .reply ∨ (s.key k).function = .talkStation ∨ (s.key k).function = .callStation)

theorem calledLamp_deaf {s : State} {k : KeyId}
    (h : ¬((s.key k).function = .reply ∨ (s.key k).function = .talkStation ∨ (s.key k).function = .callStation)) :
    s.calledLamp k = false := by
  unfold State.calledLamp
  dsimp only
  cases hx : (s.key k).function with
  | reply => exact absurd (.inl hx) h
  | talkStation => exact absurd (.inr (.inl hx)) h
  | callStation => exact absurd (.inr (.inr hx)) h
  | unassigned => rfl
  | listenStation => rfl
  | talkParty => rfl
  | ifb => rfl

/-- A panel's reply list is written and the keys that read it are handed over. -/
theorem handReply_handed (s : State) (q : PanelId) (l : List ReplyEntry) :
    Handed s (handReply q (s.setPanel q { s.panel q with replyList := l })) := by
  have hpanel : ∀ p, (s.setPanel q { s.panel q with replyList := l }).panel p =
      if p = q then { s.panel q with replyList := l } else s.panel p := State.panel_setPanel s q _
  have hbut : HandedBut (s.ReadsReplies q) s (s.setPanel q { s.panel q with replyList := l }) := by
    refine ⟨fun p => ?_, fun _ => id, fun k _ he _ => ⟨?_, rfl⟩⟩
    · rw [hpanel]
      split
      · next hp => rw [hp]; exact ⟨rfl, rfl, rfl⟩
      · exact ⟨rfl, rfl, rfl⟩
    · have hown : (s.setPanel q { s.panel q with replyList := l }).ownStation k = s.ownStation k := by
        unfold State.ownStation
        rw [hpanel]
        split
        · next hp => rw [hp]
        · rfl
      refine deriveLamp_alike (.refl _) hown (fun _ _ => rfl) ?_
        (talkedToLamp_alike (.refl _) hown rfl fun _ _ _ _ _ => rfl)
      by_cases hq : keyPanel k = q
      · have hf := fun h => he ⟨hq, h⟩
        rw [calledLamp_deaf hf]
        exact calledLamp_deaf (s := s.setPanel q { s.panel q with replyList := l }) hf
      · refine calledLamp_alike (.refl _) ?_
        rw [hpanel, if_neg hq]
  refine hbut.hand fun k _ ⟨hq, hf⟩ => List.mem_filter.2 ⟨mem_panelKeys.2 hq, ?_⟩
  rcases hf with hf | hf | hf <;> rw [show (s.setPanel q _).key k = s.key k from rfl, hf]

end

end Sys2Proof.Machine
end

section
/-! PROOF. Presses and releases hand over what they change; a lamp that is due is pending or handed over (R188, R189). -/

namespace Sys2Proof.Machine

/-! ## What a press acquires and gives up -/

theorem placeCall_handed (c : StationId) (q : PanelId) (s : State) : Handed s (placeCall c q s) :=
  handReply_handed s q _

theorem removeCaller_handed (q : PanelId) (x : StationId) (s : State) : Handed s (removeCaller q x s) :=
  handReply_handed s q _

theorem acquireGrant_handed (k : KeyId) (src : Option SourceId) (d : Option DestId) (s : State) :
    Handed s (acquireGrant k src d s).1 := by
  unfold acquireGrant
  split
  · next a b =>
    dsimp only
    split
    · exact requestGrant_handed k a b s
    · exact (requestGrant_handed k a b s).trans (raise_handed _ _ _)
  · exact .refl _ s

theorem acquireReply_handed (k : KeyId) (s : State) : Handed s (acquireReply k s).1 := by
  unfold acquireReply
  split
  · exact .refl _ s
  · next e _ _ =>
    have h1 : Handed s (removeCaller (keyPanel k) e.station s) := removeCaller_handed _ _ s
    have h2 := fun a b => h1.trans (acquireGrant_handed k a b (removeCaller (keyPanel k) e.station s))
    dsimp only
    split
    · exact (h2 _ _).trans (.writeKey _ k _)
    · exact h2 _ _

theorem acquire_handed (k : KeyId) (s : State) : Handed s (acquire k s).1 := by
  unfold acquire
  cases (s.key k).function with
  | unassigned => exact .refl _ s
  | talkStation =>
    cases (s.key k).targetStation with
    | none => exact .refl _ s
    | some x => exact acquireGrant_handed k _ _ s
  | listenStation =>
    cases (s.key k).targetStation with
    | none => exact .refl _ s
    | some x => exact acquireGrant_handed k _ _ s
  | talkParty =>
    dsimp only
    unfold acquireTalk
    split
    · exact .refl _ s
    · split
      · exact setTalk_handed _ _ _ s
      · exact .refl _ s
  | ifb =>
    dsimp only
    unfold acquireIfb
    split
    · split
      · exact requestArbiter_handed k _ _ s
      · exact .refl _ s
    · exact .refl _ s
  | callStation =>
    dsimp only
    unfold acquireCall
    split
    · exact .refl _ s
    · dsimp only
      split
      · exact .refl _ s
      · exact .foldl (fun u q => placeCall_handed _ q u) _ s
  | reply => exact acquireReply_handed k s

theorem giveUp_handed (k : KeyId) (s : State) : Handed s (giveUp k s) := by
  have hgrant : Handed s (surrenderGrant k s) := by
    unfold surrenderGrant
    split
    · exact depart_handed _ _ _ s
    · exact .refl _ s
  unfold giveUp
  cases (s.key k).function with
  | unassigned => exact .refl _ s
  | talkStation => exact hgrant
  | listenStation => exact hgrant
  | reply => exact hgrant.trans (.writeKey _ k _)
  | talkParty =>
    dsimp only
    unfold surrenderTalk
    split
    · exact .refl _ s
    · split
      · exact .refl _ s
      · exact setTalk_handed _ _ _ s
  | ifb => exact leaveArbiter_handed k s
  | callStation => exact .refl _ s

theorem enterByMode_handed (k : KeyId) (s : State) : Handed s (enterByMode k s) := by
  unfold enterByMode
  cases (s.key k).mode with
  | momentary => exact enterState_handed k _ s
  | latching => exact enterState_handed k _ s
  | auto => exact enterPressed_handed k s

theorem press_handed (k : KeyId) (s : State) : Handed s (press k s) := by
  unfold press
  split
  · exact .refl _ s
  · cases (s.key k).state with
    | idle =>
      dsimp only
      split
      · exact (acquire_handed k s).trans (enterByMode_handed k _)
      · exact ((acquire_handed k s).trans (enterState_handed k _ _)).trans (startWink_handed k _)
    | latched => exact (giveUp_handed k s).trans (enterState_handed k _ _)
    | pressed => exact .refl _ s
    | momentaryOn => exact .refl _ s
    | unlatching => exact .refl _ s
    | refusedHeld => exact .refl _ s

theorem release_handed (k : KeyId) (s : State) : Handed s (release k s) := by
  unfold release
  cases (s.key k).state with
  | pressed => exact enterState_handed k _ s
  | momentaryOn => exact (giveUp_handed k s).trans (enterState_handed k _ _)
  | unlatching => exact enterState_handed k _ s
  | refusedHeld => exact enterState_handed k _ s
  | idle => exact .refl _ s
  | latched => exact .refl _ s

theorem lossRelease_handed (k : KeyId) (s : State) : Handed s (lossRelease k s) := by
  unfold lossRelease
  split
  · exact (giveUp_handed k s).trans (enterState_handed k _ _)
  · exact enterState_handed k _ s

/-! ## Lamps that are due -/

/-- A key's lamp differs from the one last sent only while it is pending or handed over, panels away excepted; a panel is
UNCONFIGURED exactly while it is not configured. -/
structure LampsDue (away : PanelId → Prop) (s : State) : Prop where
  presence : ∀ p, (s.panel p).online = .unconfigured ↔ (s.panel p).configured = false
  due : ∀ k, ¬away (keyPanel k) → (s.panel (keyPanel k)).online = .online → s.deriveLamp k ≠ (s.key k).lastLamp →
    (s.panel (keyPanel k)).lampPending.getLsbD (keyNumber k).val = true ∨ k ∈ s.lampDirty

theorem lampsInv_iff {s : State} (h : s.lampDirty = []) : LampsInv s ↔ LampsDue (fun _ => False) s :=
  ⟨fun ⟨h1, h2⟩ => ⟨h1, fun k _ ho hl => .inl (h2 k ho hl)⟩, fun ⟨h1, h2⟩ => ⟨h1, fun k ho hl =>
    (h2 k id ho hl).resolve_right (by rw [h]; exact List.not_mem_nil)⟩⟩

namespace LampsDue

variable {away : PanelId → Prop} {s t : State}

theorem configured (h : LampsDue away s) {p : PanelId} (ho : (s.panel p).online ≠ .unconfigured) :
    (s.panel p).configured = true := eq_true_of_ne_false fun hc => ho ((h.presence p).2 hc)

theorem mono (h : LampsDue away s) {more : PanelId → Prop} (hm : ∀ p, away p → more p) : LampsDue more s :=
  ⟨h.presence, fun k hk => h.due k fun ha => hk (hm _ ha)⟩

theorem handed (h : LampsDue away s) (g : Handed s t) : LampsDue away t := by
  refine ⟨fun p => ?_, fun k ha ho hl => ?_⟩
  · obtain ⟨g1, g2, -⟩ := g.panels p
    rw [g1, g2]
    exact h.presence p
  · obtain ⟨g1, g2, g3⟩ := g.panels (keyPanel k)
    rw [g1] at ho
    rw [g3]
    by_cases hd : k ∈ t.lampDirty
    · exact .inr hd
    · obtain ⟨k1, k2⟩ := g.keys k (h.configured (by rw [ho]; exact nofun)) id hd
      rw [k1, k2] at hl
      exact (h.due k ha ho hl).imp_right fun hk => absurd (g.dirty k hk) hd

theorem of_touches (h : LampsDue away s) {l : List Fld} (ht : Touches l s t)
    (hl : [Fld.panels, .keys, .stations, .parties, .entries, .lampDirty].all (fun f => !l.contains f) = true := by decide) :
    LampsDue away t := h.handed (.of_touches ht hl)

end LampsDue

/-! ## The end of an event -/

theorem getLsbD_withLamp (b : BitVec 32) (n i : Fin 32) : (withLamp b n).getLsbD i.val = (b.getLsbD i.val || n == i) := by
  unfold withLamp
  have hi := i.isLt
  simp only [BitVec.getLsbD_or, BitVec.getLsbD_shiftLeft, BitVec.getLsbD_one]
  by_cases h : n = i
  · subst h
    simp
  · have hne : n.val ≠ i.val := fun hv => h (Fin.ext hv)
    have hb : (n == i) = false := beq_false_of_ne h
    rw [hb]
    by_cases hlt : i.val < n.val
    · simp [hi, hlt]
    · simp [hi, hlt]
      omega

/-- A key whose lamp differs is pending once it has been derived. -/
theorem markLamps_pending {k : KeyId} (l : List KeyId) (s : State) (hl : s.deriveLamp k ≠ (s.key k).lastLamp)
    (h : (s.panel (keyPanel k)).lampPending.getLsbD (keyNumber k).val = true ∨ k ∈ l) :
    ((l.foldl (fun t j => markLamp j t) s).panel (keyPanel k)).lampPending.getLsbD (keyNumber k).val = true := by
  induction l generalizing s with
  | nil => exact h.resolve_right List.not_mem_nil
  | cons j l ih =>
    have ht := markLamp_touches j s
    have hderive : (markLamp j s).deriveLamp k = s.deriveLamp k :=
      deriveLamp_congr (markLamp_panels j s) (ht.key k) ht.stations ht.parties ht.entries
    refine ih (markLamp j s) (by rw [hderive, ht.key k]; exact hl) ?_
    rw [markLamp_panel]
    rcases h with h | h
    · left
      split
      · dsimp only
        rw [getLsbD_withLamp, h, Bool.true_or]
      · exact h
    · rcases List.mem_cons.1 h with rfl | h
      · left
        rw [if_pos ⟨rfl, hl⟩]
        dsimp only
        rw [getLsbD_withLamp, beq_self_eq_true, Bool.or_true]
      · exact .inr h

theorem LampsDue.flush {away : PanelId → Prop} {s : State} (h : LampsDue away s) : LampsDue away (flushLamps s) := by
  have hp := flushLamps_panels s
  refine ⟨fun p => ?_, fun k ha ho hl => .inl ?_⟩
  · rw [hp p]
    exact h.presence p
  · rw [flushLamps_deriveLamp, (flushLamps_touches s).key k] at hl
    rw [hp] at ho
    exact markLamps_pending s.lampDirty s hl (h.due k ha ho hl)

theorem keyPosition_due {away : PanelId → Prop} {s : State} (h : LampsDue away s) (k : KeyId) (down : Bool) :
    LampsDue away (keyPosition k down s) := by
  have hflag : Handed s (s.setKey k { s.key k with down := down }) := .setKey_alike ⟨rfl, rfl, rfl, rfl, rfl⟩ rfl
  unfold keyPosition
  split
  · exact h
  · cases down with
    | true => exact (h.handed (hflag.trans (press_handed k _))).flush
    | false => exact (h.handed (hflag.trans (release_handed k _))).flush

theorem reconcile_due {away : PanelId → Prop} {s : State} (h : LampsDue away s) (p : PanelId) (m : BitVec 32) :
    LampsDue away (reconcile p m s) :=
  foldl_keeps (P := LampsDue away) (fun _ _ ht => keyPosition_due ht _ _) _ s h

theorem applyPolicy_due {away : PanelId → Prop} {s : State} (h : LampsDue away s) (pol : LossPolicy) (p : PanelId) :
    LampsDue away (applyPolicy pol p s) :=
  foldl_keeps (P := LampsDue away) (fun t k ht => by
    split
    · exact (ht.handed (lossRelease_handed k t)).flush
    · exact ht) _ s h

end Sys2Proof.Machine
end

section
/-! PROOF. Panels coming and going, encoders, cells and frames keep the lamps that are due (R103 to R106, R122, R188). -/

namespace Sys2Proof.Machine

/-! ## A panel's record -/

theorem deriveLamp_setPanel {s : State} {p : PanelId} {r : Panel} {k : KeyId}
    (h : keyPanel k ≠ p ∨ (r.ownStation = (s.panel p).ownStation ∧ r.replyList = (s.panel p).replyList)) :
    (s.setPanel p r).deriveLamp k = s.deriveLamp k := by
  have hpanel : ((s.setPanel p r).panel (keyPanel k)).ownStation = (s.panel (keyPanel k)).ownStation ∧
      ((s.setPanel p r).panel (keyPanel k)).replyList = (s.panel (keyPanel k)).replyList := by
    rw [State.panel_setPanel]
    split
    · next hk =>
      rw [hk]
      exact h.resolve_left fun hne => hne hk
    · exact ⟨rfl, rfl⟩
  exact deriveLamp_alike (.refl _) hpanel.1 (fun _ _ => rfl) (calledLamp_alike (.refl _) hpanel.2)
    (talkedToLamp_alike (.refl _) hpanel.1 rfl fun _ _ _ _ _ => rfl)

/-- A panel's record is written where no lamp and no presence is read. -/
theorem setPanel_handed {s : State} {p : PanelId} {r : Panel} (ho : r.online = (s.panel p).online)
    (hc : r.configured = (s.panel p).configured) (hl : r.lampPending = (s.panel p).lampPending)
    (hs : r.ownStation = (s.panel p).ownStation) (hr : r.replyList = (s.panel p).replyList) : Handed s (s.setPanel p r) where
  panels q := by
    rw [State.panel_setPanel]
    split
    · next hq => rw [hq]; exact ⟨ho, hc, hl⟩
    · exact ⟨rfl, rfl, rfl⟩
  dirty _ := id
  keys k _ _ _ := ⟨deriveLamp_setPanel (.inr ⟨hs, hr⟩), rfl⟩

/-- A panel's record is written: its lamps are away, or it is not ONLINE, or all its lamps are pending. -/
theorem LampsDue.setPanel {away more : PanelId → Prop} {s : State} {p : PanelId} {r : Panel} (h : LampsDue more s)
    (hm : ∀ q, q ≠ p → more q → away q) (hpres : r.online = .unconfigured ↔ r.configured = false)
    (hr : away p ∨ r.online ≠ .online ∨ r.lampPending = BitVec.allOnes 32) : LampsDue away (s.setPanel p r) := by
  have hpanel : ∀ q, (s.setPanel p r).panel q = if q = p then r else s.panel q := State.panel_setPanel s p r
  refine ⟨fun q => ?_, fun k ha ho hl => ?_⟩
  · rw [hpanel]
    split
    · exact hpres
    · exact h.presence q
  · rw [hpanel] at ho ⊢
    by_cases hk : keyPanel k = p
    · rw [if_pos hk] at ho ⊢
      rcases hr with hr | hr | hr
      · exact absurd (hk ▸ hr) ha
      · exact absurd ho hr
      · left
        rw [hr, BitVec.getLsbD_allOnes]
        exact decide_eq_true (keyNumber k).isLt
    · rw [if_neg hk] at ho ⊢
      rw [deriveLamp_setPanel (.inl hk)] at hl
      exact h.due k (fun hmore => ha (hm _ hk hmore)) ho hl

theorem panelOffline_due {away : PanelId → Prop} {s : State} (h : LampsDue away s) {p : PanelId}
    (hc : (s.panel p).configured = true) : LampsDue away (panelOffline p s) := by
  have h1 : LampsDue away (s.setPanel p { s.panel p with online := .offline, silenceTimer := none }) :=
    h.setPanel (fun _ _ => id) ⟨nofun, fun hf => by rw [hf] at hc; cases hc⟩ (.inr (.inl nofun))
  exact (applyPolicy_due h1 _ p).handed (raise_handed _ _ _)

theorem keyPortLost_due {away : PanelId → Prop} {s : State} (h : LampsDue away s) (x : PortId) :
    LampsDue away (keyPortLost x s) :=
  foldl_keeps (P := LampsDue away) (fun t p ht => by
    split
    · next hcond =>
      rw [Bool.and_eq_true, Bool.and_eq_true] at hcond
      exact panelOffline_due ht hcond.1.1
    · exact ht) _ s h

theorem losePort_due {away : PanelId → Prop} {s : State} (h : LampsDue away s) (x : PortId) (st : PortState) :
    LampsDue away (losePort x st s) := by
  have hcut : LampsDue away (s.cutOff x st) := h.of_touches (cutOff_touches s x st)
  rw [losePort_eq]
  exact ((keyPortLost_due (hcut.handed (raise_handed _ _ _)) x).of_touches (fieldPortLost_touches x _)).of_touches
    (referenceGone_touches _ _)

theorem startSilence_handed (p : PanelId) (s : State) : Handed s (startSilence p s) := setPanel_handed rfl rfl rfl rfl rfl

theorem panelOnline_due {s : State} (h : LampsDue (fun _ => False) s) {p : PanelId} (hc : (s.panel p).configured = true)
    (m : BitVec 32) : LampsDue (fun _ => False) (panelOnline p m s) := by
  have haway : LampsDue (· = p) (s.setPanel p { s.panel p with
      online := .online, encoders := (s.panel p).encoders.map fun e => { e with residue := 0 } }) :=
    h.setPanel (fun _ _ => False.elim) ⟨nofun, fun hf => by rw [hf] at hc; cases hc⟩ (.inl rfl)
  have hrec := reconcile_due (haway.handed (startSilence_handed p _)) p m
  unfold panelOnline
  dsimp only
  revert hrec
  generalize reconcile p m _ = u
  intro hrec
  refine LampsDue.handed ?_ (raise_handed _ _ _)
  exact hrec.setPanel (fun q hq he => hq he) (hrec.presence p) (.inr (.inr rfl))

/-! ## Encoders and cells -/

theorem turnEncoder_handed (p : PanelId) (i : Fin 4) (delta : Int) (s : State) : Handed s (turnEncoder p i delta s) := by
  have hmove : ∀ e n u, Handed u (moveTarget p e n u) := fun e n u => by
    unfold moveTarget
    split
    · split
      · exact .of_touches (setDest_touches u _ _)
      · exact .refl _ u
    · have hk : ∀ k l, Handed u (u.setKey k { u.key k with talkLevel := l }) := fun k l =>
        .setKey_alike ⟨rfl, rfl, rfl, rfl, rfl⟩ rfl
      dsimp only
      split
      · exact (hk _ _).trans (writeEntryLevel_handed _ _ _ _)
      · exact hk _ _
  have hset : ∀ v, Handed s (s.setPanel p { s.panel p with encoders := v }) := fun v => setPanel_handed rfl rfl rfl rfl rfl
  unfold turnEncoder
  dsimp only
  split
  · exact hset _
  · exact (hset _).trans (hmove _ _ _)

theorem keyCellAtOnline_due {away : PanelId → Prop} {s : State} (h : LampsDue away s) (p : PanelId) (c : KeyCell) :
    LampsDue away (keyCellAtOnline p c s) := by
  cases c with
  | event key position =>
    unfold keyCellAtOnline
    dsimp only
    split
    · split
      · exact keyPosition_due h _ _
      · split
        · exact keyPosition_due h _ _
        · exact h
    · exact h
  | map positions => exact reconcile_due h p positions
  | encoder index delta =>
    unfold keyCellAtOnline
    dsimp only
    split
    · exact h.handed (turnEncoder_handed p _ _ s)
    · exact h

theorem handleKeyCell_due {s : State} (h : LampsDue (fun _ => False) s) (x : PortId) (node : Byte) (c : KeyCell) :
    LampsDue (fun _ => False) (handleKeyCell x node c s) := by
  cases hat : s.panelAt x node with
  | none =>
    unfold handleKeyCell
    rw [hat]
    exact h
  | some p =>
    have hc : (s.panel p).configured = true := by
      unfold State.panelAt at hat
      have hpass := List.find?_some (p := fun q =>
        (s.panel q).configured && (s.panel q).port == x && (s.panel q).node.toNat == node.toNat) hat
      exact (addressed_iff.1 hpass).1
    cases ho : (s.panel p).online with
    | online =>
      rw [handleKeyCell_online hat ho]
      exact keyCellAtOnline_due (h.handed (startSilence_handed p s)) p c
    | offline =>
      cases c with
      | event key position => rw [handleKeyCell_event hat ho]; exact h
      | map positions => rw [handleKeyCell_map hat ho]; exact panelOnline_due h hc positions
      | encoder index delta => rw [handleKeyCell_encoder hat ho]; exact h
    | unconfigured => rw [handleKeyCell_unconfigured hat ho]; exact h

theorem routeCell_due {s : State} (h : LampsDue (fun _ => False) s) (x : PortId) (arrival : Count) (cell : List Byte) :
    LampsDue (fun _ => False) (routeCell x arrival s cell) := by
  by_cases hl : (byteAt cell 3).toNat ≤ 28
  · cases hk : cellKindOf (byteAt cell 0) with
    | none =>
      unfold routeCell
      dsimp only
      rw [if_neg (Nat.not_lt.2 hl), hk]
      exact h
    | some k =>
      rw [routeCell_kind hl (code_of_cellKindOf hk)]
      cases k with
      | order =>
        unfold cellWork
        dsimp only
        split
        · exact h.of_touches (offerOrder_touches _ s)
        · exact h
      | keyEvent => exact handleKeyCell_due h x _ _
      | keyMap => exact handleKeyCell_due h x _ _
      | encoder => exact handleKeyCell_due h x _ _
      | echo => exact h.of_touches (handleEcho_touches x _ _ _ arrival s)
      | reply => exact h
      | notice => exact h
      | lamp => exact h
      | cadence => exact h
      | probe => exact h
  · rw [routeCell_long (Nat.lt_of_not_le hl)]
    exact h

/-! ## Frames -/

theorem acceptFrame_due {s : State} (h : LampsDue (fun _ => False) s) (x : PortId) (f : Frame) :
    LampsDue (fun _ => False) (acceptFrame x f s) :=
  foldl_keeps (P := LampsDue fun _ => False) (fun _ cell ht => routeCell_due ht x _ cell) _ _
    (h.of_touches (acceptAudio_touches x f s))

theorem frameAt_due {s : State} (h : LampsDue (fun _ => False) s) (x : PortId) (bytes : List Byte) :
    LampsDue (fun _ => False) (frameAt x bytes s) := by
  have hset : ∀ r, LampsDue (fun _ => False) (s.setPort x r) := fun r => h.of_touches (setPort_touches s x r)
  by_cases hd : (s.port x).state = .disabled
  · rw [frameAt_disabled hd]
    exact h
  cases hb : readFrame bytes with
  | none =>
    rw [frameAt_bad hd hb]
    exact (hset _).handed (raise_handed _ _ _)
  | some f =>
    rw [frameAt_good hd hb]
    split
    · exact acceptFrame_due h x f
    · unfold countFrame
      dsimp only
      split
      · exact acceptFrame_due ((hset _).of_touches (lockPort_touches x _)) x f
      · exact hset _

end Sys2Proof.Machine
end

section
/-! PROOF. A boundary keeps the lamps that are due: the store closed, the lanes filled, the ports closed (R20, R22, R188,
R192). -/

namespace Sys2Proof.Machine

/-! ## The store closed -/

theorem mem_handGone {d : DestId} {k : KeyId} (l : List Entry) (s : State)
    (h : k ∈ s.lampDirty ∨ ∃ e ∈ l, s.Watches k e.source d) :
    k ∈ (l.foldl (fun t e => handEntry e.source d t) s).lampDirty := by
  induction l generalizing s with
  | nil => exact h.resolve_right fun ⟨_, he, _⟩ => absurd he List.not_mem_nil
  | cons e l ih =>
    refine ih (handEntry e.source d s) ?_
    rcases h with h | ⟨x, hx, hw⟩
    · exact .inl (mem_handEntry (.inl h))
    · rcases List.mem_cons.1 hx with rfl | hx
      · exact .inl (mem_handEntry (.inr hw))
      · exact .inr ⟨x, hx, hw⟩

/-- A source without RELEASING entries on the destination reads the same entry once they are gone. -/
theorem find_closed {l : List Entry} {a : SourceId} {f : Entry → Nat}
    (h : ∀ e ∈ l, e.source = a → e.state = .active) :
    ((l.filter fun e => e.state == .active).map fun e => { e with applied := f e }).find? (fun e => e.source == a) =
      (l.find? fun e => e.source == a).map fun e => { e with applied := f e } := by
  induction l with
  | nil => rfl
  | cons e l ih =>
    have ih := ih fun x hx => h x (List.mem_cons_of_mem _ hx)
    by_cases hs : e.source = a
    · have hact := h e List.mem_cons_self hs
      simp [hact, hs]
    · cases hst : e.state with
      | active => simp only [List.filter_cons, hst, beq_self_eq_true, if_true, List.map_cons, List.find?_cons, ih, beq_eq_false_iff_ne.2 hs]
      | releasing =>
        have hrel : (EntryState.releasing == EntryState.active) = false := rfl
        simp only [List.filter_cons, hst, hrel, Bool.false_eq_true, if_false, List.find?_cons, beq_eq_false_iff_ne.2 hs, ih]

theorem closeDest_handed (before : State) (d : DestId) (s : State) : Handed s (closeDest before d s) := by
  let u := closeTaps d ((s.setEntries d (s.closeEntries d)).setDest d (s.assembled before d))
  have hentries : ∀ j, u.entriesOf j = if j = d then s.closeEntries d else s.entriesOf j :=
    fun j => State.entriesOf_setEntries s d (s.closeEntries d) j
  have hsame : (closeDest before d s).entries = u.entries :=
    (closeDest_touches_lampDirty before d s).entries
  have hwatch : ∀ {k a}, s.Watches k a d → u.Watches k a d := fun h => h
  refine .of_lit (closeDest_touches before d s) (fun k hk => mem_handGone _ u (.inl hk)) fun a j => ?_
  by_cases hj : j = d
  · subst hj
    by_cases hgone : ∃ e ∈ s.entriesOf j, e.source = a ∧ e.state = .releasing
    · obtain ⟨e, he, rfl, hr⟩ := hgone
      exact .inr fun k hk => mem_handGone _ u (.inr ⟨e, List.mem_filter.2 ⟨he, by rw [hr]; rfl⟩, hwatch hk⟩)
    · left
      have hact : ∀ e ∈ s.entriesOf j, e.source = a → e.state = .active := fun e he hs => by
        cases hst : e.state with
        | active => rfl
        | releasing => exact absurd ⟨e, he, hs, hst⟩ hgone
      have hfind : (closeDest before j s).findEntry a j =
          (s.findEntry a j).map fun e => { e with applied := s.entryTarget j e } := by
        unfold State.findEntry
        rw [State.entriesOf_congr hsame, hentries, if_pos rfl]
        exact find_closed hact
      unfold State.lit
      rw [hfind]
      cases s.findEntry a j <;> rfl
  · left
    refine lit_congr ?_
    unfold State.findEntry
    rw [State.entriesOf_congr hsame, hentries, if_neg hj]

theorem assembleDest_handed (before : State) (d : DestId) (s : State) : Handed s (assembleDest before d s) := by
  have hclip : ∀ (n : Nat) (u : State), Handed u (if n = 0 then u else raise .clip (some d.val) u) := by
    intro n u
    split
    · exact .refl _ u
    · exact raise_handed _ _ u
  rw [assembleDest_eq]
  exact (closeDest_handed before d s).trans (hclip _ _)

/-! ## The lanes -/

/-- A key's lamp is sent: the one it shows. -/
theorem carryLamp_due {s : State} (h : LampsDue (fun _ => False) s) {p : PanelId} {n : Fin 32} {x : LampState}
    (hx : x = s.deriveLamp (keyIndex p n)) :
    LampsDue (fun _ => False) (carryLamp p s (n, x)) ∧ ∀ k, (carryLamp p s (n, x)).deriveLamp k = s.deriveLamp k := by
  let u := s.setPanel p { s.panel p with lampPending := withoutLamp (s.panel p).lampPending n }
  have hpanel : ∀ q, (carryLamp p s (n, x)).panel q =
      if q = p then { s.panel p with lampPending := withoutLamp (s.panel p).lampPending n } else s.panel q :=
    fun q => State.panel_setPanel s p _ q
  have hkey : ∀ k, (carryLamp p s (n, x)).key k =
      if k = keyIndex p n then { s.key (keyIndex p n) with lastLamp := x } else s.key k :=
    fun k => State.key_setKey u (keyIndex p n) _ k
  have hderive : ∀ k, (carryLamp p s (n, x)).deriveLamp k = s.deriveLamp k := fun k => by
    have hu : u.deriveLamp k = s.deriveLamp k := deriveLamp_setPanel (.inr ⟨rfl, rfl⟩)
    rw [← hu]
    have halike : (u.key k).LampAlike ((carryLamp p s (n, x)).key k) := by
      rw [hkey]
      split
      · next hk => rw [hk]; exact ⟨rfl, rfl, rfl, rfl, rfl⟩
      · exact .refl _
    exact deriveLamp_alike halike rfl (fun _ _ => rfl) (calledLamp_alike halike rfl)
      (talkedToLamp_alike halike rfl rfl fun _ _ _ _ _ => rfl)
  refine ⟨⟨fun q => ?_, fun k ha ho hl => ?_⟩, hderive⟩
  · rw [hpanel]
    split
    · exact h.presence p
    · exact h.presence q
  · rw [hderive, hkey] at hl
    by_cases hk : k = keyIndex p n
    · rw [if_pos hk, hk] at hl
      exact absurd hx.symm hl
    · rw [if_neg hk] at hl
      rw [hpanel] at ho ⊢
      by_cases hp : keyPanel k = p
      · rw [if_pos hp] at ho ⊢
        have hn : (n == keyNumber k) = false := beq_false_of_ne fun hn => hk (by rw [hn, ← hp, keyIndex_keyPanel])
        rw [← hp] at ho ⊢
        refine (h.due k ha ho hl).imp_left fun hb => ?_
        dsimp only
        rw [getLsbD_withoutLamp, hb, hn]
        rfl
      · rw [if_neg hp] at ho ⊢
        exact h.due k ha ho hl

theorem lampCell_due {s t : State} (h : LampsDue (fun _ => False) s) {x : PortId} {c : List Byte}
    (hc : lampCell x s = some (c, t)) : LampsDue (fun _ => False) t := by
  unfold lampCell at hc
  split at hc
  · cases hc
  · next p _ =>
    have hpos : LampsDue (fun _ => False) (s.setLampPosition x (some p)) := h.of_touches (setLampPosition_touches s x _)
    have hdrawn : ∀ {u : State}, LampsDue (fun _ => False) u → LampsDue (fun _ => False) u.drawn := fun hu =>
      hu.of_touches (drawn_touches _)
    dsimp only at hc
    split at hc
    · cases hc
      exact hdrawn (hpos.handed (setPanel_handed (s := s.setLampPosition x (some p)) (p := p) rfl rfl rfl rfl rfl))
    · cases hc
      have hfold : ∀ (l : List (Fin 32)) (u : State), LampsDue (fun _ => False) u →
          (∀ k, u.deriveLamp k = s.deriveLamp k) →
          LampsDue (fun _ => False) ((l.map fun n => (n, s.deriveLamp (keyIndex p n))).foldl (carryLamp p) u) := by
        intro l
        induction l with
        | nil => exact fun u hu _ => hu
        | cons n l ih =>
          intro u hu hd
          obtain ⟨h1, h2⟩ := carryLamp_due hu (hd (keyIndex p n)).symm
          exact ih _ h1 fun k => (h2 k).trans (hd k)
      exact hdrawn (hfold _ _ hpos fun _ => rfl)

theorem placeLamps_due {s : State} (h : LampsDue (fun _ => False) s) (x : PortId) (room : Nat) :
    LampsDue (fun _ => False) (placeLamps x room s).2 := by
  induction room generalizing s with
  | zero => exact h
  | succ room ih =>
    cases hc : lampCell x s with
    | none =>
      rw [placeLamps_stops (.inr hc)]
      exact h
    | some ct =>
      obtain ⟨c, t⟩ := ct
      rw [placeLamps_succ hc]
      exact ih (lampCell_due h hc)

theorem fillLane_due {s : State} (h : LampsDue (fun _ => False) s) (x : PortId) (sent : Count) :
    LampsDue (fun _ => False) (fillLane x sent s).2 := by
  have hreplies : ∀ (b : Bool) (n : Nat) {u : State}, LampsDue (fun _ => False) u →
      LampsDue (fun _ => False) (if b then placeReplies n u else ([], u)).2 := fun b n u hu => by
    cases b
    · exact hu
    · exact hu.of_touches (placeReplies_touches n u)
  have hnotices : ∀ (b : Bool) (n : Nat) {u : State}, LampsDue (fun _ => False) u →
      LampsDue (fun _ => False) (if b then placeNotices n u else ([], u)).2 := fun b n u hu => by
    cases b
    · exact hu
    · exact hu.of_touches (placeNotices_touches n u)
  unfold fillLane
  exact placeLamps_due (hnotices _ _ (hreplies _ _
    (placeLamps_due (h.of_touches (placeProbes_touches x sent _ s)) x _))) x _

theorem assemblePort_due {s : State} (h : LampsDue (fun _ => False) s) (before : State) (x : PortId) :
    LampsDue (fun _ => False) (assemblePort before s x) := by
  have hmix : LampsDue (fun _ => False) (mixedPort before s x) :=
    (h.handed (.foldl (fun t d => assembleDest_handed before d t) (portDests x) s)).flush
  rw [assemblePort_eq]
  split
  · exact hmix.of_touches (unsent_touches _ x)
  · exact (fillLane_due hmix x _).of_touches (sendFrame_touches_lane x _)

/-! ## The ports closed -/

theorem closePort_due {s : State} (h : LampsDue (fun _ => False) s) (x : PortId) :
    LampsDue (fun _ => False) (closePort s x) := by
  by_cases hl : s.loses x
  · obtain ⟨v, hv, he⟩ := closePort_loses hl
    rw [he]
    exact losePort_due (h.of_touches hv) x .down
  by_cases hr : s.returns x
  · obtain ⟨v, hv, he⟩ := closePort_returns hr
    rw [he]
    exact (h.of_touches hv).of_touches (linkBack_touches x v)
  · exact h.of_touches (closePort_quiet hl hr)

theorem boundary_due {s : State} (h : LampsDue (fun _ => False) s) : LampsDue (fun _ => False) (boundary s) := by
  have hassembled : LampsDue (fun _ => False) ((allOf 4).foldl (assemblePort (atBoundary true s)) (atBoundary true s)) :=
    foldl_keeps (P := LampsDue fun _ => False) (fun t x ht => assemblePort_due ht _ x) _ _
      (h.of_touches (atBoundary_touches true s))
  have hclosed := foldl_keeps (P := LampsDue fun _ => False) (fun t x ht => closePort_due ht x) (allOf 4) _
    (hassembled.of_touches (applyReference_touches _))
  unfold boundary
  exact ((hclosed.flush.of_touches (atBoundary_touches false _)).of_touches (beginPeriod_touches _)).of_touches
    (restartFalls_touches _)

end Sys2Proof.Machine
end

section
/-! PROOF. Record writes and orders keep the lamps that are due; a lamp that differs from the one last sent is pending after
every command (R100, R188, R189). -/

namespace Sys2Proof.Machine

/-! ## A panel unconfigured -/

theorem setKey_due {away : PanelId → Prop} {s : State} {k : KeyId} (h : LampsDue away s) (ha : away (keyPanel k)) (r : Key) :
    LampsDue away (s.setKey k r) := by
  refine ⟨h.presence, fun j hj ho hl => ?_⟩
  have hne : j ≠ k := fun hjk => hj (by rw [hjk]; exact ha)
  have hkey : (s.setKey k r).key j = s.key j := (State.key_setKey s k r j).trans (if_neg hne)
  rw [hkey, deriveLamp_congr (t := s.setKey k r) (s := s) (fun _ => rfl) hkey rfl rfl rfl] at hl
  exact h.due j hj ho hl

theorem unconfigure_due {s : State} (h : LampsDue (fun _ => False) s) (p : PanelId) :
    LampsDue (fun _ => False) (unconfigure p s) := by
  have hlist : LampsDue (· = p) (emptyReplyList p (applyPolicy .dropAll p s)) :=
    ((applyPolicy_due h .dropAll p).handed (handReply_handed _ p [])).mono fun _ => False.elim
  have hrest : ∀ (l : List KeyId) (u : State), (∀ k ∈ l, keyPanel k = p) → LampsDue (· = p) u →
      LampsDue (· = p) (l.foldl (fun t k => restKey k t) u) := by
    intro l
    induction l with
    | nil => exact fun _ _ hu => hu
    | cons k l ih =>
      exact fun u hl hu => ih _ (fun j hj => hl j (List.mem_cons_of_mem _ hj)) (setKey_due hu (hl k List.mem_cons_self) _)
  unfold unconfigure
  exact ((hrest _ _ (fun k hk => mem_panelKeys.1 hk) hlist).flush).setPanel (fun q hq he => hq he) ⟨fun _ => rfl, fun _ => rfl⟩
    (.inr (.inl nofun))

/-! ## Record writes -/

theorem handKeys_handed (l : List KeyId) (s : State) : Handed s (handKeys l s) :=
  (HandedBut.refl (fun _ => False) s).hand fun _ _ he => he.elim

theorem storePanel_due {s : State} {p : PanelId} {r : Panel} {l : List FieldValue} (h : LampsDue (fun _ => False) s)
    (hr : (s.panel p).updated l = some r) (hu : ¬s.panelUsed p l) : LampsDue (fun _ => False) (storePanel p r l s) := by
  obtain ⟨-, -, -, -, -, hform⟩ := Panel.updated_fields hr
  have ho : r.online = (s.panel p).online := by rw [hform]
  have hl : r.lampPending = (s.panel p).lampPending := by rw [hform]
  have hreplies : r.replyList = (s.panel p).replyList := by rw [hform]
  unfold storePanel
  dsimp only
  split
  · next hn =>
    have hoff : (s.panel p).online ≠ .online := fun hon => hu (.inl ⟨hon, .inr (.inr (.inr hn))⟩)
    refine LampsDue.handed (h.setPanel (fun _ _ => id) ?_ (.inr (.inl (by rw [← ho] at hoff; exact hoff)))) (handKeys_handed _ _)
    dsimp only
    rw [ho]
    exact h.presence p
  · next hn =>
    have hown : r.ownStation = (s.panel p).ownStation := Panel.updated_station hr (eq_false_of_ne_true hn)
    exact h.handed (setPanel_handed ho rfl hl hown hreplies)

theorem writePanel_due {s : State} (h : LampsDue (fun _ => False) s) (p : PanelId) (l : List FieldValue) :
    LampsDue (fun _ => False) (writePanel p l s).1 := by
  cases hr : (s.panel p).updated l with
  | none =>
    rw [writePanel_unread hr]
    exact h
  | some r =>
    by_cases hc : s.panelCheck p r l = .ok
    · rw [writePanel_ok hr hc]
      have hu : ¬s.panelUsed p l := fun hu => by
        rw [panelCheck_eq, if_pos hu] at hc
        split at hc
        · cases hc
        · cases hc
      have hstored := storePanel_due h hr hu
      unfold configurePanel
      dsimp only
      split
      · exact hstored.setPanel (fun _ _ => id) ⟨nofun, nofun⟩ (.inr (.inl nofun))
      · exact unconfigure_due hstored p
      · exact hstored
      · exact hstored
    · rw [writePanel_refused hr rfl hc]
      exact h

/-- The keys whose lamp reads station x. -/
def State.ReadsStation (s : State) (x : StationId) (k : KeyId) : Prop :=
  s.ownStation k = x ∨ (s.key k).targetStation = some x

theorem handStation_handed (s : State) (x : StationId) (r : Station) : Handed s (handStation x (s.setStation x r)) := by
  have hstation : ∀ y, (s.setStation x r).station y = if y = x then r else s.station y := State.station_setStation s x r
  have hbut : HandedBut (s.ReadsStation x) s (s.setStation x r) := by
    refine ⟨fun _ => ⟨rfl, rfl, rfl⟩, fun _ => id, fun k _ he _ => ⟨?_, rfl⟩⟩
    obtain ⟨hown, htarget⟩ := not_or.1 he
    refine deriveLamp_alike (.refl _) rfl (fun _ _ => rfl) (calledLamp_alike (.refl _) rfl) ?_
    have hdest : (s.setStation x r).ownDest k = s.ownDest k := by
      have ho : (s.setStation x r).ownStation k = s.ownStation k := rfl
      unfold State.ownDest
      rw [ho, hstation, if_neg hown]
    have hkey : (s.setStation x r).key k = s.key k := rfl
    unfold State.talkedToLamp
    rw [hdest, hkey]
    dsimp only
    cases hx : (s.key k).targetStation with
    | none => rfl
    | some y =>
      cases s.ownDest k with
      | none => rfl
      | some d =>
        dsimp only
        rw [hstation, if_neg fun hy => htarget (by rw [hx, hy])]
        rfl
  refine hbut.hand fun k _ he => List.mem_append.2 ?_
  rcases he with ho | ht
  · exact .inr (List.mem_flatMap.2 ⟨keyPanel k, List.mem_filter.2 ⟨mem_allOf _, beq_iff_eq.2 ho⟩, mem_panelKeys.2 rfl⟩)
  · exact .inl (List.mem_filter.2 ⟨mem_allOf _, beq_iff_eq.2 ht⟩)

theorem writeStation_handed (x : StationId) (l : List FieldValue) (s : State) : Handed s (writeStation x l s).1 := by
  unfold writeStation
  split
  · exact .refl _ s
  · split
    · exact handStation_handed s x _
    · exact .refl _ s

/-- A field that a write does not name keeps its value. -/
theorem lookup_of_unnamed {l : List FieldValue} {f : Nat} (h : names l f = false) : l.lookup f = none := by
  cases hl : l.lookup f with
  | none => rfl
  | some v =>
    rw [names_of_lookup hl] at h
    cases h

theorem writeKey_handed (k : KeyId) (l : List FieldValue) (s : State) : Handed s (writeKey k l s).1 := by
  unfold writeKey
  split
  · exact .refl _ s
  · next r hr =>
    split
    · exact .refl _ s
    · split
      · exact .refl _ s
      · dsimp only
        split
        · exact .writeKey s k r
        · next hn =>
          obtain ⟨hn0, hn1⟩ := Bool.or_eq_false_iff.1 (eq_false_of_ne_true hn)
          obtain ⟨hf, ht, -, -, hform⟩ := Key.updated_fields hr
          simp only [enumField, lookup_of_unnamed hn0, Option.some.injEq] at hf
          simp only [optionalField, lookup_of_unnamed hn1, Option.some.injEq] at ht
          refine .setKey_alike ⟨hf.symm, ht.symm, ?_, ?_, ?_⟩ ?_
          · rw [hform]
          · rw [hform]
          · rw [hform]
          · rw [hform]

theorem writeParty_handed (p : PartyId) (l : List FieldValue) (s : State) : Handed s (writeParty p l s).1 := by
  unfold writeParty
  split
  · exact .refl _ s
  · next r hr =>
    refine changeParty_handedBut fun k _ _ => ?_
    have hm : r.members = (s.party p).members := by
      unfold Party.updated at hr
      split at hr
      · cases hr
        rfl
      · cases hr
    unfold State.talkFlag Party.find
    rw [hm]

theorem writeTap_handed (x : TapId) (l : List FieldValue) (s : State) : Handed s (writeTap x l s).1 := by
  have hset : ∀ r, Handed s (s.setTap x r) := fun r => .of_touches (setTap_touches s x r)
  have hisolate : ∀ up (m : List SourceId) u, Handed u (m.foldl (isolate up) u) := fun up m u =>
    .foldl (fun t n => .of_touches (isolate_touches up t n)) m u
  have hdisable : ∀ (r : Tap) u, Handed u (disableTap x r u) := fun r u => by
    have hout : Handed u (r.matched.foldl (fun s n => depart (.tap x) n r.monitor s) u) :=
      .foldl (fun t n => depart_handed _ _ _ t) _ u
    unfold disableTap
    cases r.side with
    | source =>
      dsimp only
      split
      · exact hout
      · exact hout.trans (hisolate false _ _)
    | destination => exact .refl _ u
  have hlevel : ∀ (r : Tap) u, Handed u (tapLevel r u) := fun r u => by
    unfold tapLevel
    cases r.side with
    | source => exact .foldl (fun t n => writeEntryLevel_handed _ _ _ t) _ u
    | destination => exact .refl _ u
  have henable : ∀ (r : Tap) u, Handed u (enableTap x r u) := fun r u => by
    have hin : Handed u (r.matched.foldl (fun s n => (arrive (.tap x) r.level .talk n r.monitor s).1) u) :=
      .foldl (fun t n => arrive_handed _ _ _ _ _ t) _ u
    unfold enableTap
    cases r.side with
    | source =>
      dsimp only
      split
      · exact hin
      · exact hin.trans (hisolate true _ _)
    | destination => exact .refl _ u
  have hsettle : ∀ was (r : Tap) u, Handed u (settleTap x was r l u) := fun was r u => by
    unfold settleTap
    dsimp only
    split
    · split
      · exact (hlevel r u).trans (hdisable r _)
      · exact hdisable r u
    · split
      · exact hlevel r u
      · exact .refl _ u
  unfold writeTap
  dsimp only
  split
  · exact .refl _ s
  · split
    · exact .refl _ s
    · split
      · split
        · exact (hset _).trans (henable _ _)
        · exact .refl _ s
      · exact (hset _).trans (hsettle _ _ _)

theorem markCadences_handed (s : State) : Handed s (markCadences s) := by
  have hpanel : ∀ p, ∃ b, (markCadences s).panel p = { s.panel p with cadencePending := b } := fun p => by
    rw [markCadences_panel]
    split
    · exact ⟨true, rfl⟩
    · exact ⟨_, rfl⟩
  refine ⟨fun p => ?_, fun _ => id, fun k _ _ _ => ⟨?_, rfl⟩⟩
  · obtain ⟨b, hb⟩ := hpanel p
    rw [hb]
    exact ⟨rfl, rfl, rfl⟩
  · obtain ⟨b, hb⟩ := hpanel (keyPanel k)
    have hown : (markCadences s).ownStation k = s.ownStation k := by
      unfold State.ownStation
      rw [hb]
    exact deriveLamp_alike (.refl _) hown (fun _ _ => rfl) (calledLamp_alike (.refl _) (by rw [hb]))
      (talkedToLamp_alike (.refl _) hown rfl fun _ _ _ _ _ => rfl)

theorem writeCadence_handed (c : CadenceId) (l : List FieldValue) (s : State) : Handed s (writeCadence c l s).1 := by
  unfold writeCadence
  split
  · exact .refl _ s
  · dsimp only
    split
    · exact HandedBut.trans (.of_touches (setCadence_touches s c _)) (markCadences_handed _)
    · exact .of_touches (setCadence_touches s c _)

end Sys2Proof.Machine
end

section
/-! PROOF. Every command leaves the lamps that are due pending (R188, R189). -/

namespace Sys2Proof.Machine

/-! ## Party orders -/

/-- What an order's unit leaves of the lamps when it replies to the state that handed over its changes. -/
theorem replied_handed {s t : State} (h : Handed s t) (tag c : Byte) (r : Result) (m : Byte) (l : List (Option Byte)) :
    Handed s (reply tag c r m l t) := h.trans (.of_touches (reply_touches tag c r m l t))

/-- A member with its talk flag off changes no lamp by joining. -/
theorem find_joined (r : Party) (x y : StationId) (b : Bool) :
    (({ r with members := r.members ++ [{ station := x, talk := false, listen := b }] } : Party).find y).any (fun m => m.talk) =
      (r.find y).any fun m => m.talk := by
  unfold Party.find
  dsimp only
  rw [List.find?_append]
  cases r.members.find? fun m => m.station == y with
  | some m => rfl
  | none =>
    by_cases hx : x = y
    · simp [hx]
    · simp [hx]

theorem partyJoinUnit_handed (tag p x l : Byte) (s : State) : Handed s (partyJoinUnit tag p x l s) := by
  unfold partyJoinUnit
  dsimp only
  split
  · exact replied_handed (.refl _ s) _ _ _ _ _
  · exact replied_handed (changeParty_handedBut fun k _ _ => find_joined _ _ _ _) _ _ _ _ _

theorem find_left {r : Party} {x y : StationId} (h : y ≠ x) :
    ({ r with members := r.members.filter fun m => m.station != x } : Party).find y = r.find y := by
  unfold Party.find
  dsimp only
  rw [List.find?_filter]
  refine congrArg (fun f => r.members.find? f) (funext fun m => ?_)
  by_cases hm : m.station = y
  · simp [hm, h]
  · simp [hm]

theorem find_left_self (r : Party) (x : StationId) :
    ({ r with members := r.members.filter fun m => m.station != x } : Party).find x = none := by
  unfold Party.find
  dsimp only
  rw [List.find?_filter]
  simp

theorem partyLeaveUnit_handed (tag p x : Byte) (s : State) : Handed s (partyLeaveUnit tag p x s) := by
  unfold partyLeaveUnit
  dsimp only
  split
  · next q c _ _ =>
    split
    · exact replied_handed (.refl _ s) _ _ _ _ _
    · next m hm =>
      refine replied_handed ?_ _ _ _ _ _
      split
      · refine handTalk_handed (changeParty_handedBut fun k hk he => ?_) fun k => changeParty_kept q _ s k
        rw [find_left fun ho => he ⟨ho, hk⟩]
        rfl
      · next hoff =>
        refine changeParty_handedBut fun k _ _ => ?_
        by_cases ho : s.ownStation k = c
        · rw [ho, find_left_self]
          unfold State.talkFlag
          rw [hm]
          exact (eq_false_of_ne_true hoff).symm
        · rw [find_left ho]
          rfl
  · exact replied_handed (.refl _ s) _ _ _ _ _

theorem partyFlagsUnit_handed (tag p x n v : Byte) (s : State) : Handed s (partyFlagsUnit tag p x n v s) := by
  unfold partyFlagsUnit
  dsimp only
  split
  · next q c _ _ =>
    split
    · exact replied_handed (.refl _ s) _ _ _ _ _
    · split
      · exact replied_handed (.refl _ s) _ _ _ _ _
      · next m hm =>
        have hfind := fun y => find_mapMember (r := s.party q) (c := c) (f := fun m => m.flagged n v) (fun _ => rfl) y
        refine replied_handed ?_ _ _ _ _ _
        split
        · next hsame =>
          refine changeParty_handedBut fun k _ _ => ?_
          rw [hfind]
          unfold State.talkFlag
          by_cases ho : s.ownStation k = c
          · rw [ho, hm]
            simp [hsame]
          · simp [ho]
        · refine handTalk_handed (changeParty_handedBut fun k hk he => ?_) fun k => changeParty_kept q _ s k
          have hne : s.ownStation k ≠ c := fun ho => he ⟨ho, hk⟩
          rw [hfind]
          simp [hne, State.talkFlag]
  · exact replied_handed (.refl _ s) _ _ _ _ _

/-! ## CLEAR_DYNAMIC -/

theorem clearReplyLists_panel (s : State) (p : PanelId) :
    (clearReplyLists s).panel p = { s.panel p with replyList := [] } := tget_map _ _ p

theorem clearAll_handed (s : State) : Handed s (clearAll s) := by
  let u := clearArbiters (clearTalk (clearStore (clearKeys s)))
  have hu : Touches [.keys, .entries, .parties, .arbiters] s u :=
    (((clearKeys_touches s).up.trans (clearStore_touches _).up).trans (clearTalk_touches _).up).trans
      (clearArbiters_touches _).up
  have hv := clearField_touches (clearReplyLists u)
  have hpanel : ∀ p, (clearField (clearReplyLists u)).panel p = { s.panel p with replyList := [] } := fun p => by
    rw [hv.panel, clearReplyLists_panel, hu.panel]
  have hbut : HandedBut (fun _ => True) s (clearField (clearReplyLists u)) := by
    refine ⟨fun p => ?_, fun k hk => ?_, fun _ _ he => absurd trivial he⟩
    · rw [hpanel]
      exact ⟨rfl, rfl, rfl⟩
    · have hdirty : (clearField (clearReplyLists u)).lampDirty = s.lampDirty :=
        (hv .lampDirty (by decide)).trans (((clearReplyLists_touches u) .lampDirty (by decide)).trans
          (hu .lampDirty (by decide)))
      rw [hdirty]
      exact hk
  exact hbut.hand fun k hc _ =>
    List.mem_flatMap.2 ⟨keyPanel k, List.mem_filter.2 ⟨mem_allOf _, hc⟩, mem_panelKeys.2 rfl⟩

theorem clearDynamicUnit_handed (tag : Byte) (s : State) : Handed s (clearDynamicUnit tag s) := by
  have hclear : ∀ {u}, Handed s u → Handed s (plainReply tag .clearDynamic .ok (clearAll u)) := fun h =>
    replied_handed (h.trans (clearAll_handed _)) _ _ _ _ _
  unfold clearDynamicUnit
  dsimp only
  refine hclear ?_
  split
  · next b _ => exact HandedBut.trans (.of_touches (withBlock_touches s none)) (.of_touches (abortReply_touches b _))
  · exact .refl _ s

/-! ## Every command -/

/-- Between commands: nothing is handed over, and every lamp that is due is pending. -/
def LampsKept (s : State) : Prop := s.lampDirty = [] ∧ LampsDue (fun _ => False) s

theorem LampsDue.settled {s : State} (h : LampsDue (fun _ => False) s) : LampsKept (flushLamps s) :=
  ⟨flushLamps_lampDirty s, h.flush⟩

/-- No panel of a part that has just started is configured. -/
theorem blank_due (ph : Phase) (st : Straps) (dr : Nat) (pe : List Instr) :
    LampsDue (fun _ => False) (State.blank ph st dr pe) := by
  have hpanel : ∀ p, (State.blank ph st dr pe).panel p = Panel.reset := fun p => tget_replicate _ p
  refine ⟨fun p => ?_, fun k _ ho => ?_⟩
  · rw [hpanel]
    exact ⟨fun _ => rfl, fun _ => rfl⟩
  · rw [hpanel] at ho
    cases ho

theorem panelOffline_clean {p : PanelId} {s : State} (h : s.lampDirty = []) : (panelOffline p s).lampDirty = [] := by
  unfold panelOffline
  exact ((raise_touches _ _ _) .lampDirty (by decide)).trans (applyPolicy_clean _ p h)

theorem lamps_commands : CommandsKeep LampsKept (LampsDue fun _ => False) (LampsDue fun _ => False) where
  start st s := ⟨((raise_touches _ _ _) .lampDirty (by decide)), (blank_due _ _ _ _).handed (raise_handed _ _ _)⟩
  blank ph st dr pe := ⟨rfl, blank_due ph st dr pe⟩
  aside h hs := ⟨(h.touches .lampDirty (by decide)).trans hs.1, hs.2.of_touches h.touches⟩
  frame x bytes s hs := (frameAt_due hs.2 x bytes).settled
  boundary s hs := ⟨(boundary_settled s).1, boundary_due hs.2⟩
  latch k s hs := (hs.2.handed (enterState_handed k _ s)).settled
  wink k s hs := (hs.2.handed (.writeKey s k _)).settled
  caller p x s hs := (hs.2.handed (removeCaller_handed p x s)).settled
  silence p s ho hs := ⟨panelOffline_clean hs.1, panelOffline_due hs.2 (hs.2.configured (by rw [ho]; exact nofun))⟩
  enter s _ hs := hs.2.of_touches (takeHead_touches s)
  step s _ hs := hs.2.of_touches (takeStep_touches s)
  restart s hs := hs.2.of_touches (takeHead_touches s)
  clear tag s _ hs := (hs.2.of_touches (takeHead_touches s)).handed (clearDynamicUnit_handed tag _)
  asideR h hs := hs.of_touches h.touches
  asideM h hs := hs.of_touches h.touches
  done _ hs := hs
  replied tag c r m l s hs := hs.of_touches (reply_touches tag c r m l s)
  flush _ hs := hs.settled
  lose x st s hs := losePort_due hs x st
  dest d l s hs := hs.of_touches (writeDest_touches d l s)
  station x l s hs := hs.handed (writeStation_handed x l s)
  panel p l s hs := writePanel_due hs p l
  key k l s hs := hs.handed (writeKey_handed k l s)
  party p l s hs := hs.handed (writeParty_handed p l s)
  tap x l s hs := hs.handed (writeTap_handed x l s)
  cadence c l s hs := hs.handed (writeCadence_handed c l s)
  arrive l c a d s hs := hs.handed (arrive_handed .static l c a d s)
  depart a d s hs := hs.handed (depart_handed .static a d s)
  level l a d s hs := hs.handed (writeEntryLevel_handed l a d s)
  join tag p x l s hs := hs.handed (partyJoinUnit_handed tag p x l s)
  leave tag p x s hs := hs.handed (partyLeaveUnit_handed tag p x s)
  flags tag p x n v s hs := hs.handed (partyFlagsUnit_handed tag p x n v s)

theorem step_lampsKept {s t : State} (hs : LampsKept s) (h : step s = .next t) : LampsKept t :=
  step_keeps_of_exec (P := LampsKept) (fun _ _ hs => ⟨hs.1, hs.2.presence, hs.2.due⟩)
    (fun c _ _ hs he => lamps_commands.exec c he hs) hs h

/-- Settles O12. -/
theorem settledKept : Obligations.SettledKept := by
  refine ⟨fun s t hs h => step_settled hs h, fun s t hs hl h => ?_⟩
  obtain ⟨hd, ht⟩ := step_lampsKept ⟨hs.1, (lampsInv_iff hs.1).1 hl⟩ h
  exact (lampsInv_iff hd).2 ht

end Sys2Proof.Machine
end

section
/-! PROOF. Changes under which the order, reply and notice queues stay within their capacities (R24). -/

namespace Sys2Proof.Machine

/-! ## Queues that do not outgrow -/

/-- From s to t no queue outgrows its bound: the replies become no more, the orders and notices stay within their
capacity. -/
structure Unswollen (s t : State) : Prop where
  orders : s.orders.length ≤ 16 → t.orders.length ≤ 16
  replies : t.replies.length ≤ s.replies.length
  notices : s.notices.length ≤ 8 → t.notices.length ≤ 8

namespace Unswollen

theorem refl (s : State) : Unswollen s s := ⟨id, Nat.le_refl _, id⟩

theorem trans {s t u : State} (h : Unswollen s t) (g : Unswollen t u) : Unswollen s u :=
  ⟨g.orders ∘ h.orders, g.replies.trans h.replies, g.notices ∘ h.notices⟩

theorem of_kept {l : List Fld} {s t : State} (h : Touches l s t) (he : EventsKept s t)
    (ho : Fld.orders ∉ l := by decide) (hr : Fld.replies ∉ l := by decide) : Unswollen s t :=
  ⟨fun h16 => by rw [h.orders ho]; exact h16, by rw [h.replies hr], he.notices⟩

theorem of_touches {l : List Fld} {s t : State} (h : Touches l s t) (ho : Fld.orders ∉ l := by decide)
    (hr : Fld.replies ∉ l := by decide) (hn : Fld.notices ∉ l := by decide) : Unswollen s t :=
  ⟨fun h16 => by rw [h.orders ho]; exact h16, by rw [h.replies hr], fun h8 => by rw [h.notices hn]; exact h8⟩

theorem foldl {α : Type} {f : State → α → State} (h : ∀ t x, Unswollen t (f t x)) (l : List α) (s : State) :
    Unswollen s (l.foldl f s) :=
  foldl_keeps (P := Unswollen s) (fun t x ht => ht.trans (h t x)) l s (.refl s)

end Unswollen

end Sys2Proof.Machine
end

section
/-! PROOF. Every command keeps the arbiters' form (R142, R143). -/

namespace Sys2Proof.Machine

/-- Between presses: the arbiters' form, no key being in the midst of a press. -/
abbrev Ears (s : State) : Prop := EarsInv (fun _ => False) s

/-! ## Ears at rest -/

theorem ears_empty {s : State} (ha : ∀ d, s.arbiter d = Arbiter.empty) (hk : ∀ k, (s.key k).standing = .outside) : Ears s := by
  refine ⟨fun d => ?_, fun k hn => absurd (hk k) hn⟩
  rw [ha]
  exact ⟨Nat.zero_le 4, List.nodup_nil, List.Pairwise.nil, fun w hw => absurd hw List.not_mem_nil, nofun,
    fun k _ _ hn => absurd (hk k) hn⟩

theorem blank_ears (ph : Phase) (st : Straps) (dr : Nat) (pe : List Instr) : Ears (State.blank ph st dr pe) := by
  refine ears_empty (fun d => tget_replicate _ d) fun k => ?_
  have hkey : (State.blank ph st dr pe).key k = Key.reset := tget_replicate _ k
  rw [hkey]
  rfl

theorem clearAll_ears (s : State) : Ears (clearAll s) := by
  have harb : Touches [.panels, .circuits, .probeQueues, .lampDirty] (clearArbiters (clearTalk (clearStore (clearKeys s))))
      (clearAll s) :=
    ((clearReplyLists_touches _).up.trans (clearField_touches _).up).trans (handAll_touches _).up
  have hkeys : Touches [.entries, .parties, .arbiters] (clearKeys s) (clearArbiters (clearTalk (clearStore (clearKeys s)))) :=
    ((clearStore_touches _).up.trans (clearTalk_touches _).up).trans (clearArbiters_touches _).up
  refine ears_empty (fun d => ?_) fun k => ?_
  · rw [harb.arbiter]
    exact tget_map _ _ d
  · rw [harb.key, hkeys.key]
    have hkey : (clearKeys s).key k =
        { s.key k with state := .idle, standing := .outside, resolved := none, winkTimer := none, latchTimer := none } :=
      tget_map _ _ k
    rw [hkey]

/-! ## Frames and boundaries -/

theorem routeCell_unlisted {x : PortId} {arrival : Count} {s : State} {cell : List Byte}
    (h : cellKindOf (byteAt cell 0) = none) : routeCell x arrival s cell = s := by
  unfold routeCell
  dsimp only
  split
  · rfl
  · rw [h]

theorem routeCell_ears {x : PortId} {arrival : Count} {s : State} {cell : List Byte} (h : Ears s) :
    Ears (routeCell x arrival s cell) := by
  by_cases hl : (byteAt cell 3).toNat ≤ 28
  · cases hk : cellKindOf (byteAt cell 0) with
    | none =>
      rw [routeCell_unlisted hk]
      exact h
    | some k =>
      rw [routeCell_kind hl (code_of_cellKindOf hk)]
      cases k with
      | order =>
        unfold cellWork
        dsimp only
        split
        · exact h.of_touches (offerOrder_touches _ s)
        · exact h
      | keyEvent => exact handleKeyCell_ears h
      | keyMap => exact handleKeyCell_ears h
      | encoder => exact handleKeyCell_ears h
      | echo => exact h.of_touches (handleEcho_touches x _ _ _ arrival s)
      | reply => exact h
      | notice => exact h
      | lamp => exact h
      | cadence => exact h
      | probe => exact h
  · rw [routeCell_long (Nat.lt_of_not_le hl)]
    exact h

theorem acceptFrame_ears {x : PortId} {f : Frame} {s : State} (h : Ears s) : Ears (acceptFrame x f s) :=
  foldl_keeps (P := Ears) (fun _ _ ht => routeCell_ears ht) _ _ (h.of_touches (acceptAudio_touches x f s))

theorem frameAt_ears {x : PortId} {bytes : List Byte} {s : State} (h : Ears s) : Ears (frameAt x bytes s) := by
  have hset : ∀ r, Ears (s.setPort x r) := fun r => h.of_touches (setPort_touches s x r)
  by_cases hd : (s.port x).state = .disabled
  · rw [frameAt_disabled hd]
    exact h
  cases hb : readFrame bytes with
  | none =>
    rw [frameAt_bad hd hb]
    exact (hset _).of_touches (raise_touches _ _ _)
  | some f =>
    rw [frameAt_good hd hb]
    split
    · exact acceptFrame_ears h
    · unfold countFrame
      dsimp only
      split
      · exact acceptFrame_ears ((hset _).of_touches (lockPort_touches x _))
      · exact hset _

theorem losePort_ears {x : PortId} {st : PortState} {s : State} (h : Ears s) : Ears (losePort x st s) := by
  have hcut : Ears (raise .portDown (some x.val) (s.cutOff x st)) :=
    (h.of_touches (cutOff_touches s x st)).of_touches (raise_touches _ _ _)
  rw [losePort_eq]
  exact ((keyPortLost_ears hcut).of_touches (fieldPortLost_touches x _)).of_touches (referenceGone_touches _ _)

theorem closePort_ears {s : State} {x : PortId} (h : Ears s) : Ears (closePort s x) := by
  by_cases hl : s.loses x
  · obtain ⟨v, hv, he⟩ := closePort_loses hl
    rw [he]
    exact losePort_ears (h.of_touches hv)
  by_cases hr : s.returns x
  · obtain ⟨v, hv, he⟩ := closePort_returns hr
    rw [he]
    exact (h.of_touches hv).of_touches (linkBack_touches x v)
  · exact h.of_touches (closePort_quiet hl hr)

theorem boundary_ears {s : State} (h : Ears s) : Ears (boundary s) := by
  have hassembled : Ears ((allOf 4).foldl (assemblePort (atBoundary true s)) (atBoundary true s)) :=
    arbiterInv_iff.1 ((LaneAside.assembleAll (atBoundary true s) (allOf 4) (atBoundary true s)).ears
      (arbiterInv_iff.2 (h.of_touches (atBoundary_touches true s))))
  have hclosed := foldl_keeps (P := Ears) (f := closePort) (fun t x ht => closePort_ears ht) (allOf 4) _
    (hassembled.of_touches (applyReference_touches _))
  unfold boundary
  exact ((hclosed.flushLamps.of_touches (atBoundary_touches false _)).of_touches (beginPeriod_touches _)).of_touches
    (restartFalls_touches _)

/-! ## Timers and writes -/

theorem momentaryOn_ears {k : KeyId} {s : State} (h : Ears s) : Ears (enterState k .momentaryOn s) := by
  refine EarsInv.handKey (h.setKey (fun _ _ => id) ?_)
  by_cases ho : (s.key k).standing = .outside
  · exact .inl ⟨ho, ho⟩
  · exact .inr ⟨rfl, rfl, rfl, rfl, .inl rfl⟩

theorem writeKey_ears {k : KeyId} {l : List FieldValue} {s : State} (h : Ears s) : Ears (writeKey k l s).1 := by
  unfold writeKey
  split
  · exact h
  · next r hr =>
    split
    · exact h
    · split
      · exact h
      · next hidle =>
        have ho : (s.key k).standing = .outside := h.outside (.inr ⟨by rw [not_not.1 hidle]; rfl, id⟩)
        obtain ⟨-, -, -, -, hform⟩ := Key.updated_fields hr
        have hro : r.standing = .outside := by rw [hform]; exact ho
        have hset : Ears (s.setKey k r) := h.setKey (fun _ _ => id) (.inl ⟨hro, ho⟩)
        dsimp only
        split
        · exact hset.handKey
        · exact hset

/-- A destination changes its kind only while its ear is free. -/
theorem writeDest_ears {d : DestId} {l : List FieldValue} {s : State} (h : Ears s) : Ears (writeDest d l s).1 := by
  have hset : ∀ r, Ears (s.setDest d r) := fun r => h.of_touches (setDest_touches s d r)
  unfold writeDest
  split
  · exact h
  · next r _ =>
    split
    · exact hset r
    · split
      · next hc =>
        have hfree : (s.arbiter d).current = none ∧ (s.arbiter d).waiting = [] := by
          unfold State.kindCheck at hc
          dsimp only at hc
          split at hc
          · cases hc
          · next hn =>
            simp only [Bool.or_eq_true, not_or] at hn
            obtain ⟨⟨⟨⟨-, hcur⟩, hwait⟩, -⟩, -⟩ := hn
            exact ⟨by simpa using hcur, by simpa using hwait⟩
        have hsame : (s.setDest d r).arbiter d = Arbiter.empty := by
          show s.arbiter d = Arbiter.empty
          cases ha : s.arbiter d with
          | mk c w =>
            rw [ha] at hfree
            obtain ⟨rfl, rfl⟩ := hfree
            rfl
        refine EarsInv.of_keys (hset r) (fun _ => rfl) fun m => (State.arbiter_setArbiter _ d _ m).trans ?_
        split
        · next hm => rw [hm, hsame]
        · rfl
      · exact h

theorem writePanel_ears {p : PanelId} {l : List FieldValue} {s : State} (h : Ears s) : Ears (writePanel p l s).1 := by
  unfold writePanel
  split
  · exact h
  · next r _ =>
    split
    · have hstored : Ears (storePanel p r l s) := h.of_touches (storePanel_touches p r l s)
      unfold configurePanel
      dsimp only
      split
      · exact hstored.of_touches (setPanel_touches _ p _)
      · exact unconfigure_ears hstored
      · exact hstored
      · exact hstored
    · exact h

theorem ears_commands : CommandsKeep Ears Ears Ears where
  start st s := (blank_ears _ _ _ _).of_touches (raise_touches _ _ _)
  blank ph st dr pe := blank_ears ph st dr pe
  aside h hs := hs.of_touches h.touches
  frame x bytes s hs := (frameAt_ears hs).flushLamps
  boundary s hs := boundary_ears hs
  latch k s hs := (momentaryOn_ears hs).flushLamps
  wink k s hs := by
    have h : Ears (stopWink k s) :=
      EarsInv.handKey (hs.setKey_alike (k := k) (r := { s.key k with winkTimer := none }) rfl rfl rfl rfl rfl)
    exact h.flushLamps
  caller p x s hs := EarsInv.flushLamps (hs.of_touches (removeCaller_touches p x s))
  silence p s _ hs := panelOffline_ears hs
  enter s _ hs := hs.of_touches (takeHead_touches s)
  step s _ hs := hs.of_touches (takeStep_touches s)
  restart s hs := hs.of_touches (takeHead_touches s)
  clear tag s _ _ := by
    unfold clearDynamicUnit
    exact (clearAll_ears _).of_touches (reply_touches _ _ _ _ _ _)
  asideR h hs := hs.of_touches h.touches
  asideM h hs := hs.of_touches h.touches
  done _ hs := hs
  replied tag c r m l s hs := hs.of_touches (reply_touches tag c r m l s)
  flush _ hs := hs.flushLamps
  lose x st s hs := losePort_ears hs
  dest d l s hs := writeDest_ears hs
  station x l s hs := hs.of_touches (writeStation_touches x l s)
  panel p l s hs := writePanel_ears hs
  key k l s hs := writeKey_ears hs
  party p l s hs := hs.of_touches (writeParty_touches p l s)
  tap x l s hs := hs.of_touches (writeTap_touches x l s)
  cadence c l s hs := hs.of_touches (writeCadence_touches c l s)
  arrive l c a d s hs := hs.of_touches (arrive_touches .static l c a d s)
  depart a d s hs := hs.of_touches (depart_touches .static a d s)
  level l a d s hs := hs.of_touches (writeEntryLevel_touches l a d s)
  join tag p x l s hs := hs.of_touches (partyJoinUnit_touches tag p x l s)
  leave tag p x s hs := hs.of_touches (partyLeaveUnit_touches tag p x s)
  flags tag p x n v s hs := hs.of_touches (partyFlagsUnit_touches tag p x n v s)

theorem step_ears {s t : State} (hs : ArbiterInv s) (h : step s = .next t) : ArbiterInv t :=
  step_keeps_of_exec (P := ArbiterInv) (fun _ _ hs => hs)
    (fun c _ _ hs he => arbiterInv_iff.2 (ears_commands.exec c he (arbiterInv_iff.1 hs))) hs h

end Sys2Proof.Machine
end

section
/-! PROOF. Every command keeps the order, reply and notice queues within their capacities (R24, R27). -/

namespace Sys2Proof.Machine

/-- The queues within their capacities, with at most r replies. -/
structure Queued (r : Nat) (s : State) : Prop where
  orders : s.orders.length ≤ 16
  replies : s.replies.length ≤ r
  notices : s.notices.length ≤ 8

/-- No queue above its capacity. -/
abbrev Uncrowded (s : State) : Prop := Queued 16 s

theorem queuesInv_iff {s : State} : QueuesInv s ↔ Uncrowded s :=
  ⟨fun ⟨ho, hr, hn⟩ => ⟨ho, hr, hn⟩, fun ⟨ho, hr, hn⟩ => ⟨ho, hr, hn⟩⟩

theorem Unswollen.queued {r : Nat} {s t : State} (h : Unswollen s t) (hs : Queued r s) : Queued r t :=
  ⟨h.orders hs.orders, h.replies.trans hs.replies, h.notices hs.notices⟩

/-! ## Frames -/

theorem offerOrder_unswollen (o : OrderCell) (s : State) : Unswollen s (offerOrder o s) := by
  refine ⟨fun h => ?_, ?_, (offerOrder_kept o s).notices⟩
  · unfold offerOrder
    split
    · next hroom =>
      show (s.orders ++ [o]).length ≤ 16
      rw [List.length_append]
      exact hroom
    · rw [(raise_touches _ _ s).orders]
      exact h
  · rw [(offerOrder_touches o s).replies]

theorem routeCell_unswollen (x : PortId) (arrival : Count) (s : State) (cell : List Byte) :
    Unswollen s (routeCell x arrival s cell) := by
  by_cases hl : (byteAt cell 3).toNat ≤ 28
  · have hkey : ∀ c, Unswollen s (handleKeyCell x (byteAt cell 1) c s) := fun c =>
      .of_kept (handleKeyCell_touches x _ c s) (handleKeyCell_kept x _ c s)
    cases hk : cellKindOf (byteAt cell 0) with
    | none =>
      rw [routeCell_unlisted hk]
      exact .refl s
    | some k =>
      rw [routeCell_kind hl (code_of_cellKindOf hk)]
      cases k with
      | order =>
        unfold cellWork
        dsimp only
        split
        · exact offerOrder_unswollen _ s
        · exact .refl s
      | keyEvent => exact hkey _
      | keyMap => exact hkey _
      | encoder => exact hkey _
      | echo => exact .of_kept (handleEcho_touches x _ _ _ arrival s) (handleEcho_kept x _ _ _ arrival s)
      | reply => exact .refl s
      | notice => exact .refl s
      | lamp => exact .refl s
      | cadence => exact .refl s
      | probe => exact .refl s
  · rw [routeCell_long (Nat.lt_of_not_le hl)]
    exact .refl s

theorem acceptFrame_unswollen (x : PortId) (f : Frame) (s : State) : Unswollen s (acceptFrame x f s) :=
  (Unswollen.of_kept (acceptAudio_touches x f s) (acceptAudio_kept x f s)).trans
    (.foldl (fun t cell => routeCell_unswollen x _ t cell) f.cells _)

theorem frameAt_unswollen (x : PortId) (bytes : List Byte) (s : State) : Unswollen s (frameAt x bytes s) := by
  have hset : ∀ r, Unswollen s (s.setPort x r) := fun r => .of_touches (setPort_touches s x r)
  by_cases hd : (s.port x).state = .disabled
  · rw [frameAt_disabled hd]
    exact .refl s
  cases hb : readFrame bytes with
  | none =>
    rw [frameAt_bad hd hb]
    exact (hset _).trans (.of_kept (raise_touches _ _ _) (raise_kept _ _ _))
  | some f =>
    rw [frameAt_good hd hb]
    split
    · exact acceptFrame_unswollen x f s
    · unfold countFrame
      dsimp only
      split
      · exact ((hset _).trans (.of_kept (lockPort_touches x _) (lockPort_kept x _))).trans (acceptFrame_unswollen x f _)
      · exact hset _

/-! ## The boundary -/

theorem fillLane_replies (x : PortId) (sent : Count) (s : State) :
    (fillLane x sent s).2.replies.length ≤ s.replies.length := by
  have hhost : ∀ (host : Bool) (room : Nat) (u : State),
      (if host then placeReplies room u else ([], u)).2.replies.length ≤ u.replies.length := by
    intro host room u
    cases host
    · exact Nat.le_refl _
    · exact (List.length_drop.le).trans (Nat.sub_le _ _)
  have hnotices : ∀ (host : Bool) (room : Nat) (u : State),
      (if host then placeNotices room u else ([], u)).2.replies = u.replies := by
    intro host room u
    cases host
    · rfl
    · exact (placeNotices_touches room u).replies
  unfold fillLane
  dsimp only
  rw [(placeLamps_touches x _ _).replies, hnotices]
  refine (hhost _ _ _).trans ?_
  rw [(placeLamps_touches x _ _).replies, (placeProbes_touches x sent _ s).replies]

theorem assemblePort_unswollen (before s : State) (x : PortId) : Unswollen s (assemblePort before s x) := by
  refine ⟨fun h => ?_, ?_, (LaneAside.assemblePort before s x).rises.notices⟩
  · rw [(assemblePort_touches before s x).orders]
    exact h
  · have hmix : (mixedPort before s x).replies = s.replies :=
      (flushLamps_touches _).replies.trans
        (Touches.foldl (f := fun t d => assembleDest before d t) (fun t d => assembleDest_touches before d t)
          (portDests x) s).replies
    rw [assemblePort_eq]
    split
    · rw [(unsent_touches _ x).replies, hmix]
    · rw [(sendFrame_touches_lane x _).replies, ← hmix]
      exact fillLane_replies x _ _

theorem cutOff_unswollen (s : State) (x : PortId) (st : PortState) : Unswollen s (s.cutOff x st) := by
  unfold State.cutOff
  dsimp only
  split
  · exact ⟨fun _ => Nat.zero_le _, Nat.zero_le _, fun _ => Nat.zero_le _⟩
  · exact .of_touches (setPort_touches s x _)

theorem losePort_unswollen (x : PortId) (st : PortState) (s : State) : Unswollen s (losePort x st s) := by
  have hlost : ∀ u, Unswollen u (raise .portDown (some x.val) u) := fun u =>
    .of_kept (raise_touches _ _ u) (raise_kept _ _ u)
  have hkeys : ∀ u, Unswollen u (keyPortLost x u) := fun u =>
    .of_kept (keyPortLost_touches x u) (keyPortLost_rises x u).kept
  have hunlinked : Unswollen s (s.unlinked x st) :=
    (((cutOff_unswollen s x st).trans (hlost _)).trans (hkeys _)).trans (.of_touches (fieldPortLost_touches x _))
  rw [losePort_eq]
  exact hunlinked.trans (.of_kept (referenceGone_touches _ _) (referenceGone_rises _ _).kept)

theorem closePort_unswollen (s : State) (x : PortId) : Unswollen s (closePort s x) := by
  by_cases hl : s.loses x
  · obtain ⟨v, hv, he⟩ := closePort_loses hl
    rw [he]
    exact (Unswollen.of_touches hv).trans (losePort_unswollen x .down v)
  by_cases hr : s.returns x
  · obtain ⟨v, hv, he⟩ := closePort_returns hr
    rw [he]
    exact (Unswollen.of_touches hv).trans (.of_kept (linkBack_touches x v) (linkBack_rises x v).kept)
  · exact .of_touches (closePort_quiet hl hr)

theorem boundary_unswollen (s : State) : Unswollen s (boundary s) := by
  have hassembled : Unswollen s ((allOf 4).foldl (assemblePort (atBoundary true s)) (atBoundary true s)) :=
    (Unswollen.of_touches (atBoundary_touches true s)).trans
      (.foldl (f := assemblePort (atBoundary true s)) (fun t x => assemblePort_unswollen _ t x) (allOf 4) _)
  have hclosed := (hassembled.trans (.of_touches (applyReference_touches _))).trans
    (.foldl (f := closePort) (fun t x => closePort_unswollen t x) (allOf 4) _)
  unfold boundary
  exact (((hclosed.trans (.of_touches (flushLamps_touches _))).trans (.of_touches (atBoundary_touches false _))).trans
    (.of_touches (beginPeriod_touches _))).trans (.of_touches (restartFalls_touches _))

/-! ## Writes -/

theorem unconfigure_unswollen (p : PanelId) (s : State) : Unswollen s (unconfigure p s) :=
  .of_kept (unconfigure_touches p s)
    ((applyPolicy_rises .dropAll p s).kept.trans (.of_touches (unconfigure_touches_rest p s)))

theorem writePanel_unswollen (p : PanelId) (l : List FieldValue) (s : State) : Unswollen s (writePanel p l s).1 := by
  unfold writePanel
  split
  · exact .refl s
  · next r _ =>
    split
    · have hstored : Unswollen s (storePanel p r l s) := .of_touches (storePanel_touches p r l s)
      unfold configurePanel
      dsimp only
      split
      · exact hstored.trans (.of_touches (setPanel_touches _ p _))
      · exact hstored.trans (unconfigure_unswollen p _)
      · exact hstored
      · exact hstored
    · exact .refl s

theorem changeParty_unswollen (p : PartyId) (r : Party) (s : State) : Unswollen s (changeParty p r s) :=
  .of_kept (changeParty_touches p r s) (changeParty_rises p r s).kept

theorem writeParty_unswollen (p : PartyId) (l : List FieldValue) (s : State) : Unswollen s (writeParty p l s).1 := by
  unfold writeParty
  split
  · exact .refl s
  · exact changeParty_unswollen p _ s

/-! ## One reply more -/

theorem Queued.reply {r : Nat} {s : State} (h : Queued r s) (tag c : Byte) (x : Result) (m : Byte)
    (l : List (Option Byte)) : Queued (r + 1) (reply tag c x m l s) := by
  obtain ⟨ho, hr, hn⟩ := h
  refine ⟨ho, ?_, hn⟩
  show (s.replies ++ [_]).length ≤ r + 1
  rw [List.length_append]
  exact Nat.succ_le_succ hr

/-- A unit that swells no queue, and then its plain reply. -/
theorem Queued.replied {s t : State} (hs : Queued 15 s) (h : Unswollen s t) (tag : Byte) (o : Order) (x : Result) :
    Uncrowded (plainReply tag o x t) := (h.queued hs).reply _ _ _ _ _

theorem partyJoinUnit_uncrowded (tag p x l : Byte) {s : State} (h : Queued 15 s) : Uncrowded (partyJoinUnit tag p x l s) := by
  unfold partyJoinUnit
  dsimp only
  split
  · exact h.replied (.refl s) _ _ _
  · exact h.replied (changeParty_unswollen _ _ s) _ _ _

/-- A party changed, and the lamps of its keys perhaps handed on. -/
theorem changeParty_talk_unswollen (b : Bool) (q : PartyId) (r : Party) (c : StationId) (s : State) :
    Unswollen s (if b then handTalk q c (changeParty q r s) else changeParty q r s) := by
  cases b
  · exact changeParty_unswollen q r s
  · exact (changeParty_unswollen q r s).trans (.of_touches (handTalk_touches q c _))

theorem partyLeaveUnit_uncrowded (tag p x : Byte) {s : State} (h : Queued 15 s) : Uncrowded (partyLeaveUnit tag p x s) := by
  unfold partyLeaveUnit
  dsimp only
  split
  · next q c _ _ =>
    split
    · exact h.replied (.refl s) _ _ _
    · exact h.replied (changeParty_talk_unswollen _ q _ c s) _ _ _
  · exact h.replied (.refl s) _ _ _

theorem partyFlagsUnit_uncrowded (tag p x n v : Byte) {s : State} (h : Queued 15 s) :
    Uncrowded (partyFlagsUnit tag p x n v s) := by
  unfold partyFlagsUnit
  dsimp only
  split
  · next q c _ _ =>
    split
    · exact h.replied (.refl s) _ _ _
    · split
      · exact h.replied (.refl s) _ _ _
      · refine h.replied ?_ _ _ _
        split
        · exact changeParty_unswollen q _ s
        · exact changeParty_talk_unswollen true q _ c s
  · exact h.replied (.refl s) _ _ _

/-! ## Orders and block steps taken -/

theorem takeHead_queued {r : Nat} {s : State} (h : Queued r s) : Queued r (takeHead s) := by
  obtain ⟨ho, hr, hn⟩ := h
  refine ⟨?_, hr, hn⟩
  show (s.orders.drop 1).length ≤ 16
  rw [List.length_drop]
  exact (Nat.sub_le _ _).trans ho

/-- With room for n replies at most 16 - n stand in the queue. -/
theorem Queued.room {n r : Nat} {s : State} (h : Uncrowded s) (hroom : s.replyRoom n = true) (hr : r + n = 16) :
    Queued r s := by
  obtain ⟨ho, -, hn⟩ := h
  have hle : s.replies.length + n ≤ 16 := of_decide_eq_true hroom
  exact ⟨ho, by omega, hn⟩

theorem clearAll_unswollen (s : State) : Unswollen s (clearAll s) :=
  .of_touches (clearAll_touches_dynamic s)

theorem abortReply_queued {r : Nat} {s : State} (b : Block) (h : Queued r s) : Queued (r + 1) (abortReply b s) := by
  unfold abortReply
  cases b.work with
  | blockRead tn mask down => exact h.reply _ _ _ _ _
  | fill tn mask down values => exact h.reply _ _ _ _ _
  | meterRead => exact h.reply _ _ _ _ _
  | routeList d place => exact h.reply _ _ _ _ _

/-- CLEAR_DYNAMIC gives one reply more where it ends a block, and then its own (R36, R38). -/
theorem clearDynamicUnit_uncrowded (tag : Byte) {s : State} (hroom : s.replyRoom (s.roomNeeded .clearDynamic) = true)
    (h : Uncrowded s) : Uncrowded (clearDynamicUnit tag (takeHead s)) := by
  have hend : ∀ {u}, Queued 15 u → Uncrowded (plainReply tag .clearDynamic .ok (clearAll u)) := fun hu =>
    hu.replied (clearAll_unswollen _) _ _ _
  have hblock : (takeHead s).block = s.block := (takeHead_touches s).block
  unfold State.roomNeeded at hroom
  unfold clearDynamicUnit
  dsimp only at hroom ⊢
  cases hb : s.block with
  | none =>
    rw [hb] at hroom hblock
    rw [hblock]
    exact hend (takeHead_queued (.room h hroom rfl))
  | some b =>
    rw [hb] at hroom hblock
    rw [hblock]
    have h14 : Queued 14 ((takeHead s).withBlock none) :=
      (Unswollen.of_touches (withBlock_touches _ none)).queued (takeHead_queued (.room h hroom rfl))
    exact hend (abortReply_queued b h14)

/-! ## Every command -/

theorem blank_uncrowded (ph : Phase) (st : Straps) (dr : Nat) (pe : List Instr) : Uncrowded (State.blank ph st dr pe) :=
  ⟨Nat.zero_le _, Nat.zero_le _, Nat.zero_le _⟩

theorem Aside.unswollen {s t : State} (h : Aside s t) : Unswollen s t :=
  ⟨fun h16 => by rw [h.touches.orders]; exact h16, by rw [h.touches.replies], h.notices⟩

theorem raise_unswollen (k : EventKind) (i : Option Nat) (s : State) : Unswollen s (raise k i s) :=
  .of_kept (raise_touches k i s) (raise_kept k i s)

theorem flushLamps_unswollen (s : State) : Unswollen s (flushLamps s) := .of_touches (flushLamps_touches s)

theorem queues_commands : CommandsKeep Uncrowded (Queued 15) Uncrowded where
  start st s := (raise_unswollen _ _ _).queued (blank_uncrowded _ _ _ _)
  blank ph st dr pe := blank_uncrowded ph st dr pe
  aside h hs := h.unswollen.queued hs
  frame x bytes s hs := ((frameAt_unswollen x bytes s).trans (flushLamps_unswollen _)).queued hs
  boundary s hs := (boundary_unswollen s).queued hs
  latch k s hs := ((Unswollen.of_touches (enterState_touches k _ s)).trans (flushLamps_unswollen _)).queued hs
  wink k s hs := ((Unswollen.of_touches (stopWink_touches k s)).trans (flushLamps_unswollen _)).queued hs
  caller p x s hs := ((Unswollen.of_touches (removeCaller_touches p x s)).trans (flushLamps_unswollen _)).queued hs
  silence p s _ hs := (Unswollen.of_kept (panelOffline_touches p s) (PanelsLost.panelOffline_rises p s).kept).queued hs
  enter s hroom hs := takeHead_queued (.room hs hroom rfl)
  step s hroom hs := (Unswollen.of_touches (takeStep_touches s)).queued (.room hs hroom rfl)
  restart s hs := takeHead_queued hs
  clear tag s hroom hs := clearDynamicUnit_uncrowded tag hroom hs
  asideR h hs := h.unswollen.queued hs
  asideM h hs := h.unswollen.queued hs
  done s := fun ⟨ho, hr, hn⟩ => ⟨ho, Nat.le_succ_of_le hr, hn⟩
  replied tag c r m l s hs := hs.reply tag c r m l
  flush s hs := (flushLamps_unswollen s).queued hs
  lose x st s hs := (losePort_unswollen x st s).queued hs
  dest d l s hs := (Unswollen.of_touches (writeDest_touches d l s)).queued hs
  station x l s hs := (Unswollen.of_touches (writeStation_touches x l s)).queued hs
  panel p l s hs := (writePanel_unswollen p l s).queued hs
  key k l s hs := (Unswollen.of_touches (writeKey_touches k l s)).queued hs
  party p l s hs := (writeParty_unswollen p l s).queued hs
  tap x l s hs := (Unswollen.of_touches (writeTap_touches x l s)).queued hs
  cadence c l s hs := (Unswollen.of_touches (writeCadence_touches c l s)).queued hs
  arrive l c a d s hs := (Unswollen.of_touches (arrive_touches .static l c a d s)).queued hs
  depart a d s hs := (Unswollen.of_touches (depart_touches .static a d s)).queued hs
  level l a d s hs := (Unswollen.of_touches (writeEntryLevel_touches l a d s)).queued hs
  join tag p x l s hs := partyJoinUnit_uncrowded tag p x l hs
  leave tag p x s hs := partyLeaveUnit_uncrowded tag p x hs
  flags tag p x n v s hs := partyFlagsUnit_uncrowded tag p x n v hs

theorem step_queues {s t : State} (hs : QueuesInv s) (h : step s = .next t) : QueuesInv t :=
  step_keeps_of_exec (P := QueuesInv) (fun _ _ hs => hs)
    (fun c _ _ hs he => queuesInv_iff.2 (queues_commands.exec c he (queuesInv_iff.1 hs))) hs h

/-- Settles O11: the queues by `queues_commands`, the arbiters by `ears_commands`. -/
theorem queuesKept : Obligations.QueuesKept := ⟨fun _ _ => step_queues, fun _ _ => step_ears⟩

end Sys2Proof.Machine
end
